-- ==== Sys2Proof/Word.lean ====
section
/-!
DEFINITION. The device's units of data (R6, R32): the 36-bit word, the octet, the 18-bit half of a
sequencer, the 24-bit word address, the 72-bit TIME and the 80-bit accumulator.
-/
namespace Sys2Proof

/-- The word, the device's unit of memory and transfer (R6). -/
abbrev Word := BitVec 36

/-- The octet (Notation, R32). -/
abbrev Byte := BitVec 8

/-- A half of a sequencer word (R325, chapter 10). -/
abbrev Half := BitVec 18

/-- A word address (R29: the address space covers 16 Mi words). -/
abbrev Addr := BitVec 24

/-- TIME, a count of 10 ns ticks (R35). -/
abbrev Time := BitVec 72

/-- A Myuno accumulator: guard [79:72], value [71:0] (R299). -/
abbrev Acc80 := BitVec 80

/-- The loop engine's ACC and STATE formats, q = 54 (R259). -/
abbrev Acc72 := BitVec 72

end Sys2Proof
 
end

