-- ==== Sys2Proof/Syntax.lean ====
section
/-!
DEFINITION. The commands of the BZ9648, one constructor of `Instr` per row of opcode_table.json, with the operands the
rule of the row gives it.  What a command reports of the outside world (a measured current, a received frame, the
result of a memory check) is an operand; what the device itself decides is not.  A default stands for a measurement that
finds nothing wrong.
-/
namespace Sys2Proof

/-- The media on which ZOP is carried (R75). -/
inductive Medium where
  | can (ch : Fin 8)   -- CAN FD frames on channel ch
  | udp (port : BitVec 16)   -- datagrams to a port of the device
  | ring               -- ring object frames
  deriving DecidableEq, Repr

/-- A requester instance (R53, R60): each core pair, debug and each session is one; a remote open requester is its
medium address. -/
inductive Requester where
  | pair (p : Fin 2)
  | debug
  | session (i : Fin 8)          -- session ID i + 1 (R78)
  | master                       -- in a follower: the cascade master, for a request that it took as authenticated (R82)
  | openReq (m : Medium) (peer : Nat)
  deriving DecidableEq, Repr

/-- How a load command reaches its block: a write of the load's object, or a command word in the block's queue. -/
inductive Via where
  | object (r : Requester)
  | word
  deriving DecidableEq, Repr

/-- The session trailer of a ZOP message with AUTH set (R80). -/
structure Trailer where
  sid   : Byte
  fresh : Word
  mac   : BitVec 64
  deriving DecidableEq, Repr

/-- The header of a received ZOP message that passed the screening of R74, with where it came from. -/
structure ZopHdr where
  medium  : Medium
  peer    : Nat                 -- the peer's address on the medium
  trailer : Option Trailer      -- AUTH = 1: the session trailer (R80)
  vouched : Bool                -- AUTH = 1 of a request that the cascade master forwards over the ring; it carries no trailer (R82)
  stg     : Bool                -- STG: read the staged value (R71)
  node    : Byte
  rqid    : Byte
  index   : BitVec 16
  sub     : Byte
  deriving DecidableEq, Repr

/-- The outcome of a memory word's check bits (R21, R298, R344). -/
inductive Ecc where
  | good | corrected | uncorrectable
  deriving DecidableEq, Repr

/-- A fabric transaction as its initiator presents it (R13, R18): `len` + 1 words.  Its target follows from its address (R29); it is
background traffic when it belongs to no admitted flow (R15). -/
structure FabTx where
  ini    : Fin 10
  cls    : Fin 4
  write  : Bool
  posted : Bool
  addr   : Addr
  len    : Fin 8
  data   : List Word            -- the words of a write
  flow   : Option (Fin 256)     -- the admitted flow it belongs to
  deriving DecidableEq, Repr

/-- The event queues that are read word by word through a window (R108, R220, R290, R357, R500). -/
inductive EvQueue where
  | adm      -- EVQ, block 0x06
  | valve    -- QEV, block 0x3B
  | loop     -- LEVQ, block 0x20
  | input    -- INQ, block 0x3D
  | fault    -- FEVQ, block 0x05
  deriving DecidableEq, Repr

/-- A thermal group with a junction sensor: G0 to G8 are 0 to 8, then HG0, HG1, the valve stage and the boost converter
(R117, R178, R215, R222). -/
abbrev ThermGrp := Fin 13

/-- A load that carries an off-state test (R135, R179, R216). -/
inductive TestLoad where
  | hs (ch : Fin 72) | pair (k : Fin 8) | valve (n : Fin 12)
  deriving DecidableEq, Repr

/-- An item with a sense word, the possible sources of SENSEOUT (R140, R181, R217, R234). -/
inductive SenseItem where
  | hs (ch : Fin 72) | leg (n : Fin 16) | pair (k : Fin 8) | valve (n : Fin 12) | sink (n : Fin 24)
  deriving DecidableEq, Repr

/-- An item with a HOLD reset policy (R142, R182, R218). -/
inductive HoldItem where
  | hs (ch : Fin 72) | pair (k : Fin 8) | valve (n : Fin 12)
  deriving DecidableEq, Repr

/-- What a position source of a pair delivers (R166, R167). -/
inductive CountEvent where
  | ripple (interval expected : Nat)  -- ripple interval and the expected one, in the same unit
  | hall                              -- POSSRC 2: an edge of HALLA
  | quad (up : Bool)                  -- POSSRC 3: one count of the quadrature
  | phaseError                        -- POSSRC 3: two Hall inputs within 10 µs of each other
  deriving DecidableEq, Repr

/-- Why a peak ends (R194): at PKEXT after pull-in, at PKMAX, or at EPK. -/
inductive PeakEnd where
  | pullIn | pkMax | energy
  deriving DecidableEq, Repr

/-- What SHED_OFF_TIMEOUT acts on (R235, R240, R249). -/
inductive ShedLight where
  | sinks (cls : Fin 8) | chain | matrix
  deriving DecidableEq, Repr

/-- A CAN frame on the wire (R377). -/
structure CanFrame where
  ide : Bool
  fdf : Bool
  brs : Bool
  esi : Bool
  rtr : Bool
  id  : BitVec 29
  dlc : BitVec 4
  data : List Byte
  deriving DecidableEq, Repr

/-- The classes of LEC (R380). -/
inductive CanErr where
  | stuff | form | ack | bitRecessive | bitDominant | crc
  deriving DecidableEq, Repr

/-- The result of a LIN response (R394, R395). -/
inductive LinResult where
  | good | framing | checksum | bitError
  deriving DecidableEq, Repr

/-- An Ethernet frame as received: addresses, tag, EtherType and the octets of the frame without FCS (R399, R402). -/
structure EthFrame where
  dst    : BitVec 48
  src    : BitVec 48
  tagged : Bool
  pcp    : BitVec 3
  vid    : BitVec 12
  etype  : BitVec 16
  octets : List Byte            -- from destination address to payload
  fcsOk  : Bool
  deriving DecidableEq, Repr

/-- A frame of the Rewell ring (R411): header fields, payload words, and how it ended. -/
structure RingFrame where
  cls   : BitVec 4
  src   : Fin 8
  bc    : Bool
  dst   : Fin 8
  chan  : Fin 16
  lap   : Bool
  seq   : BitVec 11
  stamp : Word
  words : List Word
  crcOk : Bool
  eer   : Bool                  -- ended in EER
  deriving DecidableEq, Repr

/-- A daisy message (R440). -/
structure DaisyMsg where
  gen     : Byte
  orig    : Byte
  nxt     : Byte
  ovr     : Bool
  excl    : List Byte
  entries : List (Byte × Byte)  -- node number, 0xFF or the low octet of its refuser code
  deriving DecidableEq, Repr

/-- Where a daisy message arrived (R439). -/
inductive DaisyMed where
  | can (ch : Fin 8) | eth | ring
  deriving DecidableEq, Repr

/-- SRC codes of WCAUSE (obj 0x1200.07, R434). -/
inductive WakeSrc where
  | input | canWup | canWuf | lin | t1s | ring | handle | timer
  deriving DecidableEq, Repr

/-- What requests a poll (R454). -/
inductive PollCause where
  | touch (e : Fin 4) | search | write (r : Requester)
  deriving DecidableEq, Repr

/-- What a slot of a poll showed (R452): the TID and response of a frame whose CRC holds. -/
inductive SlotObs where
  | empty | collision | answer (tid : BitVec 32) (resp : BitVec 64)
  deriving DecidableEq, Repr

/-- The supplies of R583. -/
inductive Supply where
  | aon | sup | core
  deriving DecidableEq, Repr

/-- A debug access through DACC (R573, R595). -/
inductive DebugAcc where
  | readMem (a : Addr)
  | writeMem (a : Addr) (w : Word)
  | readObj (i : BitVec 16) (s : Byte)
  | writeObj (i : BitVec 16) (s : Byte) (v : List Word)
  | halt (p : Fin 2)
  | resume (p : Fin 2)
  deriving DecidableEq, Repr

/-- A transceiver (R396). -/
inductive Xcvr where
  | can (ch : Fin 8) | lin (ch : Fin 8)
  deriving DecidableEq, Repr

/-- A write of 1 bits to a pair of control words: bits of word 0 (0 to 35) or word 1 (R380, R394). -/
structure CtlBits where
  hi   : Bool
  bits : Word
  deriving DecidableEq, Repr

/-- A data register D0 to D15 of a Myuno-36 (R299). -/
abbrev DReg := Fin 16
/-- A 4-bit address-register field: 0 to 7 for A0 to A7, 8 for SP (R311); 9 to 15 are illegal (R312). -/
abbrev AFld := Fin 16
/-- The AB field, A0 to A7 (R311). -/
abbrev ABase := Fin 8
/-- A register S0 to S7 of a Lyssouf-18 (R325). -/
abbrev SReg := Fin 8

/-- What a base-cycle strobe finds measured (R205, R465, R476, R479): the case temperature and the thirteen junctions in 1/16 °C, VBAT
in mV, the boost rail in 10 mV, and which LED sinks and which configurable pins are at
or above 150 °C (R233, R363). -/
structure StrobeEnv where
  tcase : Int
  tj    : Vector Int 13
  vbat  : Nat
  vout  : Nat
  hot   : BitVec 24
  ioHot : BitVec 16
  deriving DecidableEq, Repr

/-- What one phase of an off-state test measures at its end, in mV: the output (for a pair outputs A and B) and VBAT
(R135, R179, R216). -/
structure TestPhase where
  v    : Nat
  vb   : Nat
  vbat : Nat
  deriving DecidableEq, Repr

/-- The CYC frame of the ring (R415). -/
structure CycFrame where
  time  : BitVec 72
  hops  : BitVec 4
  corr  : Nat                   -- ns
  pres  : Byte
  order : BitVec 24
  cycle : Word
  deriving DecidableEq, Repr

/-- A STATE frame that is addressed to this device (R540, R542), and whether it passes R414. -/
structure DuoFrame where
  src   : Fin 8
  ok    : Bool
  words : List Word
  deriving DecidableEq, Repr

/-- The commands of the block: one constructor per row of opcode_table.json, in the table's order; each line cites the rule of
its row. -/
inductive Instr where
  /-- FABRIC_TRANSACTION (R18). -/
  | fabricTransaction (tx : FabTx)
  /-- EGRESS_GRANT (R19). -/
  | egressGrant (egress : Fin 10) (ecc : Ecc)
  /-- FABRIC_RESPONSE (R13). -/
  | fabricResponse (tag : Fin 64)
  /-- STALE_RESPONSE (R17). -/
  | staleResponse (tag : Fin 64)
  /-- RESPONSE_TIMEOUT (R17). -/
  | responseTimeout (tag : Fin 64)
  /-- CREDIT_RETURN (R18). -/
  | creditReturn
  /-- SRAM_SCRUB (R21). -/
  | sramScrub (ecc : Ecc)
  /-- TIME_LO_READ (R36). -/
  | timeLoRead (port : Fin 10)
  /-- TIME_ST_READ (R37). -/
  | timeStRead (port : Fin 10)
  /-- TIME_WRAP (R40). -/
  | timeWrap
  /-- BASE_CYCLE_STROBE (R43). -/
  | baseCycleStrobe (env : StrobeEnv)
  /-- ZOP_READ (R72). -/
  | zopRead (h : ZopHdr)
  /-- ZOP_WRITE (R72). -/
  | zopWrite (h : ZopHdr) (octets : List Byte)
  /-- ZOP_COMMIT (R63). -/
  | zopCommit (h : ZopHdr) (go : Byte) (indices : List (BitVec 16))
  /-- ZOP_SUBSCRIBE (R76). -/
  | zopSubscribe (h : ZopHdr) (minInt : BitVec 16)
  /-- ZOP_UNSUBSCRIBE (R76). -/
  | zopUnsubscribe (h : ZopHdr)
  /-- ZOP_DESCRIBE (R50). -/
  | zopDescribe (h : ZopHdr)
  /-- BLOCK_START (R77). -/
  | blockStart (h : ZopHdr) (dir : Byte) (len : Word)
  /-- BLOCK_SEG (R77). -/
  | blockSeg (h : ZopHdr) (segno : BitVec 16) (words : List Word)
  /-- BLOCK_END (R77). -/
  | blockEnd (h : ZopHdr) (crc : BitVec 32)
  /-- BLOCK_TIMEOUT (R77). -/
  | blockTimeout
  /-- SESSION_OPEN (R79). -/
  | sessionOpen (h : ZopHdr) (slot : Byte)
  /-- SESSION_PROOF (R78). -/
  | sessionProof (h : ZopHdr)
  /-- SESSION_CLOSE (R78). -/
  | sessionClose (h : ZopHdr)
  /-- SESSION_PROOF_TIMEOUT (R79). -/
  | sessionProofTimeout (sid : Fin 8)
  /-- SESSION_IDLE_TIMEOUT (R78). -/
  | sessionIdleTimeout (sid : Fin 8)
  /-- ZOP_MALFORMED (R74). -/
  | zopMalformed (medium : Medium) (peer : Nat) (octets : List Byte)
  /-- NOTIFY_SEND (R76). -/
  | notifySend (sub : Fin 64)
  /-- BUNDLE_COMMIT (R61). -/
  | bundleCommit (r : Requester)
  /-- BUNDLE_ABORT (R60). -/
  | bundleAbort (r : Requester)
  /-- CONSISTENCY_CHECK_DONE (R61). -/
  | consistencyCheckDone (r : Requester)
  /-- STAGING_TIMEOUT (R60). -/
  | stagingTimeout (r : Requester)
  /-- STORE (R64). -/
  | store (r : Requester)
  /-- SAVED_STORE_TIMER (R64). -/
  | savedStoreTimer
  /-- SAVED_STORE_DONE (R65). -/
  | savedStoreDone (ok : Bool)
  /-- FWOBJ_HANDLER_TIMEOUT (R70). -/
  | fwobjHandlerTimeout
  /-- U72_HALF_TIMEOUT (R69). -/
  | u72HalfTimeout (p : Fin 2)
  /-- OBJECT_SERVER_ANSWER (R68). -/
  | objectServerAnswer
  /-- EVENT_QUEUE_READ (R108). -/
  | eventQueueRead (port : Fin 10) (q : EvQueue)
  /-- SPEEDWELL_PASS (R109). -/
  | speedwellPass
  /-- HS_NOP (R122). -/
  | hsNop (g : Fin 9) (mask : BitVec 8)
  /-- HS_OFF (R124). -/
  | hsOff (v : Via) (g : Fin 9) (mask : BitVec 8)
  /-- HS_ON (R124). -/
  | hsOn (v : Via) (g : Fin 9) (mask : BitVec 8)
  /-- HS_PWM (R124). -/
  | hsPwm (v : Via) (g : Fin 9) (mask : BitVec 8)
  /-- HS_DUTY (R119). -/
  | hsDuty (g : Fin 9) (mask : BitVec 8) (d : BitVec 16)
  /-- HS_CLEAR_LATCH (R132). -/
  | hsClearLatch (v : Via) (g : Fin 9) (mask : BitVec 8)
  /-- HS_MALFORMED_WORD (R123). -/
  | hsMalformedWord (g : Fin 9) (w : Word)
  /-- HS_PERIOD_BOUNDARY (R120). -/
  | hsPeriodBoundary (ch : Fin 72)
  /-- HS_ONTIME_END (R120). -/
  | hsOntimeEnd (ch : Fin 72)
  /-- HS_INRUSH_TRIP (R127). -/
  | hsInrushTrip (ch : Fin 72)
  /-- HS_LADDER_OFFTIME_END (R127). -/
  | hsLadderOfftimeEnd (ch : Fin 72)
  /-- HS_INRUSH_WINDOW_CLOSE (R127). -/
  | hsInrushWindowClose (ch : Fin 72)
  /-- HS_OVERCURRENT_TRIP (R131). -/
  | hsOvercurrentTrip (ch : Fin 72)
  /-- QUIET_WINDOW_END (R134). -/
  | quietWindowEnd (g : Fin 9)
  /-- JUNCTION_WARNING (R133). -/
  | junctionWarning (g : ThermGrp) (tj : Int)
  /-- THERMAL_SHUTDOWN (R133). -/
  | thermalShutdown (g : ThermGrp) (tj : Int)
  /-- JUNCTION_SENSOR_FAIL (R149). -/
  | junctionSensorFail (g : ThermGrp)
  /-- OFFSTATE_TEST_DUE (R135). -/
  | offstateTestDue (l : TestLoad)
  /-- OFFSTATE_TEST_PHASE_END (R135). -/
  | offstateTestPhaseEnd (l : TestLoad) (m : TestPhase)
  /-- LOW_CURRENT_DETECT (R136). -/
  | lowCurrentDetect (ch : Fin 72)
  /-- SENSE_SAMPLE (R139). -/
  | senseSample (item : SenseItem) (code : BitVec 12) (checkOk : Bool)
  /-- SOUT_SELECT (R140). -/
  | soutSelect (r : Requester) (item : SenseItem)
  /-- HOLD_TIMER_EXPIRE (R142). -/
  | holdTimerExpire (item : HoldItem)
  /-- HB_NOP (R158). -/
  | hbNop (g : Fin 2) (pmask : BitVec 4)
  /-- HB_FREE (R159). -/
  | hbFree (v : Via) (g : Fin 2) (pmask : BitVec 4)
  /-- HB_STOP (R159). -/
  | hbStop (v : Via) (g : Fin 2) (pmask : BitVec 4)
  /-- HB_RUN (R159). -/
  | hbRun (v : Via) (g : Fin 2) (pmask : BitVec 4) (dir : Bool) (duty : BitVec 16)
  /-- HB_MOVE (R160). -/
  | hbMove (v : Via) (g : Fin 2) (pmask : BitVec 4) (target : BitVec 24)
  /-- HB_PULSE (R159). -/
  | hbPulse (v : Via) (g : Fin 2) (pmask : BitVec 4) (dir : Bool) (ms : BitVec 16)
  /-- HB_PARK (R174). -/
  | hbPark (v : Via) (g : Fin 2) (pmask : BitVec 4) (dir : Bool)
  /-- HB_CLEAR_LATCH (R177). -/
  | hbClearLatch (v : Via) (g : Fin 2) (pmask : BitVec 4)
  /-- HB_MALFORMED_WORD (R159). -/
  | hbMalformedWord (g : Fin 2) (w : Word)
  /-- LEG_OFF (R152). -/
  | legOff (r : Requester) (leg : Fin 16)
  /-- LEG_HIGH_ON (R152). -/
  | legHighOn (r : Requester) (leg : Fin 16)
  /-- LEG_LOW_ON (R152). -/
  | legLowOn (r : Requester) (leg : Fin 16)
  /-- LEG_PWM (R152). -/
  | legPwm (r : Requester) (leg : Fin 16)
  /-- LIMITER_STEP (R163). -/
  | limiterStep (k : Fin 8)
  /-- ZERO_SPEED_DETECT (R165). -/
  | zeroSpeedDetect (k : Fin 8)
  /-- ZERO_SPEED_TIMEOUT (R165). -/
  | zeroSpeedTimeout (k : Fin 8)
  /-- DWELL_END (R164). -/
  | dwellEnd (k : Fin 8)
  /-- POSITION_COUNT (R166). -/
  | positionCount (k : Fin 8) (ev : CountEvent)
  /-- POS_WRITE (R168). -/
  | posWrite (r : Requester) (k : Fin 8) (v : Word)
  /-- KINK_DETECT (R169). -/
  | kinkDetect (k : Fin 8)
  /-- STALL_TIMEOUT (R169). -/
  | stallTimeout (k : Fin 8)
  /-- PINCH_DETECT (R172). -/
  | pinchDetect (k : Fin 8)
  /-- PARK_INPUT_ACTIVE (R174). -/
  | parkInputActive (k : Fin 8)
  /-- PARK_TIMEOUT (R174). -/
  | parkTimeout (k : Fin 8)
  /-- PULSE_END (R174). -/
  | pulseEnd (k : Fin 8)
  /-- CURRENT_LIMIT_ACT (R156). -/
  | currentLimitAct (k : Fin 8)
  /-- HB_OVERCURRENT_TRIP (R176). -/
  | hbOvercurrentTrip (leg : Fin 16) (high : Bool)
  /-- CROSS_CONDUCTION (R155). -/
  | crossConduction (leg : Fin 16)
  /-- VALVE_NOP (R213). -/
  | valveNop (mask : BitVec 12)
  /-- VALVE_OFF (R204). -/
  | valveOff (v : Via) (mask : BitVec 12)
  /-- VALVE_ON (R202). -/
  | valveOn (v : Via) (mask : BitVec 12)
  /-- VALVE_PULSE (R213). -/
  | valvePulse (mask : BitVec 12) (ms : BitVec 16)
  /-- VALVE_CLEAR_LATCH (R215). -/
  | valveClearLatch (v : Via) (mask : BitVec 12)
  /-- VALVE_MALFORMED_WORD (R214). -/
  | valveMalformedWord (w : Word)
  /-- PULL_IN_DETECT (R195). -/
  | pullInDetect (n : Fin 12) (dip : Nat)
  /-- VALVE_PEAK_END (R194). -/
  | valvePeakEnd (n : Fin 12) (why : PeakEnd) (energy : Nat)
  /-- VALVE_HOLD_START (R196). -/
  | valveHoldStart (n : Fin 12)
  /-- VALVE_DECAY_END (R197). -/
  | valveDecayEnd (n : Fin 12) (erec : Nat)
  /-- RELEASE_DETECT (R197). -/
  | releaseDetect (n : Fin 12)
  /-- RELEASE_TIMEOUT (R197). -/
  | releaseTimeout (n : Fin 12)
  /-- VALVE_PULSE_END (R213). -/
  | valvePulseEnd (n : Fin 12)
  /-- DUTY_LIMIT_REACHED (R210). -/
  | dutyLimitReached (n : Fin 12)
  /-- DUTY_LATCH_SELF_CLEAR (R210). -/
  | dutyLatchSelfClear (n : Fin 12)
  /-- VALVE_OVERCURRENT_TRIP (R215). -/
  | valveOvercurrentTrip (n : Fin 12)
  /-- BANK_SWITCH_TRIP (R215). -/
  | bankSwitchTrip (b : Fin 4)
  /-- BANK_CLEAR (R215). -/
  | bankClear (r : Requester) (b : Fin 4)
  /-- BOOST_SETPOINT_REACHED (R206). -/
  | boostSetpointReached (vout : Nat)
  /-- BOOST_CHARGE_TIMEOUT (R206). -/
  | boostChargeTimeout
  /-- BOOST_CLEAR (R206). -/
  | boostClear (r : Requester)
  /-- BOOST_OVERVOLTAGE (R207). -/
  | boostOvervoltage (vout : Nat)
  /-- BOOST_DISCHARGED (R209). -/
  | boostDischarged
  /-- LED_NOP (R231). -/
  | ledNop (n : Fin 24)
  /-- LED_LEVEL (R229). -/
  | ledLevel (v : Via) (n : Fin 24) (x : BitVec 16) (fade : BitVec 16)
  /-- LED_CLEAR_LATCH (R233). -/
  | ledClearLatch (v : Via) (n : Fin 24)
  /-- LED_MALFORMED_WORD (R232). -/
  | ledMalformedWord (w : Word)
  /-- LED_PERIOD_BOUNDARY (R228): `reached`, the string carried its current in the period that ends (R233). -/
  | ledPeriodBoundary (n : Fin 24) (reached : Bool := true)
  /-- LED_OPEN_STRING (R233). -/
  | ledOpenString (n : Fin 24)
  /-- LED_STRING_SHORT (R233). -/
  | ledStringShort (n : Fin 24)
  /-- LED_THERMAL_SHUTDOWN (R233). -/
  | ledThermalShutdown (n : Fin 24)
  /-- SHED_OFF_TIMEOUT (R235). -/
  | shedOffTimeout (what : ShedLight)
  /-- CHAIN_SET_CGO (R239). -/
  | chainSetCgo (v : Via)
  /-- CHAIN_REFRESH (R239). -/
  | chainRefresh (ok : Bool)
  /-- CHAIN_NOP (R242). -/
  | chainNop
  /-- CHAIN_MALFORMED_WORD (R242). -/
  | chainMalformedWord (w : Word)
  /-- MATRIX_SHOW (R247). -/
  | matrixShow (v : Via) (buf : BitVec 8)
  /-- MATRIX_FRAME_START (R248). -/
  | matrixFrameStart (badRows : List Nat)
  /-- FSYNC_EDGE (R248): `badRows` as of MATRIX_FRAME_START (R245). -/
  | fsyncEdge (badRows : List Nat := [])
  /-- FSYNC_LOST (R248). -/
  | fsyncLost
  /-- LOOP_RELEASE (R254). -/
  | loopRelease (m : Fin 360)
  /-- LOOP_STEP (R266). -/
  | loopStep (t : Fin 16) (mismatch : Bool)
  /-- LOOP_STREAM_ARRIVAL (R257). -/
  | loopStreamArrival (endpoint : BitVec 16) (words : List Word)
  /-- LOOP_WAIT_EXPIRE (R277). -/
  | loopWaitExpire (m : Fin 360)
  /-- LOOP_DEADLINE (R256). -/
  | loopDeadline (m : Fin 360)
  /-- LOOP_MODE_OFF (R273). -/
  | loopModeOff (r : Requester) (m : Fin 360)
  /-- LOOP_MODE_MANUAL (R273). -/
  | loopModeManual (r : Requester) (m : Fin 360)
  /-- LOOP_MODE_AUTO (R279). -/
  | loopModeAuto (r : Requester) (m : Fin 360)
  /-- TILE_FAILURE (R281). -/
  | tileFailure (t : Fin 16)
  /-- REMAP_LOAD_DONE (R283). -/
  | remapLoadDone
  /-- LOCKSTEP_MISMATCH (R295). -/
  | lockstepMismatch (p : Fin 2)
  /-- INTERRUPT_ENTRY (R319). -/
  | interruptEntry (p : Fin 2)
  /-- TIMER_COMPARE_MATCH (R302). -/
  | timerCompareMatch (p : Fin 2)
  /-- STF_FLUSH_TIMEOUT (R316). -/
  | stfFlushTimeout (p : Fin 2) (c : Byte)
  /-- ILLEGAL_INSTRUCTION (R312). -/
  | illegalInstruction (p : Fin 2) (w : Word)
  /-- MOV (R313). -/
  | mov (p : Fin 2) (d a : DReg)
  /-- ADD (R313). -/
  | add (p : Fin 2) (d a b : DReg)
  /-- SUB (R313). -/
  | sub (p : Fin 2) (d a b : DReg)
  /-- ADDS (R313). -/
  | adds (p : Fin 2) (d a b : DReg)
  /-- SUBS (R313). -/
  | subs (p : Fin 2) (d a b : DReg)
  /-- AND (R313). -/
  | and (p : Fin 2) (d a b : DReg)
  /-- OR (R313). -/
  | or (p : Fin 2) (d a b : DReg)
  /-- XOR (R313). -/
  | xor (p : Fin 2) (d a b : DReg)
  /-- ANDN (R313). -/
  | andn (p : Fin 2) (d a b : DReg)
  /-- SHL (R313). -/
  | shl (p : Fin 2) (d a b : DReg)
  /-- SHR (R313). -/
  | shr (p : Fin 2) (d a b : DReg)
  /-- SAR (R313). -/
  | sar (p : Fin 2) (d a b : DReg)
  /-- CMP (R313). -/
  | cmp (p : Fin 2) (a b : DReg)
  /-- MIN (R313). -/
  | min (p : Fin 2) (d a b : DReg)
  /-- MAX (R313). -/
  | max (p : Fin 2) (d a b : DReg)
  /-- CLZ (R313). -/
  | clz (p : Fin 2) (d a : DReg)
  /-- NEG (R313). -/
  | neg (p : Fin 2) (d a : DReg)
  /-- ADDI (R313). -/
  | addi (p : Fin 2) (d a : DReg) (imm : BitVec 22)
  /-- ANDI (R313). -/
  | andi (p : Fin 2) (d a : DReg) (imm : BitVec 22)
  /-- ORI (R313). -/
  | ori (p : Fin 2) (d a : DReg) (imm : BitVec 22)
  /-- XORI (R313). -/
  | xori (p : Fin 2) (d a : DReg) (imm : BitVec 22)
  /-- CMPI (R313). -/
  | cmpi (p : Fin 2) (a : DReg) (imm : BitVec 22)
  /-- SHLI (R313). -/
  | shli (p : Fin 2) (d a : DReg) (sh : Fin 64)
  /-- SHRI (R313). -/
  | shri (p : Fin 2) (d a : DReg) (sh : Fin 64)
  /-- SARI (R313). -/
  | sari (p : Fin 2) (d a : DReg) (sh : Fin 64)
  /-- MOVI (R313). -/
  | movi (p : Fin 2) (d : DReg) (imm : BitVec 22)
  /-- MOVHI (R313). -/
  | movhi (p : Fin 2) (d : DReg) (imm : BitVec 18)
  /-- LEA (R313). -/
  | lea (p : Fin 2) (an : AFld) (ab : ABase) (off : BitVec 23)
  /-- ADDAR (R313). -/
  | addar (p : Fin 2) (an ab : AFld) (b : DReg)
  /-- MOVA (R300). -/
  | mova (p : Fin 2) (an : AFld) (a : DReg)
  /-- MOVD (R300). -/
  | movd (p : Fin 2) (d : DReg) (aa : AFld)
  /-- CMPA (R303). -/
  | cmpa (p : Fin 2) (aa ab : AFld)
  /-- LD (R313). -/
  | ld (p : Fin 2) (d : DReg) (ab : ABase) (off : BitVec 23) (ecc : Ecc)
  /-- ST (R314). -/
  | st (p : Fin 2) (ds : DReg) (ab : ABase) (off : BitVec 23) (ecc : Ecc)
  /-- LDA (R313). -/
  | lda (p : Fin 2) (an : AFld) (ab : ABase) (off : BitVec 23) (ecc : Ecc)
  /-- STA (R313). -/
  | sta (p : Fin 2) (an : AFld) (ab : ABase) (off : BitVec 23) (ecc : Ecc)
  /-- PUSH (R304). -/
  | push (p : Fin 2) (ds : DReg) (ecc : Ecc)
  /-- POP (R304). -/
  | pop (p : Fin 2) (d : DReg) (ecc : Ecc)
  /-- LDO (R315). -/
  | ldo (p : Fin 2) (d : DReg) (index : BitVec 16) (sub : Byte)
  /-- STO (R315). -/
  | sto (p : Fin 2) (ds : DReg) (index : BitVec 16) (sub : Byte)
  /-- STF (R316). -/
  | stf (p : Fin 2) (ds : DReg) (c : Byte)
  /-- B (R313). -/
  | b (p : Fin 2) (cond : Fin 16) (rel : BitVec 24)
  /-- CALL (R305). -/
  | call (p : Fin 2) (rel : BitVec 24)
  /-- NOP (R313). -/
  | nop (p : Fin 2)
  /-- JMPR (R313). -/
  | jmpr (p : Fin 2) (ab : ABase)
  /-- CALLR (R305). -/
  | callr (p : Fin 2) (ab : ABase)
  /-- RET (R305). -/
  | ret (p : Fin 2)
  /-- RTI (R319). -/
  | rti (p : Fin 2)
  /-- WAIT (R313). -/
  | wait (p : Fin 2)
  /-- SYNC (R313). -/
  | sync (p : Fin 2)
  /-- EI (R313). -/
  | ei (p : Fin 2)
  /-- DI (R313). -/
  | di (p : Fin 2)
  /-- BKPT (R313). -/
  | bkpt (p : Fin 2)
  /-- TRAP (R320). -/
  | trap (p : Fin 2) (n : Byte)
  /-- CINVI (R297). -/
  | cinvi (p : Fin 2)
  /-- MUL (R308). -/
  | mul (p : Fin 2) (a b : DReg)
  /-- MULU (R308). -/
  | mulu (p : Fin 2) (a b : DReg)
  /-- MAC (R310). -/
  | mac (p : Fin 2) (n : Fin 2)
  /-- MSU (R310). -/
  | msu (p : Fin 2) (n : Fin 2)
  /-- ACCLR (R313). -/
  | acclr (p : Fin 2) (n : Fin 2)
  /-- ACR (R310). -/
  | acr (p : Fin 2) (d : DReg) (n : Fin 2) (sh : Fin 64)
  /-- ACW (R313). -/
  | acw (p : Fin 2) (n : Fin 2) (a : DReg) (sh : Fin 64)
  /-- BFI (R313). -/
  | bfi (p : Fin 2) (d a : DReg) (pos wid : Fin 64)
  /-- BFX (R313). -/
  | bfx (p : Fin 2) (d a : DReg) (pos wid : Fin 64) (s : Bool)
  /-- BPERM (R313). -/
  | bperm (p : Fin 2) (d a : DReg) (sel : Byte)
  /-- MFS (R302). -/
  | mfs (p : Fin 2) (d : DReg) (sr : Fin 64)
  /-- MTS (R302). -/
  | mts (p : Fin 2) (sr : Fin 64) (ds : DReg)
  /-- CWB (R297). -/
  | cwb (p : Fin 2) (ab : ABase) (off : BitVec 23) (ecc : Ecc)
  /-- CINV (R297). -/
  | cinv (p : Fin 2) (ab : ABase) (off : BitVec 23) (ecc : Ecc)
  /-- SLOT_PERIODIC_ELIGIBLE (R329). -/
  | slotPeriodicEligible (n : Fin 16) (slot : Fin 8)
  /-- BINDING_EVENT (R333). -/
  | bindingEvent (n : Fin 16) (b : Fin 8) (evt : BitVec 7)
  /-- ACTIVATION_START (R330). -/
  | activationStart (n : Fin 16)
  /-- ACTIVATION_ABORT (R332). -/
  | activationAbort (n : Fin 16)
  /-- SEQ_TMR_EXPIRE (R336). -/
  | seqTmrExpire (n : Fin 16) (b : Fin 8)
  /-- SEQ_HELD_ACCESS (R327). -/
  | seqHeldAccess (n : Fin 16)
  /-- USER_IMAGE_LOAD (R341). -/
  | userImageLoad
  /-- SIGNAL_READ (R345). -/
  | signalRead (port : Fin 10) (n : Fin 16)
  /-- LYS_MOV (R338). -/
  | lysMov (n : Fin 16) (d a : SReg)
  /-- LYS_ADD (R338). -/
  | lysAdd (n : Fin 16) (d a b : SReg)
  /-- LYS_SUB (R338). -/
  | lysSub (n : Fin 16) (d a b : SReg)
  /-- LYS_AND (R338). -/
  | lysAnd (n : Fin 16) (d a b : SReg)
  /-- LYS_OR (R338). -/
  | lysOr (n : Fin 16) (d a b : SReg)
  /-- LYS_XOR (R338). -/
  | lysXor (n : Fin 16) (d a b : SReg)
  /-- LYS_SHL (R338). -/
  | lysShl (n : Fin 16) (d a b : SReg)
  /-- LYS_SHR (R338). -/
  | lysShr (n : Fin 16) (d a b : SReg)
  /-- LYS_SAR (R338). -/
  | lysSar (n : Fin 16) (d a b : SReg)
  /-- LYS_CMP (R338). -/
  | lysCmp (n : Fin 16) (a b : SReg)
  /-- LYS_MIN (R338). -/
  | lysMin (n : Fin 16) (d a b : SReg)
  /-- LYS_MAX (R338). -/
  | lysMax (n : Fin 16) (d a b : SReg)
  /-- LYS_MOVI (R338). -/
  | lysMovi (n : Fin 16) (d : SReg) (imm : BitVec 10)
  /-- LYS_ADDI (R338). -/
  | lysAddi (n : Fin 16) (d : SReg) (imm : BitVec 10)
  /-- LYS_CMPI (R338). -/
  | lysCmpi (n : Fin 16) (d : SReg) (imm : BitVec 10)
  /-- LYS_ANDI (R338). -/
  | lysAndi (n : Fin 16) (d : SReg) (imm : BitVec 10)
  /-- LYS_ORI (R338). -/
  | lysOri (n : Fin 16) (d : SReg) (imm : BitVec 10)
  /-- LYS_LUI (R338). -/
  | lysLui (n : Fin 16) (d : SReg) (imm : Byte)
  /-- LYS_LDH (R338). -/
  | lysLdh (n : Fin 16) (d a : SReg) (off : BitVec 7)
  /-- LYS_STH (R338). -/
  | lysSth (n : Fin 16) (d a : SReg) (off : BitVec 7)
  /-- LYS_IN (R333). -/
  | lysIn (n : Fin 16) (d : SReg) (port : Fin 64)
  /-- LYS_OUT (R335). -/
  | lysOut (n : Fin 16) (d : SReg) (port : Fin 64)
  /-- LYS_GET (R338). -/
  | lysGet (n : Fin 16) (d : SReg) (g : Fin 16)
  /-- LYS_B (R339). -/
  | lysB (n : Fin 16) (cond : Fin 8) (rel : BitVec 10)
  /-- LYS_J (R339). -/
  | lysJ (n : Fin 16) (tgt : BitVec 12)
  /-- LYS_CALL (R338). -/
  | lysCall (n : Fin 16) (tgt : BitVec 12)
  /-- LYS_JR (R338). -/
  | lysJr (n : Fin 16) (a : SReg)
  /-- LYS_DBNZ (R338). -/
  | lysDbnz (n : Fin 16) (d : SReg) (rel : BitVec 10)
  /-- LYS_END (R338). -/
  | lysEnd (n : Fin 16)
  /-- LYS_SIG (R338). -/
  | lysSig (n : Fin 16) (imm : Byte)
  /-- LYS_ILLEGAL (R339). -/
  | lysIllegal (n : Fin 16) (w : Half)
  /-- DEBOUNCE_ACCEPT (R352). -/
  | debounceAccept (i : Fin 80)
  /-- CHATTER_FALLBACK (R353). -/
  | chatterFallback (i : Fin 80)
  /-- FILTER_ACCEPT (R353). -/
  | filterAccept (i : Fin 80)
  /-- FILTER_EXIT (R354). -/
  | filterExit (i : Fin 80)
  /-- OPEN_BAND_LOST (R350). -/
  | openBandLost (i : Fin 80)
  /-- PARK_POLL (R359). -/
  | parkPoll (n : Fin 64) (mV : Nat)
  /-- IO_CMD_OFF (R363). -/
  | ioCmdOff (r : Requester) (n : Fin 16)
  /-- IO_CMD_ON (R363). -/
  | ioCmdOn (r : Requester) (n : Fin 16)
  /-- IO_CLEAR (R363). -/
  | ioClear (r : Requester) (n : Fin 16)
  /-- IO_OVERCURRENT (R363). -/
  | ioOvercurrent (n : Fin 16)
  /-- IO_THERMAL (R363). -/
  | ioThermal (n : Fin 16)
  /-- ADC_CONVERSION (R367). -/
  | adcConversion (adc : Fin 8) (slot : Nat) (code : BitVec 12) (checkOk : Bool)
  /-- AREF_LOW (R366). -/
  | arefLow
  /-- CAN_FRAME_RECEIVE (R381). -/
  | canFrameReceive (ch : Fin 8) (frame : CanFrame)
  /-- CAN_TX_REQUEST (R381). -/
  | canTxRequest (r : Requester) (ch : Fin 8) (m : CtlBits)
  /-- CAN_TX_ABORT (R381). -/
  | canTxAbort (r : Requester) (ch : Fin 8) (m : CtlBits)
  /-- CAN_NEW_CLEAR (R380). -/
  | canNewClear (r : Requester) (ch : Fin 8) (m : CtlBits)
  /-- CAN_TX_ATTEMPT (R384). -/
  | canTxAttempt (ch : Fin 8)
  /-- CAN_TX_DONE (R381). -/
  | canTxDone (ch : Fin 8)
  /-- CAN_TX_FAIL (R385). -/
  | canTxFail (ch : Fin 8) (lost : Bool)
  /-- CAN_BUS_ERROR (R386). -/
  | canBusError (ch : Fin 8) (kind : CanErr) (tx : Bool) (step8 : Bool)
  /-- BORST (R386). -/
  | borst (r : Requester) (ch : Fin 8)
  /-- CAN_BUSOFF_RECOVERED (R386). -/
  | canBusoffRecovered (ch : Fin 8)
  /-- ABD_CANDIDATE_TIMEOUT (R388). -/
  | abdCandidateTimeout (ch : Fin 8) (error : Bool)
  /-- CAN_WUP_DETECT (R389). -/
  | canWupDetect (ch : Fin 8)
  /-- CAN_WUF_DETECT (R389). -/
  | canWufDetect (ch : Fin 8) (frame : CanFrame) (error : Bool)
  /-- WUF_DECODER_TIMEOUT (R389). -/
  | wufDecoderTimeout (ch : Fin 8)
  /-- TXD_DOMINANT_TIMEOUT (R396). -/
  | txdDominantTimeout (x : Xcvr)
  /-- LIN_SLOT_START (R393). -/
  | linSlotStart (ch : Fin 8)
  /-- LIN_RESPONSE_COMPLETE (R394). -/
  | linResponseComplete (ch : Fin 8) (octets : List Byte) (res : LinResult)
  /-- LIN_RESPONSE_TIMEOUT (R395). -/
  | linResponseTimeout (ch : Fin 8) (some : Bool)
  /-- LIN_NEW_CLEAR (R394). -/
  | linNewClear (r : Requester) (ch : Fin 8) (m : CtlBits)
  /-- LIN_TX_PENDING (R394). -/
  | linTxPending (r : Requester) (ch : Fin 8) (m : CtlBits)
  /-- RUNTBL_WRITE (R393). -/
  | runtblWrite (r : Requester) (ch : Fin 8) (v : Byte)
  /-- LIN_BUS_DOMINANT (R396). -/
  | linBusDominant (ch : Fin 8)
  /-- ETH_FRAME_RECEIVE (R400). -/
  | ethFrameReceive (port : Fin 5) (f : EthFrame)
  /-- ETH_FRAME_TRANSMIT (R406). -/
  | ethFrameTransmit (port : Fin 5)
  /-- HOST_TX_KICK (R402). -/
  | hostTxKick (r : Requester) (v : Word)
  /-- MAC_AGEOUT (R399). -/
  | macAgeout (idx : Nat)
  /-- XG_LINK_CHANGE (R403). -/
  | xgLinkChange (x : Fin 2) (up : Bool) (speed : BitVec 2) (an : BitVec 2)
  /-- T1S_BEACON_LOST (R422). -/
  | t1sBeaconLost (x : Fin 2)
  /-- PTP_SYNC_RECEIVE (R409). -/
  | ptpSyncReceive (offset : Int) (gmid : BitVec 64)
  /-- PTP_SYNC_SEND (R408). -/
  | ptpSyncSend (port : Fin 2)
  /-- PTP_PDELAY (R408). -/
  | ptpPdelay (port : Fin 2) (delay : Nat)
  /-- PTP_SYNC_TIMEOUT (R409). -/
  | ptpSyncTimeout
  /-- RING_CYCLE_START (R412). -/
  | ringCycleStart
  /-- RING_CYC_RECEIVE (R415). -/
  | ringCycReceive (c : CycFrame)
  /-- RING_TEND_RECEIVE (R412). -/
  | ringTendReceive
  /-- RING_FRAME_RECEIVE (R414). -/
  | ringFrameReceive (f : RingFrame)
  /-- RING_CODE_VIOLATION (R414). -/
  | ringCodeViolation
  /-- RING_TRAIN_REPAIR (R414). -/
  | ringTrainRepair
  /-- RING_CYC_LOST (R419). -/
  | ringCycLost
  /-- RING_TEND_LOST (R419). -/
  | ringTendLost
  /-- RING_JOIN (R419). -/
  | ringJoin
  /-- RING_TIMER_TAKE (R532). -/
  | ringTimerTake
  /-- PARK_REQ_NONE (R428). -/
  | parkReqNone (r : Requester)
  /-- PARK_REQUEST (R428). -/
  | parkRequest (r : Requester)
  /-- DEEP_PARK_REQUEST (R428). -/
  | deepParkRequest (r : Requester)
  /-- IDLE_ENTER (R425). -/
  | idleEnter
  /-- IDLE_EXIT (R425). -/
  | idleExit
  /-- ENTRY_START (R428). -/
  | entryStart
  /-- ENTRY_COMPLETE (R431). -/
  | entryComplete
  /-- ENTRY_DRAIN_TIMEOUT (R431). -/
  | entryDrainTimeout
  /-- WAKE_EVENT (R434). -/
  | wakeEvent (src : WakeSrc) (num : BitVec 8)
  /-- WAKE_TIMER_EXPIRE (R435). -/
  | wakeTimerExpire
  /-- DOMAIN_RETURN_RELEASE (R436). -/
  | domainReturnRelease (d : Fin 7)
  /-- WAKE_REPLAY (R437). -/
  | wakeReplay
  /-- DAISY_ROUND_OPEN (R441). -/
  | daisyRoundOpen
  /-- DAISY_ROUND_RECEIVE (R441). -/
  | daisyRoundReceive (m : DaisyMsg) (med : DaisyMed)
  /-- DAISY_ROUND_TIMEOUT (R441). -/
  | daisyRoundTimeout
  /-- DAISY_COMMIT_REPEAT (R441). -/
  | daisyCommitRepeat
  /-- DAISY_COMMIT_RECEIVE (R442). -/
  | daisyCommitReceive (m : DaisyMsg) (med : DaisyMed)
  /-- DAISY_KEEP_RECEIVE (R444). -/
  | daisyKeepReceive (m : DaisyMsg) (med : DaisyMed)
  /-- DAISY_KEEP_SEND (R444). -/
  | daisyKeepSend
  /-- DAISY_WAKE_RECEIVE (R437). -/
  | daisyWakeReceive (m : DaisyMsg) (med : DaisyMed)
  /-- MAXAWAKE_EXPIRE (R443). -/
  | maxawakeExpire
  /-- POLL_REQUEST (R454). -/
  | pollRequest (cause : PollCause)
  /-- POLL_POWERING_END (R449, R453): `amp` the coil current amplitude in mA. -/
  | pollPoweringEnd (amp : Nat := 500)
  /-- POLL_SLOT_END (R452). -/
  | pollSlotEnd (obs : SlotObs)
  /-- LOCKOUT_EXPIRE (R457). -/
  | lockoutExpire
  /-- LOCKOUT_CLEAR (R458). -/
  | lockoutClear (r : Requester)
  /-- LF_DRIVER_CLEAR (R449). -/
  | lfDriverClear (r : Requester)
  /-- LF_SHORT (R449). -/
  | lfShort
  /-- RESULT_READ (R455). -/
  | resultRead (r : Requester)
  /-- HANDLE_MEASURE (R459). -/
  | handleMeasure (e : Fin 4) (code : Nat)
  /-- LF_SEARCH (R460). -/
  | lfSearch (ack : Option (BitVec 32))
  /-- SEARCH_STOP (R460). -/
  | searchStop
  /-- CLASS_SHED (R468). -/
  | classShed (k : Fin 8)
  /-- CLASS_RESTORE (R470). -/
  | classRestore (k : Fin 8)
  /-- RESTORE_ENERGISE_BATCH (R470). -/
  | restoreEnergiseBatch
  /-- CRANK_ENTRY (R471). -/
  | crankEntry
  /-- CRANK_EXIT (R471). -/
  | crankExit
  /-- OVERVOLTAGE_SET (R473). -/
  | overvoltageSet
  /-- OVERVOLTAGE_CLEAR (R473). -/
  | overvoltageClear
  /-- GROUND_LOSS (R482). -/
  | groundLoss
  /-- GROUND_RESTORED (R482). -/
  | groundRestored
  /-- CASE_SENSOR_FAIL (R480). -/
  | caseSensorFail
  /-- FAULT_REPORT (R486). -/
  | faultReport (n : Nat) (fresh : List (BitVec 12)) (bad : List (BitVec 12) := [])
  /-- FREEZE_COMPLETE (R502). -/
  | freezeComplete
  /-- ERRN_PULSE_END (R499). -/
  | errnPulseEnd
  /-- ERRN_MISMATCH (R499). -/
  | errnMismatch
  /-- ERRNLVL_WRITE (R499). -/
  | errnlvlWrite (r : Requester) (v : Bool)
  /-- FCLR (R495). -/
  | fclr (r : Requester)
  /-- STCLR (R494). -/
  | stclr (r : Requester) (v : BitVec 16)
  /-- SREL (R492). -/
  | srel (r : Requester)
  /-- DGCLR (R487). -/
  | dgclr (r : Requester) (v : Byte)
  /-- SHADOW_END (R497). -/
  | shadowEnd (blk : BitVec 7)
  /-- DUMPGO (R505). -/
  | dumpgo (r : Requester)
  /-- DUMP_ERASE_DONE (R505). -/
  | dumpEraseDone
  /-- DUMP_COMPLETE (R505). -/
  | dumpComplete (ok : Bool)
  /-- POWER_ON_RESET (R512). -/
  | powerOnReset (casc : Fin 8)
  /-- AON_BROWNOUT (R425). -/
  | aonBrownout
  /-- SUP_BROWNOUT (R512). -/
  | supBrownout
  /-- CORE_BROWNOUT (R472). -/
  | coreBrownout
  /-- SUPPLY_GOOD (R512). -/
  | supplyGood (which : Supply)
  /-- RSTN_FALL (R513). -/
  | rstnFall
  /-- RSTN_RISE (R513). -/
  | rstnRise
  /-- SWRST (R522). -/
  | swrst (r : Requester) (v : Byte)
  /-- SWBLK (R521). -/
  | swblk (r : Requester) (v : Byte)
  /-- DEBUG_RESET_REQUEST (R523). -/
  | debugResetRequest
  /-- DEBUG_RESET_WITHDRAW (R512). -/
  | debugResetWithdraw
  /-- RESET_PULSE_END (R512). -/
  | resetPulseEnd (src : Fin 12)
  /-- DOMAIN_RELEASE (R518). -/
  | domainRelease
  /-- CLOCK_GOOD_TIMEOUT (R518). -/
  | clockGoodTimeout
  /-- ROOT_LOSS (R510). -/
  | rootLoss
  /-- ROOT_RESTART (R510). -/
  | rootRestart
  /-- ROOT_RECOVERED (R510). -/
  | rootRecovered
  /-- AON_OSC_CHECK (R511). -/
  | aonOscCheck (dev : Bool)
  /-- WDKICK (R524). -/
  | wdkick (p : Fin 2) (v : Byte)
  /-- WATCHDOG_WARNING (R524). -/
  | watchdogWarning
  /-- WATCHDOG_EXPIRE (R524). -/
  | watchdogExpire
  /-- WDLOCK (R525). -/
  | wdlock (r : Requester)
  /-- DUO_STATE_RECEIVE (R542). -/
  | duoStateReceive (f : DuoFrame)
  /-- DUO_COPY_DEADLINE (R542). -/
  | duoCopyDeadline
  /-- DUO_ALARM_RECEIVE (R546). -/
  | duoAlarmReceive (id : BitVec 8)
  /-- IMAGE_VERIFY_DONE (R563). -/
  | imageVerifyDone (verr : Byte)
  /-- BANK_ERASE_DONE (R563). -/
  | bankEraseDone
  /-- ROM_BOOT_VERIFY_DONE (R561). -/
  | romBootVerifyDone (verr : Byte)
  /-- ACTIVATE (R564). -/
  | activate (r : Requester)
  /-- CONFIRM (R565). -/
  | confirm (r : Requester)
  /-- BOOTOK (R560). -/
  | bootok (r : Requester)
  /-- BOOTOK_TIMEOUT (R562). -/
  | bootokTimeout
  /-- KEYLOAD (R552). -/
  | keyload (r : Requester) (slot : Byte) (key : BitVec 128)
  /-- KEYCLR (R552). -/
  | keyclr (r : Requester) (v : Byte)
  /-- UKREV (R552). -/
  | ukrev (r : Requester) (v : Byte)
  /-- LOG_APPEND (R570). -/
  | logAppend (ok : Bool)
  /-- EXTEST (R573). -/
  | extest
  /-- IDCODE (R573). -/
  | idcode
  /-- SAMPLE_PRELOAD (R573). -/
  | samplePreload
  /-- DCHAL (R574). -/
  | dchal
  /-- DRESP (R574). -/
  | dresp (level : BitVec 2) (mac : BitVec 128)
  /-- DACC (R595). -/
  | dacc (a : DebugAcc)
  /-- BYPASS (R573). -/
  | bypass
  /-- REGISTER_WRITE (R56). -/
  | registerWrite (r : Requester) (index : BitVec 16) (sub : Byte) (v : List Word)
  /-- PAIR_PWM_PERIOD_BOUNDARY (R186). -/
  | pairPwmPeriodBoundary (k : Fin 8)
  /-- PRODUCT_LANDS (R308). -/
  | productLands (p : Fin 2)
  /-- JUNCTION_COOLED (R133). -/
  | junctionCooled (g : ThermGrp) (tj : Int)
  /-- BOOST_RAIL_TOO_LOW (R205). -/
  | boostRailTooLow (b : Fin 4) (vout : Nat)
  /-- BOOST_SWITCH_OVERCURRENT (R222). -/
  | boostSwitchOvercurrent
  /-- INPUT_CLASS_CHANGE (R352). -/
  | inputClassChange (i : Fin 80) (mV : Nat)
  /-- OPEN_BAND_RESTORED (R350). -/
  | openBandRestored (i : Fin 80)
  /-- AREF_RESTORED (R366). -/
  | arefRestored
  /-- CAN_INTEGRATION (R390). -/
  | canIntegration (ch : Fin 8)
  /-- RING_SYMBOL_LOCK (R410). -/
  | ringSymbolLock (lock : Bool)
  /-- PLCA_BEACON_SEEN (R404). -/
  | plcaBeaconSeen (x : Fin 2)
  /-- T1S_JABBER (R422). -/
  | t1sJabber (x : Fin 2)
  deriving DecidableEq, Repr

end Sys2Proof
end

