-- ==== Sys2Proof/Config.lean ====
section
/-!
DEFINITION. What the spec fixes by a named standard or leaves open, as uninterpreted constants: no proof can see a value of them.
-/
namespace Sys2Proof.Config

/-- A value that the spec leaves open, by the number drawn from State.free (log 7). -/
opaque freeWord : Nat → BitVec 36

/-- Word w of the library program set of sequencer n, in ROM, of which the spec gives the bindings and slots alone (R340, log 7). -/
opaque libWord : Nat → Nat → BitVec 36

/-- ECDSA P-256 signature words r and s of a 32-octet message under the module's log key (FIPS 186-4), named by R569 (log 8). -/
opaque logSign : BitVec 256 → List (BitVec 32)

/-- Whether the quotient of a number by a divisor is rounded down where it lies midway between two integers, which R229 and R263 do
not say (log 7). -/
opaque tieDown : Int → Nat → Bool

/-- The service value that alternates with 0x5A, which R524 does not name (log 7). -/
opaque wdOther : BitVec 8

/-- The words of the boot and recovery ROM, which spec/ does not give (log 7). -/
opaque romWord : Nat → BitVec 36

/-- Rate in words/s and burst in words at which path k of loop m is charged, which R94 does not say (log 7): path 0 leads to its sink,
path 1 + j from its source j; number 360 stands for the STATE items of a duo, path 0 to the ring and path 1 from it. -/
opaque pathLoad : Nat → Nat → Nat × Nat

/-- The device's estimate of the boost capacitor in µF (R208): from the rail's voltages at the start and the end of a charge in 10 mV, the time between
them in ticks, the input current limit in mA and VBAT in mV.  The spec names what it is estimated from and no formula (log 7). -/
opaque capEstimate (from_ to_ ticks ma vbat : Nat) : BitVec 16

/-- The level of a data or row output of the chain and the matrix at a TIME at which nothing is shifted or scanned, which R238 and R244 do not say (log 7):
pin 0 is LCHD, 1 to 4 MCD0 to MCD3, 5 to 11 MRA0 to MRA6. -/
opaque idleLevel (pin time : Nat) : Bool

end Sys2Proof.Config
end

