-- ==== Sys2Proof/Machine/State/Basic.lean ====
section
/-!
DEFINITION. Data shared by all parts of the state: banks of like things, the event queue with its time markers
(R39 to R41) and the canonical word memory (R29).
-/
namespace Sys2Proof.Machine

/-- A fixed number of like things: channels, loops, pairs. -/
abbrev Bank (α : Type) (n : Nat) := Vector α n

/-- One place of an event queue: the words of an entry, or of a time marker, that have not been read yet (R39). -/
structure QItem where
  marker : Bool
  words  : List Word
  deriving DecidableEq, Repr

/-- An event queue: entries and time markers in order, oldest first, and the lost count of its owner (R41). -/
structure EvQ where
  items : List QItem
  lost  : Word
  deriving DecidableEq, Repr

/-- The queue as its owner's release leaves it: empty, nothing lost. -/
def EvQ.empty : EvQ := { items := [], lost := 0 }

/-- What a load in a KEEP or POLICY safe state returns to at SREL: its command state, reset policy, RSP and last edge actions as they
stand, kept up by commands that do not act (R491, R492). -/
structure SafeBase (α π : Type) where
  cmd    : α
  policy : π
  rsp    : Bool
  edge   : Option (Byte × Byte)
  edgeB  : Option (Byte × Byte)    -- of leg B of a pair
  deriving DecidableEq, Repr

/-- Word memory (R29): the words that differ from what an unlisted address reads as, by rising address. -/
abbrev Memory := List (Nat × Word)

/-- A value of the object dictionary: the words of R51 (one, or two for a U72). -/
abbrev Val := List Word

/-- An object's name, index × 256 + subindex (R7). -/
abbrev ObjKey := Nat

/-- Object values that differ from the default of their row, by rising key. -/
abbrev ObjStore := List (ObjKey × Val)

end Sys2Proof.Machine
end

