-- ==== Sys2Proof/Machine/Crypto.lean ====
section
/-!
DEFINITION. The named standards that the spec computes with: AES-128 (FIPS 197) and AES-128-CMAC (NIST SP 800-38B) of R80, R451 and R574,
and SHA-256 (FIPS 180-4) of R558 and R569, octet strings leftmost octet first.
-/
namespace Sys2Proof.Machine

/-! AES-128 -/

/-- A field element times x, modulo x^8 + x^4 + x^3 + x + 1. -/
def xtime (a : Byte) : Byte := (a <<< 1) ^^^ (if a.msb then 0x1B else 0)

/-- The S-box of FIPS 197, a row for each high nibble. -/
def sboxRows : List Nat :=
  [0x637C777BF26B6FC53001672BFED7AB76, 0xCA82C97DFA5947F0ADD4A2AF9CA472C0, 0xB7FD9326363FF7CC34A5E5F171D83115, 0x04C723C31896059A071280E2EB27B275,
   0x09832C1A1B6E5AA0523BD6B329E32F84, 0x53D100ED20FCB15B6ACBBE394A4C58CF, 0xD0EFAAFB434D338545F9027F503C9FA8, 0x51A3408F929D38F5BCB6DA2110FFF3D2,
   0xCD0C13EC5F974417C4A77E3D645D1973, 0x60814FDC222A908846EEB814DE5E0BDB, 0xE0323A0A4906245CC2D3AC629195E479, 0xE7C8376D8DD54EA96C56F4EA657AAE08,
   0xBA78252E1CA6B4C6E8DD741F4BBD8B8A, 0x703EB5664803F60E613557B986C11D9E, 0xE1F8981169D98E949B1E87E9CE5528DF, 0x8CA1890DBFE6426841992D0FB054BB16]

/-- The substitution of an octet. -/
def subByte (a : Byte) : Byte := BitVec.ofNat 8 (sboxRows.getD (a.toNat / 16) 0 / 2 ^ (8 * (15 - a.toNat % 16)))

/-- Two octet strings added bit by bit. -/
def xorOcts (a b : List Byte) : List Byte := List.zipWith (· ^^^ ·) a b

/-- The next round key, from the last and the round constant. -/
def nextKey (k : List Byte) (rcon : Byte) : List Byte :=
  let w (i : Nat) : List Byte := (k.drop (4 * i)).take 4
  let t := match (w 3).map subByte with | [a, b, c, d] => [b ^^^ rcon, c, d, a] | l => l
  let w0 := xorOcts (w 0) t
  let w1 := xorOcts (w 1) w0
  let w2 := xorOcts (w 2) w1
  w0 ++ w1 ++ w2 ++ xorOcts (w 3) w2

/-- Row r of the state goes r columns to the left; the state is held column by column. -/
def shiftRows (s : List Byte) : List Byte := (List.range 16).map fun i => s.getD ((i + 4 * (i % 4)) % 16) 0

/-- One column mixed. -/
def mixColumn (c : List Byte) : List Byte :=
  (List.range 4).map fun i =>
    let o (j : Nat) : Byte := c.getD ((i + j) % 4) 0
    xtime (o 0) ^^^ xtime (o 1) ^^^ o 1 ^^^ o 2 ^^^ o 3

def mixColumns (s : List Byte) : List Byte := (List.range 4).flatMap fun i => mixColumn ((s.drop (4 * i)).take 4)

/-- The rounds after the first key addition: `n` of them are left, with the round key before and its next constant. -/
def aesRounds : Nat → List Byte → Byte → List Byte → List Byte
  | 0, _, _, s => s
  | n + 1, k, rcon, s =>
    let k1 := nextKey k rcon
    let t := shiftRows (s.map subByte)
    aesRounds n k1 (xtime rcon) (xorOcts (if n = 0 then t else mixColumns t) k1)

/-- The 16 octets of a 128-bit block, leftmost first. -/
def blockOcts (b : BitVec 128) : List Byte := (List.range 16).map fun i => b.extractLsb' (120 - 8 * i) 8

/-- The 128-bit block that 16 octets form. -/
def octsBlock (l : List Byte) : BitVec 128 := l.foldl (fun a o => (a <<< 8) ||| o.zeroExtend 128) 0

/-- AES-128 of a block under a key. -/
def aes (key x : BitVec 128) : BitVec 128 :=
  let k := blockOcts key
  octsBlock (aesRounds 10 k 1 (xorOcts (blockOcts x) k))

/-! AES-128-CMAC -/

/-- A block doubled in the field of SP 800-38B. -/
def cmacDouble (b : BitVec 128) : BitVec 128 := (b <<< 1) ^^^ (if b.msb then 0x87 else 0)

/-- The chaining over a message of at least one octet: `n` blocks are left at most; the last is completed and masked by its subkey. -/
def cmacChain (key k1 : BitVec 128) : Nat → BitVec 128 → List Byte → BitVec 128
  | 0, c, _ => c
  | n + 1, c, m =>
    if m.length ≤ 16 then
      let last := if m.length = 16 then octsBlock m ^^^ k1
        else octsBlock (m ++ 0x80 :: List.replicate (15 - m.length) 0) ^^^ cmacDouble k1
      aes key (c ^^^ last)
    else cmacChain key k1 n (aes key (c ^^^ octsBlock (m.take 16))) (m.drop 16)

/-- AES-128-CMAC of a message under a key. -/
def cmac (key : BitVec 128) (m : List Byte) : BitVec 128 :=
  cmacChain key (cmacDouble (aes key 0)) (m.length / 16 + 1) 0 m

/-! SHA-256 -/

/-- The first 64 primes. -/
def shaPrimes : List Nat :=
  [2, 3, 5, 7, 11, 13, 17, 19, 23, 29, 31, 37, 41, 43, 47, 53, 59, 61, 67, 71, 73, 79, 83, 89, 97, 101, 103, 107, 109, 113, 127, 131] ++
  [137, 139, 149, 151, 157, 163, 167, 173, 179, 181, 191, 193, 197, 199, 211, 223, 227, 229, 233, 239, 241, 251, 257, 263, 269, 271, 277,
   281, 283, 293, 307, 311]

/-- The greatest number whose k-th power is at most n, bit by bit from 2^39 down. -/
def natRoot (k n : Nat) : Nat := (List.range 40).foldl (fun r i => let c := r + 2 ^ (39 - i); if c ^ k ≤ n then c else r) 0

/-- The round constants: the first 32 bits of the fractional parts of the cube roots of the primes. -/
def shaK : List (BitVec 32) := shaPrimes.map fun p => BitVec.ofNat 32 (natRoot 3 (p * 2 ^ 96))

/-- The initial hash value: the same of the square roots of the first eight. -/
def shaInit : List (BitVec 32) := (shaPrimes.take 8).map fun p => BitVec.ofNat 32 (natRoot 2 (p * 2 ^ 64))

/-- The padded message. -/
def shaPad (m : List Byte) : List Byte :=
  let z := (119 - m.length % 64) % 64
  m ++ 0x80 :: List.replicate z 0 ++ (List.range 8).map fun i => BitVec.ofNat 8 (8 * m.length / 2 ^ (56 - 8 * i))

/-- The message schedule, its last word first: the 16 words of a block and the 48 that follow. -/
def shaSchedule (block : List Byte) : List (BitVec 32) :=
  let w0 := (List.range 16).map fun i => ((block.drop (4 * i)).take 4).foldl (fun (a : BitVec 32) o => (a <<< 8) ||| o.zeroExtend 32) 0
  (List.range 48).foldl (fun w _ =>
    let g (i : Nat) : BitVec 32 := w.getD (i - 1) 0
    let s0 := (g 15).rotateRight 7 ^^^ (g 15).rotateRight 18 ^^^ ((g 15) >>> 3)
    let s1 := (g 2).rotateRight 17 ^^^ (g 2).rotateRight 19 ^^^ ((g 2) >>> 10)
    (s1 + g 7 + s0 + g 16) :: w) w0.reverse

/-- One round over the working variables a to h. -/
def shaRound (v : List (BitVec 32)) (kw : BitVec 32 × BitVec 32) : List (BitVec 32) :=
  match v with
  | [a, b, c, d, e, f, g, h] =>
    let s1 := e.rotateRight 6 ^^^ e.rotateRight 11 ^^^ e.rotateRight 25
    let t1 := h + s1 + ((e &&& f) ^^^ (~~~e &&& g)) + kw.1 + kw.2
    let s0 := a.rotateRight 2 ^^^ a.rotateRight 13 ^^^ a.rotateRight 22
    [t1 + s0 + ((a &&& b) ^^^ (a &&& c) ^^^ (b &&& c)), a, b, c, d + t1, e, f, g]
  | l => l

/-- A block enters the hash value. -/
def shaBlock (h : List (BitVec 32)) (block : List Byte) : List (BitVec 32) :=
  List.zipWith (· + ·) h ((List.zip shaK (shaSchedule block).reverse).foldl shaRound h)

/-- The blocks of a padded message in turn, `n` at most. -/
def shaBlocks : Nat → List (BitVec 32) → List Byte → List (BitVec 32)
  | 0, h, _ => h
  | n + 1, h, m => shaBlocks n (shaBlock h (m.take 64)) (m.drop 64)

/-- SHA-256 of an octet string. -/
def sha256 (m : List Byte) : BitVec 256 :=
  let p := shaPad m
  (shaBlocks (p.length / 64) shaInit p).foldl (fun a w => (a <<< 32) ||| w.zeroExtend 256) 0

end Sys2Proof.Machine
end

