-- ==== Sys2Proof/Machine/State/Access.lean ====
section
/-!
DEFINITION. Immobiliser and keyless access, blocks 0x42 and 0x43 (R448 to R464).
-/
namespace Sys2Proof.Machine

/-- Where a poll stands (R450): powering, or listening in a slot. -/
inductive PollPhase where
  | powering | slot (s : Fin 8)
  deriving DecidableEq, Repr

/-- A poll in progress (R450 to R453). -/
structure Poll where
  phase   : PollPhase
  start   : Nat                    -- TIME of the start of the phase
  round   : Nat
  chal    : BitVec 128             -- C of this round
  frame   : List Byte              -- the challenge frame of this round as sent; empty while powering
  hit     : Bool                   -- this round has a valid slot
  clash   : Bool                   -- this round has a collision
  valid   : Byte
  invalid : Byte
  coll    : Byte
  tids    : Bank (BitVec 32) 8     -- TID of the valid or invalid answer in each slot
  tokens  : Byte                   -- bit t: token t answered validly
  deriving DecidableEq, Repr

/-- A handle electrode (R459). -/
structure CapSense where
  base    : Option Int             -- tracked baseline, × 64; none until the first measurement
  highs   : Nat                    -- consecutive high measurements
  since   : Nat                    -- high since
  ignored : Bool
  touched : Bool
  last    : Nat                    -- TIME of the last measurement
  deriving DecidableEq, Repr

/-- Blocks 0x42 and 0x43. -/
structure AccessState where
  poll      : Option Poll
  latched   : Bool
  open_     : Bool
  detune    : Bool
  result    : Word
  line0     : Bool                 -- RESULT not read since the last poll
  laststamp : Word
  polls     : Word
  grants    : Word
  denials   : Word
  locks     : Word
  fails     : Byte                 -- AON part
  flashFails : Byte                -- FAILS as data flash holds it (R457)
  lockEnd   : Option Nat
  sstop     : Bool
  lastGrant : Nat                  -- TIME
  caps      : Bank CapSense 4
  acks      : Nat                  -- consecutive search acknowledgements
  searchAt  : Nat                  -- TIME of the last search
  wakePoll  : Bool                 -- a handle or search wake requests a poll at the release of IOP
  deriving DecidableEq, Repr

end Sys2Proof.Machine
end

