-- ==== Sys2Proof/Machine/State/Admission.lean ====
section
/-!
DEFINITION. The admission engine, the energisation ledger in SUP, speedwell (R85 to R115, R596), the supply monitor and the
thermal governor (R465 to R485).
-/
namespace Sys2Proof.Machine

/-- What the engine holds of contract n besides its object values (obj 0x1100 + n). -/
structure Contract where
  inForce  : Bool                  -- an admission is in force
  state    : Byte
  cbound   : Word
  reason   : BitVec 16
  rport    : Byte
  tags     : Byte
  misses   : Word
  lastMiss : Word
  missAt   : Option Nat            -- TIME of the latest contract-miss event (R106)
  hurt     : BitVec 16
  tok      : Nat                   -- RATE and BURST account of its source: words × 10^8, as it stood at tokAt (R383)
  tokAt    : Nat
  deriving DecidableEq, Repr

/-- What a load is charged (R99, R475): its load code, supply current in mA, dissipation in nW before derating, and whether a
factor acts on it (R477). -/
structure Charge where
  code  : Nat
  na    : Nat                      -- supply current, nA
  nw    : Nat                      -- dissipation, nW
  derat : Bool
  deriving DecidableEq, Repr

/-- A deferred energisation (R101): its charge, the value to be carried out, and the strobes it has waited. -/
structure Deferral where
  charge  : Charge
  value   : Nat
  strobes : Nat
  blk     : Nat                    -- where the shortage arose
  deriving DecidableEq, Repr

/-- An admission event raised while FAB was not released (R596). -/
structure HeldEvent where
  word0 : Word
  time  : Time
  deriving DecidableEq, Repr

/-- The admission engine (block 0x06), the SUP ledger and speedwell (block 0x05). -/
structure Admission where
  ct        : Bank Contract 256
  charges   : List Charge          -- loads charged now, one entry a load code
  resv      : List Charge          -- reservations of the applied rule table (R102)
  pendResv  : Option (List Charge) -- reservations of a rule table whose commit is pending (R87)
  extraResv : List Charge          -- reservations under R450 and R543
  defer     : List Deferral        -- oldest first, at most 16
  q         : EvQ                  -- EVQ and EVLOST
  heldEv    : List HeldEvent       -- at most 32
  heldLost  : Word
  rbaseW    : Bool                 -- RBASE written in the staging of bundle 0x2700 (R115)
  fresh     : Bool                 -- no pass yet over the applied table
  prev      : BitVec 256           -- previous condition of each rule
  edge      : Bank (Option (Byte × Byte)) 116   -- last edge action in force at a target (action, argument)
  level     : Bank (Option (Byte × Byte)) 116   -- level action in force at a target
  levelN    : Bank Nat 116         -- the number of the rule that sets it
  inh       : BitVec 116           -- INHIBIT in force
  swRep     : BitVec 80            -- operand states of SW and IO inputs held for the evaluator (R110)
  flags     : BitVec 16            -- F0 to F15 but for a level rule (R113)
  bk        : BitVec 4             -- the blink halves at the last pass
  fired     : Word
  unres     : Bool
  reason    : BitVec 16
  rnum      : Byte
  deriving DecidableEq, Repr

/-- The supply monitor (block 0x03) and the thermal governor (block 0x04). -/
structure Supply where
  vbat      : Nat                  -- mV
  shed      : BitVec 8             -- class k shed
  lastRest  : Nat                  -- TIME of the last class restore
  crank     : Bool
  exitAt    : Option Nat           -- TIME of the last exit from CRANK HOLD (R471)
  ov        : Bool
  gloss     : Bool
  restoreQ  : List Nat             -- load codes still to be restored, ascending
  restoreAt : Nat                  -- TIME from which the next batch may go
  tcase     : Int                  -- 1/16 °C
  caseFail  : Bool
  mfact     : Bank Byte 8
  gfact     : Bank (Bank Byte 8) 11    -- G0 to G8, HG0, HG1
  tj        : Bank Int 13          -- junctions, 1/16 °C
  tjmax     : Bank Int 9
  derates   : Bank Word 9
  episode   : BitVec 14            -- cap not met: groups 0 to 12, module 13
  sheds     : Word
  cranks    : Word
  deriving DecidableEq, Repr

end Sys2Proof.Machine
end

