-- ==== Sys2Proof/Machine/State/HighSide.lean ====
section
/-!
DEFINITION. The high-side channels and their groups (R116 to R151).
-/
namespace Sys2Proof.Machine

/-- The command states of R119. -/
inductive HsCmd where
  | off | on | pwm | duty (d : BitVec 16) | spwDuty (a : Byte)
  deriving DecidableEq, Repr

/-- What a reset policy set (R142): HOLD keeps a command state until `ends`. -/
inductive HsPolicy where
  | none | off | hold (was : HsCmd) (ends : Nat) | limp
  deriving DecidableEq, Repr

/-- An open inrush window (R126 to R128, R134).  Timers are the TIME of their end; while frozen they stand still from `frozen`. -/
structure Inrush where
  retry   : Nat
  ends    : Nat
  frozen  : Option Nat             -- frozen since
  missed  : Bool                   -- an uncounted trip ended the on-phase
  deriving DecidableEq, Repr

/-- The off-state test of a load (R135, R179, R216); phase B carries the result of phase A. -/
inductive TestState where
  | idle | due | phaseA (ends : Nat) | phaseB (ends : Nat) (a : Bool)
  deriving DecidableEq, Repr

/-- A high-side channel. -/
structure HsChannel where
  cmd     : HsCmd                  -- last firmware command
  act     : HsCmd                  -- the command state being carried out
  next    : Option HsCmd           -- takes effect at the next grid boundary (R124)
  out     : Bool                   -- the output is on
  onEnds  : Option Nat             -- end of the on-phase
  lastBnd : Option Nat             -- the grid boundary handled last
  period  : Nat                    -- grid in force, in 10 µs units
  phase   : Nat
  trans   : Option Nat             -- end of the transition period (R121)
  offAt   : Option Nat             -- TIME of the last turn-off; none: off since SUP release
  win     : Option Inrush
  offEnds : Option Nat             -- end of the ladder's off-time, which may outlast its window (R127)
  lcause  : BitVec 3
  ol      : Bool
  scb     : Bool
  lowi    : Bool
  lowAt   : Option Nat             -- samples have lain below ULOW since
  test    : TestState
  testAt  : Nat                    -- TIME of the last off-state test
  code    : BitVec 12              -- current code sampled last
  samples : Nat
  chkBad  : Bool                   -- sense path self-check failed
  policy  : HsPolicy
  rsp     : Bool
  base    : Option (SafeBase HsCmd HsPolicy)   -- in a KEEP or POLICY safe state
  supp    : Bool                   -- suppressed by a sequencer's OFF (R335)
  trips   : Word
  lastry  : Byte
  oncount : Word
  deriving DecidableEq, Repr

/-- A thermal group's protection state (R133, R134, R149); also HG0, HG1, the valve stage and the boost converter. -/
structure ThermState where
  quiet : Option Nat               -- end of the quiet window
  twarn : Bool
  tsd   : Bool
  hot   : Bool                     -- at or above the shutdown threshold
  sensf : Bool
  deriving DecidableEq, Repr

end Sys2Proof.Machine
end

