-- ==== Sys2Proof/Machine/State/Bridges.lean ====
section
/-!
DEFINITION. Half-bridges, pairs and their motion generators (R152 to R190).
-/
namespace Sys2Proof.Machine

/-- A leg's own command in MODE 0 (obj 0x2100 + n.01). -/
inductive LegCmd where
  | off | highOn | lowOn | pwm
  deriving DecidableEq, Repr

/-- A half-bridge. -/
structure Leg where
  cmd     : LegCmd                 -- last firmware command
  act     : LegCmd                 -- carried out; MODE 0 only
  brake   : Bool                   -- a speedwell BRAKE acts on it in MODE 0
  supp    : Bool                   -- suppressed by a sequencer's OFF (R335)
  lcause  : BitVec 3
  code    : BitVec 12              -- current sampled last, in 16 mA
  samples : Nat
  chkBad  : Bool
  rsp     : Bool
  base    : Option (SafeBase LegCmd Unit)      -- in a KEEP or POLICY safe state
  trips   : Word
  deriving DecidableEq, Repr

/-- The motion a pair is commanded to (R159); direction false is DIR 0. -/
inductive PairCmd where
  | free
  | stop
  | brake                          -- both low sides on at once (R162)
  | run (dir : Bool) (d : BitVec 16)
  | move (target : Int)
  | pulse (dir : Bool) (ms : Nat)
  | park (dir : Bool)
  deriving DecidableEq, Repr

/-- What the motion generator is doing (R163 to R165). -/
inductive Stage where
  | free                           -- all four switches off
  | drive                          -- u is moved toward u*
  | braking                        -- both low sides on, zero speed not yet seen
  | dwell (ends : Nat)
  | held                           -- both low sides on at zero speed
  deriving DecidableEq, Repr

/-- What a reset policy set (R182); HOLD keeps the set point that it found, or the brake. -/
inductive PairPolicy where
  | none | free | brake | hold (u : Int) (braked : Bool) (ends : Nat) | park (ends : Nat)
  deriving DecidableEq, Repr

/-- An anti-pinch reversal (R172): its direction, its duty, and the counts left once it moves. -/
structure PinchRev where
  dir   : Bool
  duty  : Nat
  left  : Nat
  deriving DecidableEq, Repr

/-- Current samples of a closing run in one zone (R173); `whole` when the zone was entered at its border after BLANK. -/
structure ZoneStat where
  z     : Nat
  sum   : Nat
  n     : Nat
  whole : Bool
  deriving DecidableEq, Repr

/-- An H-bridge pair.  `u` and `ustar` are signed duties in thousandths of 1/65 535, positive for DIR 0. -/
structure Pair where
  word    : Word                   -- CMD as accepted last
  cmd     : PairCmd                -- last firmware command
  act     : PairCmd                -- the command being carried out
  done    : Bool                   -- the last firmware command has come to its end, and is not taken up again
  stage   : Stage
  u       : Int
  ustar   : Int
  dir     : Bool
  stepAt  : Nat                    -- TIME of the last limiter step
  startAt : Nat                    -- TIME at which the motion started
  brakeAt : Nat
  dwellAt : Nat                    -- TIME to which a dwell runs that FREE or a latch cut into (R164)
  countAt : Option Nat             -- TIME of the last position count
  countIv : Nat                    -- interval of the last two counts
  pulse   : Option Nat             -- end of a PULSE
  park    : Option Nat             -- end of PARKT
  rev     : Option PinchRev
  iwin    : List (Nat × Nat)       -- current samples of the last 1 ms: TIME, mA
  fAt     : Option Nat             -- F̂ has exceeded FPINCH since
  zones   : List ZoneStat
  dirty   : Bool                   -- a pinch, stall or CLIM occurred in the run
  posok   : Bool
  endn    : Bool
  endp    : Bool
  stall   : Bool
  pinch   : Bool
  estim   : Option Nat             -- ripple corrected; until
  clim    : Bool
  ol      : Bool
  scb     : Bool
  scg     : Bool
  parked  : Bool
  zto     : Bool
  shedStop : Bool
  low     : Bool                   -- the LOW ceiling of a shed is in force
  test    : TestState
  testAt  : Nat
  code    : BitVec 12
  samples : Nat
  chkBad  : Bool
  policy  : PairPolicy
  rsp     : Bool
  base    : Option (SafeBase (PairCmd × Word) PairPolicy)   -- in a KEEP or POLICY safe state
  stalls  : Word
  pinches : Word
  runs    : Word
  deriving DecidableEq, Repr

end Sys2Proof.Machine
end

