-- ==== Sys2Proof/Machine/State/Duo.lean ====
section
/-!
DEFINITION. The duo and cascade logic, block 0x00 (R529 to R551).
-/
namespace Sys2Proof.Machine

/-- ROLE (obj 0x1600.08). -/
inductive DuoRole where
  | off | unresolved | active | syncing | ready
  deriving DecidableEq, Repr

/-- The duo logic. -/
structure Duo where
  casc     : Fin 8                 -- cascade ID (R530)
  dup      : Bool                  -- a duplicate ID was found (R531)
  role     : DuoRole
  line     : Bool                  -- line 0: ROLE not read since its last change
  gen      : Byte
  copy     : List Word             -- the last valid copy; empty: none since UNRESOLVED was left
  copyAt   : Nat                   -- base cycle of the last valid partner STATE
  part     : Bool                  -- a valid partner STATE in the base cycle that ended at the last strobe
  here     : Bool                  -- a valid partner STATE in this base cycle
  due      : Option Nat            -- TIME of the strobe whose copy deadline is ahead
  misscyc  : Nat                   -- base cycles without a partner STATE since UNRESOLVED was entered
  good     : Nat                   -- consecutive valid copies
  missc    : Nat                   -- consecutive copies missed
  match_   : Bool
  shGood   : Nat                   -- consecutive shadow comparisons within SHTOL
  shBad    : Nat                   -- consecutive ones beyond it
  shok     : Bool
  memok    : Bool
  diagok   : Bool
  pri      : Bool                  -- PRI of the partner's latest STATE
  pgen     : Byte                  -- its GEN
  pact     : Bool                  -- its ACT
  heardP   : Bool                  -- any partner STATE since the role left OFF
  frame    : List Word             -- the partner's latest STATE payload
  alarm    : Option Nat            -- TIME at which the last duo alarm left on RGO
  phealth  : Word
  step     : Bool                  -- steps down at the next strobe
  lastto   : Word
  takeover : Word
  missed   : Word
  shmis    : Word
  deriving DecidableEq, Repr

end Sys2Proof.Machine
end

