-- ==== Sys2Proof/Machine/State/Fabric.lean ====
section
/-!
DEFINITION. The data fabric (R11 to R21) and device time (R35 to R48).
-/
namespace Sys2Proof.Machine

/-- A response on its way or delivered: an error response, or the words of a read (R13, R29). -/
structure Resp where
  error   : Bool
  wrapped : Option Nat             -- the block whose isolation wrapper gave it (R498, R520)
  data    : List Word
  deriving DecidableEq, Repr

/-- One of the 64 transaction tags (R13, R14, R17). -/
structure TagState where
  gen    : BitVec 2                -- reuse generation, advanced at each issue
  tx     : Option FabTx            -- the transaction that holds the tag
  issued : Nat                     -- TIME of the request
  resp   : Option Resp             -- the target's answer, not yet back at the requester
  late   : Nat                     -- responses of earlier generations still to come (R17)
  born   : Nat                     -- TIME at which its target served it: the source event of a flow that reads memory (R91)
  deriving DecidableEq, Repr

/-- A complete transaction in a sub-queue of an egress port (R18, R19), with the tag it holds. -/
structure SubEntry where
  egress : Fin 10
  tx     : FabTx
  tag    : Option (Fin 64)
  born   : Nat                     -- TIME of the source event of the words that a flow posts (R91)
  deriving DecidableEq, Repr

/-- Credits on their way back to the producer of a hop (R18). -/
structure CreditBack where
  hop : Fin 430
  n   : Nat
  deriving DecidableEq, Repr

/-- A transaction that waits at its initiator, or in its cluster's queue once it has passed the cluster hop (R16, R18). -/
structure Waiting where
  tx        : FabTx
  inCluster : Bool
  born      : Nat                  -- TIME of the source event of the words that a flow posts (R91)
  deriving DecidableEq, Repr

/-- A word that waits at the source of an admitted contract, with TIME at its source event (R91, R106). -/
structure SrcWord where
  ct   : Nat
  born : Nat
  word : Word
  deriving DecidableEq, Repr

/-- The data fabric, block 0x07. -/
structure Fabric where
  tags    : Bank TagState 64
  subq    : List SubEntry          -- every sub-queue, each in order of arrival
  credits : Bank Nat 430           -- egress × 40 + ingress × 4 + class; 400 + port: from the port's cluster into the crossbar;
                                   -- 410 + port: from the egress to the port's cluster; 420 + port: responses to the port
  back    : List CreditBack        -- oldest first
  waiting : List Waiting           -- oldest first
  rr      : Bank (Fin 10) 40       -- egress × 4 + class: ingress served last (R19)
  srcq    : List SrcWord           -- words that wait at the source of an admitted contract, oldest first
  stale   : Word                   -- STALE (R17)
  resps   : Bank (Option Resp) 10  -- the response delivered last at each initiator port
  deriving DecidableEq, Repr

/-- TIME and its discipline, block 0x01 (R35 to R37, R43 to R48). -/
structure TimeState where
  time    : Time
  strobed : Bool                   -- the strobe of the boundary at or below TIME has been sent
  hi      : Bank Word 10           -- TIME_HI latch of each port (R36)
  src     : BitVec 2               -- TIME_ST.SRC
  stepd   : Bool
  parked  : Bool
  slew    : Bool
  disc    : Bool
  offset  : Int                    -- ticks still to be added by rate adjustment (R45)
  step    : Int                    -- ms to be stepped at the next boundary (R46)
  since   : Nat                    -- ticks since a tick was last added or dropped
  aonAcc  : Nat                    -- accumulator of R47, in 1/128 tick
  bkAcc   : Nat                    -- accumulator of R48, in 1/4 tick
  deriving DecidableEq, Repr

end Sys2Proof.Machine
end

