-- ==== Sys2Proof/Machine/State/Fault.lean ====
section
/-!
DEFINITION. The fault collector, block 0x05: reports, latch, sticky bits, shadows, safe states, ERRN, freeze and dump
(R486 to R507).
-/
namespace Sys2Proof.Machine

/-- A report on its way to the collector (R486): its source and detection stamp; `wrapped` is the block whose isolation wrapper
answered the transaction it arises from (R498). -/
structure Report where
  src     : Nat
  stamp   : Word
  wrapped : Option Nat
  deriving DecidableEq, Repr

/-- A reaction shadow over a block (R497); `ends` is known once the block is released. -/
structure Shadow where
  blk  : Nat
  ref  : BitVec 12
  ends : Option Nat
  deriving DecidableEq, Repr

/-- A freeze being copied (R502), and the blocks' reset it is followed by (R493): an S4 source resets, an S3 source does not. -/
structure Freezing where
  src   : BitVec 12
  sev   : BitVec 3
  stamp : Word
  ends  : Nat
  reset : Bool
  deriving DecidableEq, Repr

/-- The collector (block 0x05). -/
structure FaultState where
  inflight : List Report           -- in order of detection
  sticky   : Bank (BitVec 32) 128
  valid    : Bool                  -- LATCH.VALID
  ovf      : Bool
  sev      : BitVec 3
  src      : BitVec 12
  lstamp   : Word
  degraded : BitVec 128
  sevBad   : List (BitVec 12)      -- sources whose SEVMAP entry has failed its parity check (R488)
  q        : EvQ                   -- FEVQ and FEVLOST
  errnLvl  : Bool                  -- ERRNLVL
  pulse    : Option Nat            -- end of the running ERRN pulse
  held     : Bool                  -- the held value of ERRNLVL during a pulse (R499)
  shadows  : List Shadow           -- in order of opening
  safe     : BitVec 192            -- SAFEST by load code
  frzValid : Bool
  frzSev   : BitVec 3
  frzSrc   : BitVec 12
  frzStamp : Word
  image    : List Word             -- the freeze buffer, 512 words
  freezing : Option Freezing
  frzLost  : Word
  dstat    : Byte
  dumpTime : Time                  -- TIME at DUMPGO
  faults   : Word
  conseq   : Word
  safes    : Word
  resets   : Word
  dumps    : Word
  deriving DecidableEq, Repr

end Sys2Proof.Machine
end

