-- ==== Sys2Proof/Machine/State/Inputs.lean ====
section
/-!
DEFINITION. Switch inputs, configurable pins, analog inputs and the ADC schedule (R348 to R373).
-/
namespace Sys2Proof.Machine

/-- Class of an input, and reported state (R349). -/
inductive InClass where
  | open_ | inactive | active | short
  deriving DecidableEq, Repr

/-- An input: SW00 to SW63 are 0 to 63, IO00 to IO15 are 64 to 79. -/
structure Input where
  cls     : InClass
  rep     : InClass                -- reported state
  since   : Nat                    -- TIME of the last change of class: the debounce timer runs from here
  chat    : Option Nat             -- it has chattered since
  fb      : Bool                   -- integrating filter in use
  k       : Nat                    -- K as it stood at kAt
  kAt     : Nat
  lowv    : Bool
  wakec   : Bool                   -- caused the last wake
  entry   : InClass                -- state at park entry
  poll    : Option InClass         -- last polled class
  agree   : Nat                    -- consecutive polls that agreed
  changes : Word
  fallbks : Word
  deriving DecidableEq, Repr

/-- The output side of a configurable pin; hot: at or above 150 °C at the last strobe (R363). -/
structure IoPin where
  cmd    : Bool
  on     : Bool
  lcause : BitVec 2
  trips  : Word
  hot    : Bool
  deriving DecidableEq, Repr

/-- An analog input. -/
structure Analog where
  raw     : BitVec 12
  window  : List (BitVec 12)       -- the last conversions, newest first, at most 64
  sat     : Bool
  samples : Word
  deriving DecidableEq, Repr

/-- A request for conversions (R97, R367). -/
inductive AdcReq where
  | load (i : SenseItem)
  | an (n : Fin 16)
  deriving DecidableEq, Repr

/-- A placed request (R367): it converts in slot s of every micro-frame m with m ≡ φ (mod P). -/
structure AdcPlace where
  req    : AdcReq
  adc    : Nat
  slot   : Nat
  phase  : Nat
  period : Nat
  deriving DecidableEq, Repr

/-- The ADC schedule and the analog front end, block 0x3F. -/
structure AdcState where
  places : List AdcPlace           -- in order of placement
  pend   : List AdcPlace           -- reserved by commits that are pending (R87)
  bad    : BitVec 8                -- ADC i failed its last self-check
  lowref : Bool
  last   : Bank Nat 320            -- TIME + 1 of the last conversion in slot s of ADC a, at 40 a + s
  deriving DecidableEq, Repr

end Sys2Proof.Machine
end

