-- ==== Sys2Proof/Machine/State/Light.lean ====
section
/-!
DEFINITION. LED sinks, the driver chain and the matrix (R224 to R252).
-/
namespace Sys2Proof.Machine

/-- An LED sink.  A fade runs from x0 to `goal` over N period boundaries, of which k have passed (R229). -/
structure Sink where
  last    : Nat                    -- the last x* it accepted
  x       : Nat                    -- level in force
  x0      : Nat
  goal    : Nat
  k       : Nat
  steps   : Nat                    -- N; 0 while no fade runs
  rem     : Nat                    -- remainder r of R228
  lastBnd : Option Nat             -- the period boundary handled last
  onTicks : Nat                    -- on-time of the period in progress
  lcause  : BitVec 2
  hot     : Bool                   -- its own temperature is at or above 150 °C, as last found
  ol      : Bool
  shedAt  : Option Nat             -- its class has been shed since
  shoff   : Bool
  code    : BitVec 12
  samples : Nat
  chkBad  : Bool
  deriving DecidableEq, Repr

/-- The driver chain. -/
structure Chain where
  store   : Option (List (BitVec 16))  -- the shift store, once an image has been copied
  sent    : List (BitVec 16)       -- the words shifted out last, channel 0 first
  cgo     : Bool
  cerr    : Bool
  shedAt  : Option Nat
  shoff   : Bool
  shiftEnds : Nat                  -- the refresh in progress ends
  lastAt  : Option Nat             -- TIME of the last refresh start
  refresh : Word
  deriving DecidableEq, Repr

/-- The matrix scanner. -/
structure Matrix where
  shown   : Bool
  pend    : Option Bool            -- the buffer that a pending MSHOW names
  start   : Option Nat             -- TIME of the last frame start
  ends    : Nat                    -- the scan in progress ends
  blank   : List Nat               -- rows blanked in this frame
  edge    : Option Nat             -- TIME of the last FSYNC edge
  watch   : Nat                    -- FSTO counts from here
  fslost  : Bool
  perr    : Bool
  mdim    : Nat                    -- MDIM in force
  shedAt  : Option Nat
  shoff   : Bool
  frames  : Word
  slips   : Word
  deriving DecidableEq, Repr

end Sys2Proof.Machine
end

