-- ==== Sys2Proof/Machine/State/Loops.lean ====
section
/-!
DEFINITION. The loop engine: sixteen tiles, 360 loops (R253 to R293).
-/
namespace Sys2Proof.Machine

/-- The working state of a loop, words 0 to 11 of its slot (R289).  STATE and ACC values count 2^−54, SIG values 2^−30. -/
structure LoopCore where
  i      : Int                     -- I, or S1
  s2     : Int
  d      : Int
  v      : Int                     -- V of law 5
  y1     : Int                     -- y of the previous step
  v1     : Int                     -- v of the previous step
  r1     : Int                     -- r_prev
  qh     : Int                     -- the model's prediction
  region : Fin 8
  missc  : Nat                     -- consecutive missed samples
  overs  : Nat                     -- steps with |ρ| > RTH, saturating
  sigma  : Int
  deriving DecidableEq, Repr

/-- The core of a loop that starts from zero. -/
def LoopCore.zero : LoopCore :=
  { i := 0, s2 := 0, d := 0, v := 0, y1 := 0, v1 := 0, r1 := 0, qh := 0, region := 0, missc := 0, overs := 0, sigma := 0 }

/-- What a step's inputs hold when they are latched (R266 step 1): none, an input that is invalid (R262). -/
structure LoopInputs where
  y   : Option Int
  sp  : Option Int
  w   : Option Int
  sch : Option Int
  deriving DecidableEq, Repr

/-- A released step (R254): its instant, its deadline, and its inputs once it no longer waits for a stream (R257). -/
structure LoopRel where
  at_      : Nat
  deadline : Nat
  inputs   : Option LoopInputs
  deriving DecidableEq, Repr

/-- A checkpoint of the working state with the base cycle of its capture (R282). -/
structure Checkpoint where
  core  : LoopCore
  cycle : Nat
  valid : Bool                     -- the check word holds
  deriving DecidableEq, Repr

/-- A loop. -/
structure Loop where
  place   : Option (Fin 16 × Fin 24)   -- tile and slot of an admitted loop
  refused : Bool                   -- enabled, and not admitted (R284, R88)
  mode    : Fin 3                  -- MODE in force
  modeReq : Bool                   -- MODE was written and takes effect at the next release
  safe    : Option (Fin 3)         -- in the safe policy, with SCAUSE
  core    : LoopCore
  delay   : List Int               -- past outputs, newest first, 15 of them
  y       : Int                    -- Y
  sent    : Int                    -- the output last sent
  fbv     : Int
  resid   : Int
  entry   : Bool                   -- the first step after entry into MANUAL or AUTO is due (R267)
  restart : Bool                   -- that entry was from OFF or SAFE (R275)
  starts  : Bool                   -- it starts: the region is taken without hysteresis (R271)
  vref    : Option Int             -- a preset is due at the first AUTO step (R274)
  fresh   : Bool                   -- a newly applied bundle's first step is due (R274)
  limited : Bool
  sat     : Bool
  plaus   : Bool
  rsm     : Bool
  cold    : Bool
  inval   : Bool
  ovrs    : Word
  invs    : Word
  steps   : Word
  used    : Bank Nat 4             -- serial number of the frame the previous step used: FB, SP, AUX, SCH
  lastRel : Option Nat             -- the sample instant handled last
  lastOk  : Option Nat             -- the sample instant of the last completed step
  rel     : Option LoopRel
  out     : Option (Int × Nat)     -- an output that leaves at its deadline (R256, OUTMODE 1)
  ckpt    : Option Checkpoint
  held    : Bool                   -- its tile failed and it waits for its remap
  from_   : Nat                    -- no sample instant before this counts
  remap   : Bool                   -- its next step is the first after a remap (R283)
  deriving DecidableEq, Repr

/-- ROLE of a tile (R253, R290). -/
inductive TileRole where
  | scheduled | spare | failed
  deriving DecidableEq, Repr

/-- A tile. -/
structure Tile where
  role     : TileRole
  retry    : Nat                   -- mismatches in this base cycle
  retryPub : Nat                   -- RETRY: those of the last base cycle
  again    : Option (Fin 360)      -- the step that is to be repeated (R280)
  cycle    : Word                  -- CKPT
  deriving DecidableEq, Repr

/-- A remap of a failed tile in progress (R283). -/
structure Remap where
  tile   : Fin 16
  spare  : Fin 16
  failed : Nat                     -- TIME of the failure
  strobe : Option Nat              -- the strobe S
  deriving DecidableEq, Repr

/-- The newest frame of a stream endpoint, with a serial number (R257). -/
structure StreamFrame where
  serial : Nat
  octets : List Byte
  deriving DecidableEq, Repr

/-- Tile time reserved for a loop by a passed check: tile, TS, and whether it waits for a stream. -/
structure LoopResv where
  loop  : Fin 360
  tile  : Fin 16
  ts    : Nat
  waits : Bool
  deriving DecidableEq, Repr

/-- The loop engine. -/
structure Engine where
  tiles   : Bank Tile 16
  loops   : Bank Loop 360
  remap   : Option Remap
  again   : List (Fin 360)         -- loops of a failed tile to be placed again at the next strobe (R284)
  streams : List (Nat × StreamFrame)   -- by endpoint code
  resv    : List LoopResv          -- tile time reserved by passed checks (R87)
  deriving DecidableEq, Repr

end Sys2Proof.Machine
end

