-- ==== Sys2Proof/Machine/State/Lyssouf.lean ====
section
/-!
DEFINITION. The sixteen Lyssouf-18 sequencers (R325 to R347).  Their memory is word memory (R325).
-/
namespace Sys2Proof.Machine

/-- What a sequencer is loaded with (R341). -/
inductive SeqSrc where
  | idle | library | user
  deriving DecidableEq, Repr

/-- The state of a binding (R333, R336).  TMR is a time of expiry, or a count that stands still while QW = 1. -/
structure SeqBind where
  evt   : BitVec 7
  tmr   : Option Nat
  left  : Option Nat
  aon   : Bool
  cmph  : BitVec 12
  cmpl  : BitVec 12
  deriving DecidableEq, Repr

/-- A running activation (R331, R332). -/
structure SeqAct where
  slot   : Fin 8
  s0     : Half                    -- S0 at start
  cycles : Nat
  branch : Option (BitVec 12)      -- target, while the delay slot runs (R339)
  deriving DecidableEq, Repr

/-- A sequencer, block 0x10 + n. -/
structure Seq where
  src      : SeqSrc
  admitted : Bool                  -- its program set is admitted (R343)
  started  : Bool                  -- loaded and checked: its slots run (R341, R342)
  cmdDeny  : BitVec 8              -- bindings refused CMDEN (R343)
  stopped  : BitVec 8              -- slots stopped under R332
  merr     : Bool
  regs     : Bank Half 8
  z        : Bool
  n        : Bool
  c        : Bool
  v        : Bool
  pc       : BitVec 12
  act      : Option SeqAct
  elig     : List (Fin 8 × BitVec 7)       -- eligible slots with their EVT bits, oldest first
  waitT    : List (Fin 8)          -- event slots that wait for their minimum interval (R329)
  lastGo   : Bank (Option Nat) 8   -- TIME of the last start of each slot
  perAt    : Bank (Option Nat) 8   -- TIME of the last eligibility of each periodic slot
  aborts   : Bank Nat 8            -- consecutive aborted activations
  binds    : Bank SeqBind 8
  acts     : Word
  lastpc   : BitVec 12
  util     : Nat                   -- 0.1 %
  signal   : Byte
  held     : List SubEntry         -- accesses held under R327, oldest first
  deriving DecidableEq, Repr

end Sys2Proof.Machine
end

