-- ==== Sys2Proof/Machine/State/Media.lean ====
section
/-!
DEFINITION. The CAN FD and LIN channels (R374 to R397).  Their buffers are word memory (R374).
-/
namespace Sys2Proof.Machine

/-- A CAN channel. -/
structure CanCh where
  new     : BitVec 66              -- NEW
  req     : BitVec 66              -- TXREQ
  lost    : BitVec 66              -- the next frame stored in the buffer carries LOST
  att     : Bank Nat 66            -- attempts made for the request
  bus     : Option (Fin 66)        -- the buffer whose attempt is on the bus
  abort   : Bool                   -- that request is to be aborted
  noackA  : Bool                   -- the attempt met no acknowledgement
  frame   : Option CanFrame        -- the frame of the last attempt, as read at its start
  fill    : List (Fin 66 × List Word)  -- words of a flow that a transmit buffer has received so far
  lec     : BitVec 3
  tecnt   : Nat
  recnt   : Nat
  busoff  : Bool
  ready   : Bool                   -- integrated (R390)
  recov   : Bool
  rseq    : Nat                    -- number of the free value that RSEQ reads while RECOV = 1 (log 7)
  noack   : Bool
  occ     : Bool                   -- an occurrence of a bus error is open (R386)
  cand    : Nat                    -- candidate listened to (R388)
  candAt  : Nat                    -- listening since
  good    : Nat                    -- consecutive frames without error
  abdres  : Byte
  decode  : Option Nat             -- the wake-up frame decoder is powered; TIME of the last bus activity (R389)
  wufErr  : Nat
  zopq    : List (List Byte)       -- ZOP messages that wait to leave at ZOPTX, oldest first (R384)
  zopAt   : Option Nat             -- TIME at which the last of them left
  zbus    : Bool                   -- its frame is on the bus
  rxok    : Word
  txok    : Word
  errs    : Word
  busoffs : Word
  unmatch : Word
  drops   : Word
  deriving DecidableEq, Repr

/-- A LIN header whose response is under way. -/
structure LinSlot where
  fid   : Fin 64
  etrig : Bool                     -- of an event-triggered entry
  start : Nat                      -- TIME of the start of the break
  deriving DecidableEq, Repr

/-- A LIN channel. -/
structure LinCh where
  new     : BitVec 64
  req     : BitVec 64
  table   : Option (Fin 4)         -- the running table; none: scheduling is stopped
  next    : Option Byte            -- a written RUNTBL that waits for the end of the slot
  entry   : Option (Fin 64)        -- the entry whose slot is in progress
  due     : Option (Fin 4)         -- a collision table that starts when the slot ends
  cres    : Option (Fin 4)         -- the collision table that runs
  back    : Nat                    -- where the running table resumes after it
  slotEnd : Option Nat
  wait    : Option LinSlot
  fill    : List (Fin 64 × List Word)  -- words of a flow that have reached a publish identifier, short of a whole frame
  lastFid : Fin 64
  lastErr : BitVec 3
  rxok    : Word
  txok    : Word
  errs    : Word
  colls   : Word
  deriving DecidableEq, Repr

end Sys2Proof.Machine
end

