-- ==== Sys2Proof/Machine/State/Myuno.lean ====
section
/-!
DEFINITION. The two Myuno-36 lockstep pairs (R294 to R324).
-/
namespace Sys2Proof.Machine

/-- A valid line of a cache (R296): its number, address ÷ 8, and its words. -/
structure CacheLine where
  line  : Nat
  dirty : Bool
  words : Vector Word 8
  deriving DecidableEq, Repr

/-- RUN of PSTAT (R322). -/
inductive CoreRun where
  | reset | running | waiting | halted
  deriving DecidableEq, Repr

/-- ICFG of a source (R318), with the pending bit of an edge source. -/
structure IrqCfg where
  en    : Bool
  level : BitVec 4
  pend  : Bool
  deriving DecidableEq, Repr

/-- A product on its way to MH:ML (R308): the last cycle in which it is not yet seen. -/
structure Product where
  value : BitVec 72
  lands : Nat
  deriving DecidableEq, Repr

/-- Words given to STF that have not left the pair (R316). -/
structure StfPart where
  contract : Fin 256
  words    : List Word
  last     : Nat                   -- TIME of the last STF to the flow
  deriving DecidableEq, Repr

/-- A core pair, block 0x0B + p. -/
structure Core where
  d      : Bank Word 16
  a      : Bank Addr 8
  sp     : Addr
  ac     : Bank Acc80 2
  mh     : Word
  ml     : Word
  prods  : List Product            -- in order of issue
  psw    : BitVec 11
  pc     : Addr
  rs     : List Word               -- return-stack entries in the core, newest first, at most 32
  ssp    : Addr
  rslo   : Addr
  rshi   : Addr
  rslock : Bool
  vbase  : Addr
  ecause : BitVec 16
  eaddr  : Addr
  oref   : BitVec 24
  isel   : BitVec 10
  irq    : Bank IrqCfg 544         -- by source number, 16 to 543
  tmr    : Word
  since  : Nat                     -- TIME of the pair's release
  cyc    : Nat                     -- cycles of issue since then, for R308 and the load-to-use stall of R313
  readyD : Bank Nat 16             -- cycle from which the result of a load is usable
  readyA : Bank Nat 9              -- likewise of A0 to A7 and SP
  icache : List CacheLine          -- most recently filled first
  dcache : List CacheLine
  stf    : List StfPart
  run    : CoreRun
  lockup : Bool
  lkcnt  : Word
  pcs    : Addr
  deriving DecidableEq, Repr

end Sys2Proof.Machine
end

