-- ==== Sys2Proof/Machine/State/Net.lean ====
section
/-!
DEFINITION. The Ethernet switch, gPTP and the Rewell ring (R398 to R423).
-/
namespace Sys2Proof.Machine

/-- A frame in the switch frame store, with the egress ports that have still to send it (R400, R401). -/
structure EthHeld where
  frame   : EthFrame
  ingress : Fin 5
  ports   : BitVec 5
  cls     : Fin 8
  deriving DecidableEq, Repr

/-- A learned MAC entry (R399). -/
structure MacEntry where
  mac  : BitVec 48
  vid  : BitVec 12
  port : Fin 5
  last : Nat                       -- TIME of the last frame from the address
  deriving DecidableEq, Repr

/-- A port of the switch: 0 the host, 1 and 2 XG0 and XG1, 3 and 4 T1S0 and T1S1. -/
structure EthPort where
  link    : Bool
  speed   : BitVec 2               -- linked rate of an XG port
  anok    : Bool
  plca    : Bool
  csma    : Bool
  jab     : Bool
  busy    : Nat                    -- TIME until which the port sends
  sent    : Option EthFrame        -- the frame sent last
  occ     : Option Nat             -- TIME of the last frame with an error of the open occurrence
  credit  : Bank Int 8             -- shaper credit of each class, in bits × 10^8
  credAt  : Bank Nat 8
  synced  : Option Nat             -- TIME of the last Sync sent (R408)
  pdAt    : Option Nat             -- TIME of the last peer delay measurement
  pdelay  : Nat                    -- ns
  rx      : Word
  tx      : Word
  errs    : Word
  drops   : Word
  deriving DecidableEq, Repr

/-- The linked rate at which an admitted contract was charged on an XG port (R403). -/
structure EthRate where
  contract : Fin 256
  port     : Fin 2
  speed    : BitVec 2
  missing  : Bool                  -- the rate lies below it now
  deriving DecidableEq, Repr

/-- The switch and block 0x5E. -/
structure Ethernet where
  ports  : Bank EthPort 5
  store  : List EthHeld            -- oldest first
  learnt : List MacEntry
  rates  : List EthRate
  fill   : List (Fin 256 × List Word)  -- words of a transmit stream that have reached the switch, short of a whole frame
  hrxw   : Nat                     -- host ring indexes (R402)
  hrxr   : Nat
  htxw   : Nat
  htxr   : Nat
  remap  : Word
  ptpOfs : Word
  gmid   : BitVec 72
  syncAt : Option Nat              -- TIME of the last Sync received
  good   : Nat                     -- consecutive Syncs, or CYC frames, within the lock criterion (R409)
  deriving DecidableEq, Repr

/-- A frame that waits to be sent on the ring, with the contract of an OBJ frame's flow (R413). -/
structure RingTx where
  cls   : BitVec 4
  bc    : Bool
  dst   : Fin 8
  words : List Word
  deriving DecidableEq, Repr

/-- The Rewell ring, block 0x5D. -/
structure Ring where
  byp     : Bool                   -- the bypass is closed
  join    : Bool                   -- listening under R419
  heard   : Nat                    -- CYC frames heard while listening
  since   : Nat                    -- TIME at which listening began
  lock    : Bool
  tok     : Bool
  timer   : Bool                   -- holds the role of R532
  win     : Nat                    -- WIN and TRAIN in force (R421)
  train   : Nat
  winNext : Bool                   -- applied values take effect at the next cycle start
  order   : Word                   -- word 3 of the last CYC frame
  rtrip   : Nat
  lastCyc : Nat                    -- TIME of the last CYC, sent or received
  missed  : Nat                    -- cycles without CYC counted since then
  opened  : Option Nat             -- the timer: TIME of the train's CYC; its TEND has not returned
  back    : Option Nat             -- TIME at which that CYC returned
  viol    : Option Nat             -- a code violation in a train whose end has not come (R414)
  dirty   : Bool                   -- a code violation in this base cycle
  seqs    : Bank (BitVec 11) 16    -- SEQ of the next frame of each class
  objq    : List (Fin 256 × Word)  -- words of ring sink flows that wait for their frame
  txq     : List RingTx            -- STATE, DAISY and ZOP frames that wait
  sent    : List RingFrame         -- the frames sent in the last window
  cycs    : Word
  errs    : Word
  cviol   : Word
  lost    : Word
  orphans : Word
  deriving DecidableEq, Repr

end Sys2Proof.Machine
end

