-- ==== Sys2Proof/Machine/State/Power.lean ====
section
/-!
DEFINITION. The power-state controller and the daisy, block 0x02 (R424 to R447).
-/
namespace Sys2Proof.Machine

/-- STATE (obj 0x1200.02); CRANK HOLD while the device is otherwise in RUN is `sup.crank`. -/
inductive PowerMode where
  | run | idle | entering | park | deep | returning | off
  deriving DecidableEq, Repr

/-- A wake that passed its filter (R433 to R435). -/
structure Wake where
  src    : Byte
  num    : Byte
  stamp  : Word
  replay : Bool
  multi  : Bool
  deriving DecidableEq, Repr

/-- A round that the master has open (R441, R443). -/
structure Round where
  gen    : Byte
  opened : Nat
  ovr    : Bool
  deriving DecidableEq, Repr

/-- A commit whose repeats are still to be sent (R441): sent so far, TIME of the last. -/
structure CommitRep where
  gen  : Byte
  ovr  : Bool
  sent : Nat
  last : Nat
  deriving DecidableEq, Repr

/-- Block 0x02. -/
structure Power where
  mode    : PowerMode
  req     : Byte                   -- REQ
  deep    : Bool                   -- target of the entry in progress
  viaRep  : Byte                   -- how the entry was started: 0 local, 2 commit
  start   : Nat                    -- TIME of entry start, of completion, or of the wake
  due     : Bool                   -- an entry starts at the next strobe (a commit was accepted)
  storing : Bool                   -- the store of the entry is in progress
  latched : Option Wake            -- during an entry
  wake    : Option Wake            -- from a parked state, until CORE is released
  replay  : Option Nat             -- a replay is due; TIME of the release of NET
  next    : Nat                    -- number of the next domain to be released on a return
  wcause  : Word
  wstamp  : Word
  lastref : Word
  refcnt  : Bank Word 8
  reflog  : List Word              -- 16 entries of 2 words, newest first
  wtimer  : Nat
  keep    : Bool
  keepAt  : Nat                    -- TIME of the last KEEP sent
  gen     : Byte                   -- last generation accepted or committed
  dstate  : Fin 6
  quietAt : Option Nat             -- TIME of the last privileged KEEP received
  lastka  : Byte
  ovr     : Bool                   -- the last commit was an overrule
  round   : Option Round
  commit  : Option CommitRep
  failAt  : Option Nat             -- TIME of the last failed round
  refused : List Byte              -- refusers of the master's last failed round
  awakeAt : Option Nat             -- MAXAWAKE runs since then
  excl    : List Byte
  sent    : List (Byte × DaisyMed × DaisyMsg)  -- daisy messages sent by the last command that sent any: TYPE, medium, message
  linWakes : BitVec 8              -- LIN channels to which the last wake replay gave its wake-up signal (R437)
  wupRun  : Bool                   -- the last wake replay sent its run of 256 WUP symbols on the ring
  entries : Word
  wakes   : Word
  rounds  : Word
  ovrs    : Word
  deriving DecidableEq, Repr

end Sys2Proof.Machine
end

