-- ==== Sys2Proof/Machine/State/Reset.lean ====
section
/-!
DEFINITION. Reset and clocks, block 0x01, and the seven domains (R22, R508 to R528).
-/
namespace Sys2Proof.Machine

/-- A reset and power domain (R22): powered, and held in reset. -/
structure Domain where
  powered : Bool
  held    : Bool
  deriving DecidableEq, Repr

/-- A reset source (R512): TIME of its assertion, what it reaches, whether its trigger still stands, and since when its release
condition holds. -/
structure ResetSrc where
  since : Option Nat               -- asserted since
  reach : BitVec 7
  blk   : Option Nat               -- a single block, for lock-up and block resets
  ref   : BitVec 12
  clear : Bool                     -- the release condition holds
  deriving DecidableEq, Repr

/-- A cause word's parts (R526). -/
structure Cause where
  ref  : BitVec 12
  rcnt : Nat
  src  : BitVec 12
  dom  : BitVec 7
  deriving DecidableEq, Repr

/-- A reset of one block by SWBLK or a lock-up (R512, R521): when it was asserted. -/
structure BlockReset where
  blk   : Nat
  since : Nat
  lock  : Bool                     -- a lock-up
  deriving DecidableEq, Repr

/-- A service of the watchdog that a pair owes and has given (R524). -/
structure WdPair where
  served : Bool
  next   : Byte
  deriving DecidableEq, Repr

/-- Block 0x01. -/
structure ResetState where
  srcs    : Bank ResetSrc 12
  blocks  : List BlockReset
  first   : BitVec 12              -- reference of the first source to assert in this event
  seen    : BitVec 12              -- sources that took part
  domSrc  : Bank (BitVec 12) 7     -- sources that held each domain in this event
  domRef  : Bank (BitVec 12) 7
  held    : BitVec 7               -- domains held at some time in this event
  relAt   : Option Nat             -- the sequence waits since then to release its next domain
  firstUp : Bool                   -- no root step has passed since power-on release
  causes  : Bank Cause 7
  causex  : Cause
  rblk    : Byte
  srcCnt  : Bank Word 12
  isodrop : Word
  xosc    : Bool
  lock    : Bool
  good    : BitVec 5               -- bit 4 CLK_CORE … bit 0 CLK_CAN
  bkup    : Bool
  aonok   : Bool
  lossAt  : Option Nat             -- root lost; TIME of the loss or of the last restart
  wdRun   : Option Nat             -- the watchdog runs; TIME at which its period began
  wdWarn  : Bool                   -- kind 11 raised in this period; line 0
  wdPairs : Bank WdPair 2
  wdLock  : Bool
  unkept  : BitVec 7               -- domains that have been off or in reset together with FAB (R62, R64)
  rstn    : Bool                   -- RSTN is low, filtered
  deriving DecidableEq, Repr

end Sys2Proof.Machine
end

