-- ==== Sys2Proof/Machine/State/Security.lean ====
section
/-!
DEFINITION. Update, security, the event log and debug (R552 to R576).
-/
namespace Sys2Proof.Machine

/-- An event-log record that waits to be appended (R569, R570): class, TIME of the event, payload words. -/
structure LogRec where
  cls     : Nat
  time    : Time
  drop    : Nat                    -- events lost before it (R570)
  payload : List Word
  deriving DecidableEq, Repr

/-- The event log (R569 to R572); its records stand in data flash. -/
structure LogState where
  queue   : List LogRec            -- at most 32
  drop    : Nat                    -- DROP of the next record that is queued
  lost    : Word
  next    : Word                   -- NEXTSEQ
  oldest  : Word
  head    : Nat                    -- region word offset of the newest record
  slot    : Nat                    -- slot of the next record, 0 to 1023
  filled  : Nat                    -- slots that hold records, the newest last
  chain   : BitVec 256             -- H of the newest record
  ends    : Bank (BitVec 256) 32   -- H of the last record of each sector, for its truncation record
  check   : Bool                   -- a power-on release has yet to check the newest record (R572)
  records : Word
  truncs  : Word
  deriving DecidableEq, Repr

/-- The states of a bank (R558). -/
inductive BankState where
  | empty | writing | valid | trial | confirmed | previous | invalid
  deriving DecidableEq, Repr

/-- What the flash controller is busy with (R563). -/
inductive UpdBusy where
  | none
  | erasing (r : Requester)        -- the unmapped bank, for a BLOCK_START
  | loading
  | verifying
  deriving DecidableEq, Repr

/-- Blocks 0x09 and 0x0A. -/
structure Update where
  banks   : Bank BankState 2
  busy    : UpdBusy
  mapped  : Fin 2
  tries   : Nat
  bfail   : Nat
  recov   : Bool
  svpend  : Bool
  verr    : Byte
  sv      : Nat
  field   : Bool                   -- LCS is FIELD
  ukHave  : BitVec 4
  ukRev   : BitVec 4
  keys    : Bank (Option (BitVec 128)) 32
  booted  : Bool                   -- BOOTOK written since the last release of FAB
  coreAt  : Option Nat             -- TIME of the release of CORE while BOOTOK is awaited
  checked : Bool                   -- ROM has verified the mapped bank since the last release of FAB (R341)
  rom     : Bool                   -- pair A runs the ROM's boot sequence (R561)
  rolled  : Option (Fin 2)         -- a bank was rolled back; its record waits for BOOTOK (R560)
  written : Nat                    -- words of the image programmed so far
  updates : Word
  rolls   : Word
  deriving DecidableEq, Repr

/-- The JTAG port (R573, R574). -/
structure Debug where
  ir     : BitVec 6
  out    : BitVec 136              -- data register as last shifted out
  chal   : Option (BitVec 128)
  level  : Fin 4                   -- DBGST
  wrong  : Nat
  fail   : Bool                    -- the last DACC access failed (R595)
  deriving DecidableEq, Repr

end Sys2Proof.Machine
end

