-- ==== Sys2Proof/Machine/State/Server.lean ====
section
/-!
DEFINITION. The object server: applied, staged, waiting and saved values, bundles, sessions, subscriptions and block
transfers (R49 to R84).
-/
namespace Sys2Proof.Machine

/-- How far a bundle that has an owner has come (R60, R61). -/
inductive BundlePhase where
  | staging | checking | pending
  deriving DecidableEq, Repr

/-- A bundle that has an owner (R60). -/
structure BundleOwn where
  index : Nat
  owner : Requester
  since : Nat                      -- TIME of the first staged write
  phase : BundlePhase
  deriving DecidableEq, Repr

/-- A commit in check or pending (R61): the bundles it names; `strobed` once its base-cycle strobe has come and only
bundles of an owner's period boundary are left. -/
structure Commit where
  owner   : Requester
  indices : List Nat
  started : Nat
  hdr     : Option ZopHdr          -- of the message that asks for it
  checked : Bool
  strobed : Bool
  deriving DecidableEq, Repr

/-- One instance's copy of obj 0x10F0 (R63). -/
structure CommitInst where
  clist   : Bank (BitVec 16) 8
  status  : Byte
  refusal : Word
  gen     : Word
  deriving DecidableEq, Repr

/-- An LDO or STO that the server has accepted (R55, R68). -/
structure CoreReq where
  pair  : Fin 2
  write : Bool
  reg   : DReg
  index : BitVec 16
  sub   : Byte
  value : Word                     -- Ds of an STO
  deriving DecidableEq, Repr

/-- An access of a command row, of debug, or of a message whose block is in reset (R520); `value` is that of a write. -/
structure HeldAcc where
  by_   : Requester
  hdr   : Option ZopHdr            -- of the message that asks for it
  index : Nat
  sub   : Nat
  value : Option Val
  deriving DecidableEq, Repr

/-- What a ZOP request asks for (R72): its service with its data; `refused` is one that the screening refuses. -/
inductive ZopReq where
  | read
  | write (octets : List Byte)
  | commit (go : Byte) (indices : List (BitVec 16))
  | subscribe (minInt : BitVec 16)
  | unsubscribe
  | describe
  | blockStart (dir : Byte) (len : Word)
  | blockSeg (segno : BitVec 16) (words : List Word)
  | blockEnd (crc : BitVec 32)
  | sessionOpen (slot : Byte)
  | sessionClose
  | refused (svc : Nat) (code : Byte)
  deriving DecidableEq, Repr

/-- A request that the server has accepted and not yet served (R55). -/
inductive SrvReq where
  | core (q : CoreReq)
  | acc (a : HeldAcc)
  | msg (r : Requester) (h : ZopHdr) (z : ZopReq)
  deriving DecidableEq, Repr

/-- A request that the cascade master has put on the ring, until its response returns (R82). -/
structure FwdReq where
  by_  : Requester
  hdr  : ZopHdr
  svc  : Nat
  deriving DecidableEq, Repr

/-- What the server answered to an access (R72, R73): refusal code 0 is success; the words of a read, or the octets of a ZOP
response, each as a word. -/
structure Answer where
  dest   : Requester
  rqid   : Byte
  code   : Byte
  detail : BitVec 16
  data   : List Word
  authed : Bool                    -- carries a session trailer (R80)
  fresh  : Word                    -- its FRESH
  mac    : Option (BitVec 64)      -- its MAC; none where no message of the session is answered
  octets : List Byte               -- the response message, from its header to its trailer (R71); empty for an access without a message
  deriving DecidableEq, Repr

/-- A subscription (R76). -/
structure Sub where
  owner   : Requester
  key     : ObjKey
  minMs   : Nat
  last    : Option Nat             -- TIME of the last NOTIFY
  seen    : Val                    -- the value notified last; first, that of the SUBSCRIBE
  stamp   : Option Word            -- TIME[35:0] at which a value not yet notified was applied
  force   : Bool                   -- a commit of the member asks for a NOTIFY whatever its value
  deriving DecidableEq, Repr

/-- A NOTIFY as sent (R76). -/
structure Notify where
  dest  : Requester
  key   : ObjKey
  value : Val
  stamp : Word
  fresh : Word                     -- of the trailer, to a session (R80)
  mac   : Option (BitVec 64)
  octets : List Byte               -- the message (R71)
  deriving DecidableEq, Repr

/-- A block transfer (R77). -/
structure Block where
  owner : Requester
  key   : ObjKey
  write : Bool
  len   : Nat                      -- words
  next  : BitVec 16                -- next segment number
  words : List Word                -- received so far, or still to be sent
  crc   : BitVec 32                -- CRC-32 register over the segments so far
  last  : Nat                      -- TIME of the last segment
  hdr   : ZopHdr                   -- of its BLOCK_START
  acked : Nat                      -- segments of a read that the host has acknowledged
  sent  : Nat                      -- segments of a read sent so far
  out   : List (List Byte)         -- the messages of those not yet acknowledged, at most 8, oldest first
  deriving DecidableEq, Repr

/-- A session (R78 to R81). -/
structure Session where
  proven  : Bool
  slot    : Byte
  chal    : Word
  peer    : Requester              -- the medium address that opened it
  rx      : Word                   -- last FRESH accepted, host to device
  tx      : Word                   -- last FRESH sent
  opened  : Nat
  lastUse : Nat
  fails   : Nat                    -- consecutive trailer failures
  deriving DecidableEq, Repr

/-- A forwarded access to a firmware-defined object (R70). -/
structure FwReq where
  by_   : Requester
  hdr   : Option ZopHdr            -- of the message, but for a debug access
  write : Bool
  key   : ObjKey
  value : Val
  since : Nat
  deriving DecidableEq, Repr

/-- The object server. -/
structure Server where
  objs     : ObjStore              -- applied values, DOMAIN values among them (R56, R59)
  staged   : ObjStore              -- staged values (R59)
  cyc      : List (ObjKey × Requester × Val)   -- accepted, to be applied at the strobe (R56, R57), by rising key
  per      : ObjStore              -- accepted, to be applied at the owner's boundary
  bundles  : List BundleOwn
  commits  : List Commit
  insts    : Bank CommitInst 12    -- pair A, pair B, debug, sessions 1 to 8, the cascade master
  queue    : List SrvReq           -- accepted requests, at most 16
  ldo      : Bank (Option (ObjKey × List Word)) 2
  half     : Bank (Option (ObjKey × Word × Nat)) 2
  fw       : List FwReq            -- oldest first
  fwd      : List FwdReq           -- forwarded over the ring, oldest first
  heldAcc  : List HeldAcc          -- oldest first
  subs     : Bank (Option Sub) 64
  blocks   : List Block
  sess     : Bank (Option Session) 8
  saved    : ObjStore              -- the saved record in data flash (R64)
  savedRest : BitVec 8             -- the saved POS record of pair k shows it at rest, its position known (R168)
  schema   : Nat                   -- schema version of the saved record (R83)
  shadow   : Option (ObjStore × Nat)   -- shadow copy and its schema version (R83)
  dirty    : Option Nat            -- TIME of the last change to a saved object not yet stored
  storing  : Bool                  -- a store is in progress (R65)
  migState : Byte
  migDefs  : BitVec 16
  answer   : Option Answer         -- the answer given last
  notify   : Option Notify         -- the NOTIFY sent last
  deriving DecidableEq, Repr

end Sys2Proof.Machine
end

