-- ==== Sys2Proof/Machine/State/Valves.lean ====
section
/-!
DEFINITION. The valve stage, its banks and the boost converter (R191 to R223).
-/
namespace Sys2Proof.Machine

/-- The settings an activation runs on: its old set is kept until it ends (R221). -/
structure ValveSet where
  ihold : Nat
  pkmax : Nat
  pkext : Nat
  pidet : Bool
  epk   : Nat
  relt  : Nat
  dwin  : Nat
  dlim  : Nat
  pol   : Nat                      -- POLICY
  holdt : Nat
  deriving DecidableEq, Repr

/-- The stages of an activation (R194 to R197).  `fall` is the fall from peak to hold current; `decay` knows when the current reached
zero. -/
inductive ValveStage where
  | off
  | queued
  | peak (start : Nat)
  | fall
  | hold
  | decay (zero : Option Nat)
  deriving DecidableEq, Repr

/-- What a reset policy set (R218). -/
inductive ValvePolicy where
  | none | off | hold (was : Bool) (ends : Nat)
  deriving DecidableEq, Repr

/-- A valve channel. -/
structure Valve where
  cmd      : Bool                  -- last firmware command: ON
  stage    : ValveStage
  supp     : Bool                  -- suppressed by a sequencer's OFF (R335)
  set      : Option ValveSet       -- in an activation
  again    : Option (ValveSet × Nat) -- queued anew while its decay runs: its set, and the ms of a PULSE or 0 (R204)
  pulseMs  : Nat                   -- PULSE: ms from the start of the peak to switch-off; 0: none
  pulse    : Option Nat            -- end of a PULSE
  pulled   : Option Nat            -- TIME at which pull-in was detected in this peak
  offAt    : Nat                   -- TIME of the last switch-off
  bat      : Bool                  -- the peak is a battery peak
  fb       : Bool                  -- the activation was made under fallback
  unseen   : Bool                  -- IOP was in reset during the activation (R219)
  spwReset : Bool                  -- started by speedwell while IOP was in reset (R219)
  epk      : Nat                   -- energies measured in this activation, mJ
  onFrom   : Option Nat            -- in peak or hold since
  onLog    : List (Nat × Nat)      -- earlier times in peak and hold, newest first
  lcause   : BitVec 3
  nopull   : Bool
  norel    : Bool
  elim     : Bool
  batpk    : Bool
  ol       : Bool
  scg      : Bool
  test     : TestState
  testAt   : Nat
  code     : BitVec 12
  samples  : Nat
  chkBad   : Bool
  policy   : ValvePolicy
  rsp      : Bool
  base     : Option (SafeBase Bool ValvePolicy)   -- in a KEEP or POLICY safe state
  tpi      : BitVec 16
  trel     : BitVec 16
  epkl     : BitVec 16
  erecl    : BitVec 16
  rfrac    : BitVec 16
  acts     : Word
  nopulls  : Word
  trips    : Word
  deriving DecidableEq, Repr

/-- A valve bank.  The owner of the boost switch is the channel in its peak. -/
structure ValveBank where
  queue   : List (Fin 12)          -- requests for the boost switch, at most 2
  latch   : Bool
  peaks   : Word
  refused : Word
  batpks  : Word
  deriving DecidableEq, Repr

/-- The boost converter, block 0x3C. -/
structure Boost where
  run     : Bool                   -- enabled and energised
  halted  : Bool                   -- stopped by crank hold, a ground loss, PARK or DEEP PARK
  latched : Bool
  reached : Bool                   -- at the set point
  chEnds  : Option Nat             -- end of the BCHT window
  chFrom  : Nat                    -- TIME at which the charge started
  chVout  : Nat                    -- the rail's voltage then, 10 mV
  vout    : Nat                    -- 10 mV
  cest    : BitVec 16
  edraw   : Word
  erect   : Word
  deriving DecidableEq, Repr

end Sys2Proof.Machine
end

