-- ==== Sys2Proof/Machine/Inits.lean ====
section
/-!
DEFINITION. The values that the parts of the state hold at reset: those the spec gives, and those of log 4 where it gives none.
-/
namespace Sys2Proof.Machine

/-! The fabric and time -/

/-- The fabric at a release of FAB: every queue empty, every credit with its producer (R17, R18). -/
def Fabric.reset : Fabric :=
  { tags := Vector.replicate 64 { gen := 0, tx := none, issued := 0, resp := none, late := 0, born := 0 }, subq := [], credits := Vector.replicate 430 8
    back := [], waiting := [], rr := Vector.replicate 40 9, srcq := [], stale := 0, resps := Vector.replicate 10 none }

/-- TIME at a power-on release (R35): free-running on the root clock. -/
def TimeState.reset : TimeState :=
  { time := 0, strobed := true, hi := Vector.replicate 10 0, src := 0, stepd := false, parked := false, slew := false, disc := false
    offset := 0, step := 0, since := 0, aonAcc := 0, bkAcc := 0 }

/-! The object server, the collector, admission, supply -/

def CommitInst.reset : CommitInst := { clist := Vector.replicate 8 0, status := 0, refusal := 0, gen := 0 }

/-- The object server with no value that differs from its default, and nothing saved. -/
def Server.reset : Server :=
  { objs := [], staged := [], cyc := [], per := [], bundles := [], commits := [], insts := Vector.replicate 12 CommitInst.reset, queue := []
    ldo := Vector.replicate 2 none, half := Vector.replicate 2 none, fw := [], fwd := [], heldAcc := [], subs := Vector.replicate 64 none
    blocks := [], sess := Vector.replicate 8 none, saved := [], savedRest := 0, schema := 0, shadow := none, dirty := none, storing := false
    migState := 0, migDefs := 0, answer := none, notify := none }

/-- The collector at a SUP release (R499). -/
def FaultState.reset : FaultState :=
  { inflight := [], sticky := Vector.replicate 128 0, valid := false, ovf := false, sev := 0, src := 0, lstamp := 0, degraded := 0, sevBad := []
    q := EvQ.empty, errnLvl := false, pulse := none, held := false, shadows := [], safe := 0, frzValid := false, frzSev := 0
    frzSrc := 0, frzStamp := 0, image := [], freezing := none, frzLost := 0, dstat := 0, dumpTime := 0, faults := 0, conseq := 0
    safes := 0, resets := 0, dumps := 0 }

def Contract.reset : Contract :=
  { inForce := false, state := 0, cbound := 0, reason := 0, rport := 0xFF, tags := 0, misses := 0, lastMiss := 0, missAt := none, hurt := 0xFFFF, tok := 0, tokAt := 0 }

def Admission.reset : Admission :=
  { ct := Vector.replicate 256 Contract.reset, charges := [], resv := [], pendResv := none, extraResv := [], defer := [], q := EvQ.empty
    heldEv := [], heldLost := 0, rbaseW := false, fresh := true, prev := 0, edge := Vector.replicate 116 none
    level := Vector.replicate 116 none, levelN := Vector.replicate 116 0, inh := 0, swRep := 0, flags := 0, bk := 0, fired := 0, unres := false, reason := 0, rnum := 0 }

/-- The supply monitor and the governor, with VBAT at 13.5 V and every junction and the case at 25 °C (log 4); full factors. -/
def Supply.reset : Supply :=
  { vbat := 13500, shed := 0, lastRest := 0, crank := false, exitAt := none, ov := false, gloss := false, restoreQ := [], restoreAt := 0, tcase := 400, caseFail := false
    mfact := Vector.replicate 8 255, gfact := Vector.replicate 11 (Vector.replicate 8 255), tj := Vector.replicate 13 400
    tjmax := Vector.replicate 9 400, derates := Vector.replicate 9 0, episode := 0, sheds := 0, cranks := 0 }

/-! Loads -/

def HsChannel.reset : HsChannel :=
  { cmd := .off, act := .off, next := none, out := false, onEnds := none, lastBnd := none, period := 500, phase := 0, trans := none
    offAt := none, win := none, offEnds := none, lcause := 0, ol := false, scb := false, lowi := false, lowAt := none, test := .idle, testAt := 0
    code := 0, samples := 0, chkBad := false, policy := .none, rsp := false, base := none, supp := false, trips := 0, lastry := 0, oncount := 0 }

def ThermState.reset : ThermState := { quiet := none, twarn := false, tsd := false, hot := false, sensf := false }

def Leg.reset : Leg :=
  { cmd := .off, act := .off, brake := false, supp := false, lcause := 0, code := 0, samples := 0, chkBad := false, rsp := false, base := none
    trips := 0 }

def Pair.reset : Pair :=
  { word := BitVec.ofNat 36 0x200000000, cmd := .stop, act := .free, done := true, stage := .free, u := 0, ustar := 0, dir := false, stepAt := 0, startAt := 0
    brakeAt := 0, dwellAt := 0
    countAt := none, countIv := 0, pulse := none, park := none, rev := none, iwin := [], fAt := none, zones := [], dirty := false
    posok := false, endn := false, endp := false, stall := false, pinch := false, estim := none, clim := false, ol := false
    scb := false, scg := false, parked := false, zto := false, shedStop := false, low := false, test := .idle, testAt := 0, code := 0, samples := 0
    chkBad := false, policy := .none, rsp := false, base := none, stalls := 0, pinches := 0, runs := 0 }

def Valve.reset : Valve :=
  { cmd := false, stage := .off, supp := false, set := none, again := none, pulseMs := 0, pulse := none, pulled := none, offAt := 0, bat := false
    fb := false, unseen := false, spwReset := false, epk := 0, onFrom := none, onLog := [], lcause := 0, nopull := false, norel := false
    elim := false, batpk := false, ol := false, scg := false, test := .idle, testAt := 0, code := 0, samples := 0, chkBad := false
    policy := .none, rsp := false, base := none, tpi := 0, trel := 0, epkl := 0, erecl := 0, rfrac := 0, acts := 0, nopulls := 0, trips := 0 }

def ValveBank.reset : ValveBank := { queue := [], latch := false, peaks := 0, refused := 0, batpks := 0 }

def Boost.reset : Boost :=
  { run := false, halted := false, latched := false, reached := false, chEnds := none, chFrom := 0, chVout := 0, vout := 0, cest := 0, edraw := 0
    erect := 0 }

def Sink.reset : Sink :=
  { last := 0, x := 0, x0 := 0, goal := 0, k := 0, steps := 0, rem := 0, lastBnd := none, onTicks := 0, lcause := 0, hot := false, ol := false
    shedAt := none, shoff := false, code := 0, samples := 0, chkBad := false }

def Chain.reset : Chain :=
  { store := none, sent := [], cgo := false, cerr := false, shedAt := none, shoff := false, shiftEnds := 0, lastAt := none, refresh := 0 }

def Matrix.reset : Matrix :=
  { shown := false, pend := none, start := none, ends := 0, blank := [], edge := none, watch := 0, fslost := false, perr := false
    mdim := 255, shedAt := none, shoff := false, frames := 0, slips := 0 }

/-- A channel as a reset of NET leaves it (R390). -/
def CanCh.reset : CanCh :=
  { new := 0, req := 0, lost := 0, att := Vector.replicate 66 0, bus := none, abort := false, noackA := false, frame := none, fill := []
    lec := 0, tecnt := 0, recnt := 0, busoff := false, ready := false, recov := false, rseq := 0, noack := false, occ := false
    cand := 0, candAt := 0, good := 0, abdres := 0xFF, decode := none, wufErr := 0, zopq := [], zopAt := none, zbus := false
    rxok := 0, txok := 0, errs := 0, busoffs := 0, unmatch := 0, drops := 0 }

/-- A sequencer at the release of ENG, before anything is loaded. -/
def Seq.reset : Seq :=
  { src := .idle, admitted := false, started := false, cmdDeny := 0, stopped := 0, merr := false, regs := Vector.replicate 8 0
    z := false, n := false, c := false, v := false, pc := 0, act := none, elig := [], waitT := [], lastGo := Vector.replicate 8 none
    perAt := Vector.replicate 8 none, aborts := Vector.replicate 8 0
    binds := Vector.replicate 8 { evt := 0, tmr := none, left := none, aon := false, cmph := 0, cmpl := 0 }
    acts := 0, lastpc := 0, util := 0, signal := 0, held := [] }

/-- The ring as the release of NET leaves it: in bypass. -/
def Ring.reset : Ring :=
  { byp := true, join := false, heard := 0, since := 0, lock := false, tok := false, timer := false, win := 0, train := 40
    winNext := false, order := 0, rtrip := 0, lastCyc := 0, missed := 0, opened := none, back := none, viol := none
    dirty := false, seqs := Vector.replicate 16 0, objq := [], txq := [], sent := [], cycs := 0, errs := 0, cviol := 0, lost := 0
    orphans := 0 }

def EthPort.reset : EthPort :=
  { link := false, speed := 0, anok := false, plca := false, csma := false, jab := false, busy := 0, sent := none, occ := none
    credit := Vector.replicate 8 0, credAt := Vector.replicate 8 0, synced := none, pdAt := none, pdelay := 0, rx := 0, tx := 0
    errs := 0, drops := 0 }

def Ethernet.reset : Ethernet :=
  { ports := Vector.replicate 5 EthPort.reset, store := [], learnt := [], rates := [], fill := [], hrxw := 0, hrxr := 0, htxw := 0
    htxr := 0, remap := 0, ptpOfs := 0, gmid := 0, syncAt := none, good := 0 }

/-- The logic as a power-on release leaves it. -/
def Duo.reset (casc : Fin 8) : Duo :=
  { casc := casc, dup := false, role := .off, line := false, gen := 0, copy := [], copyAt := 0, part := false, here := false
    due := none, misscyc := 0, good := 0, missc := 0, match_ := false, shGood := 0, shBad := 0, shok := false, memok := true
    diagok := true, pri := false, pgen := 0, pact := false, heardP := false, frame := [], alarm := none, phealth := 0, step := false, lastto := 0, takeover := 0
    missed := 0, shmis := 0 }

def CapSense.reset : CapSense := { base := none, highs := 0, since := 0, ignored := false, touched := false, last := 0 }

/-! Inputs, pins, analog -/

def Input.reset : Input :=
  { cls := .open_, rep := .open_, since := 0, chat := none, fb := false, k := 0, kAt := 0, lowv := false, wakec := false, entry := .open_
    poll := none, agree := 0, changes := 0, fallbks := 0 }

def IoPin.reset : IoPin := { cmd := false, on := false, lcause := 0, trips := 0, hot := false }

def Analog.reset : Analog := { raw := 0, window := [], sat := false, samples := 0 }

def AdcState.reset : AdcState := { places := [], pend := [], bad := 0, lowref := false, last := Vector.replicate 320 0 }

/-! The loop engine -/

def Loop.reset : Loop :=
  { place := none, refused := false, mode := 0, modeReq := false, safe := none, core := LoopCore.zero, delay := List.replicate 15 0, y := 0
    sent := 0, fbv := 0, resid := 0, entry := false, restart := false, starts := true, vref := none, fresh := false, limited := false
    sat := false, plaus := false, rsm := false, cold := false, inval := false, ovrs := 0, invs := 0, steps := 0
    used := Vector.replicate 4 0, lastRel := none, lastOk := none, rel := none, out := none, ckpt := none, held := false, from_ := 0
    remap := false }

/-- Tiles 0 to 14 are scheduled and tile 15 is the spare (R253). -/
def Tile.reset (t : Fin 16) : Tile :=
  { role := if t = 15 then .spare else .scheduled, retry := 0, retryPub := 0, again := none, cycle := 0 }

def Engine.reset : Engine :=
  { tiles := Vector.ofFn Tile.reset, loops := Vector.replicate 360 Loop.reset, remap := none, again := [], streams := [], resv := [] }

/-! The media -/

/-- A LIN channel at the release of NET. -/
def LinCh.reset (table : Option (Fin 4)) : LinCh :=
  { new := 0, req := 0, table := table, next := none, entry := none, due := none, cres := none, back := 0, slotEnd := none, wait := none, fill := []
    lastFid := 0, lastErr := 0, rxok := 0, txok := 0, errs := 0, colls := 0 }

/-! The cores (R321) -/

/-- A pair as its reset leaves it (R321), with the default spill region of R307. -/
def Core.reset (p : Fin 2) : Core :=
  { d := Vector.replicate 16 0, a := Vector.replicate 8 0, sp := 0, ac := Vector.replicate 2 0, mh := 0, ml := 0, prods := [], psw := 0
    pc := 0, rs := [], ssp := if p = 0 then 0x85C000 else 0x85D000, rslo := if p = 0 then 0x85C000 else 0x85D000
    rshi := if p = 0 then 0x85CFFF else 0x85DFFF, rslock := false, vbase := 0x003C00, ecause := 0, eaddr := 0, oref := 0, isel := 16
    irq := Vector.replicate 544 { en := false, level := 0, pend := false }, tmr := 0, since := 0, cyc := 0
    readyD := Vector.replicate 16 0, readyA := Vector.replicate 9 0, icache := [], dcache := [], stf := [], run := .running
    lockup := false, lkcnt := 0, pcs := 0 }

/-! Reset and clocks, power, access, update, log, debug -/

def Cause.powerOn : Cause := { ref := 0, rcnt := 0, src := 1, dom := 0 }

/-- Block 0x01 after a power-on release (R526): all clocks good, no source asserted; the watchdog runs (WDEN is 1 by default). -/
def ResetState.reset : ResetState :=
  { srcs := Vector.replicate 12 { since := none, reach := 0, blk := none, ref := 0, clear := false }, blocks := [], first := 0, seen := 0
    domSrc := Vector.replicate 7 0, domRef := Vector.replicate 7 0, held := 0, relAt := none, firstUp := false
    causes := Vector.replicate 7 Cause.powerOn, causex := Cause.powerOn, rblk := 0xFF, srcCnt := Vector.replicate 12 0, isodrop := 0
    xosc := true, lock := true, good := 0x1F, bkup := false, aonok := true, lossAt := none, wdRun := some 0, wdWarn := false
    wdPairs := Vector.replicate 2 { served := false, next := 0x5A }, wdLock := false, unkept := 0, rstn := false }

def Power.reset : Power :=
  { mode := .run, req := 0, deep := false, viaRep := 0, start := 0, due := false, storing := false
    latched := none, wake := none, replay := none, next := 0, wcause := 0, wstamp := 0, lastref := 0, refcnt := Vector.replicate 8 0
    reflog := List.replicate 32 0, wtimer := 0, keep := false, keepAt := 0, gen := 0, dstate := 0, quietAt := none, lastka := 0
    ovr := false, round := none, commit := none, failAt := none, refused := [], awakeAt := none, excl := [], sent := [], linWakes := 0, wupRun := false, entries := 0
    wakes := 0, rounds := 0, ovrs := 0 }

def AccessState.reset : AccessState :=
  { poll := none, latched := false, open_ := false, detune := false, result := 0, line0 := false, laststamp := 0, polls := 0, grants := 0
    denials := 0, locks := 0, fails := 0, flashFails := 0, lockEnd := none, sstop := false, lastGrant := 0
    caps := Vector.replicate 4 CapSense.reset, acks := 0, searchAt := 0, wakePoll := false }

/-- The log's chain before its first record (R569). -/
def LogState.reset : LogState :=
  { queue := [], drop := 0, lost := 0, next := 0, oldest := 0, head := 0, slot := 0, filled := 0, chain := 0, ends := Vector.replicate 32 0, check := false, records := 0, truncs := 0 }

/-- A delivered module whose bank A is CONFIRMED (log 4). -/
def Update.reset : Update :=
  { banks := #v[.confirmed, .empty], busy := .none, mapped := 0, tries := 0, bfail := 0, recov := false, svpend := false, verr := 0, sv := 0
    field := false, ukHave := 0xF, ukRev := 0, keys := Vector.replicate 32 none, booted := false, coreAt := none, checked := false
    rom := true, rolled := none, written := 0, updates := 0, rolls := 0 }

def Debug.reset : Debug := { ir := 0x3F, out := 0, chal := none, level := 0, wrong := 0, fail := false }

end Sys2Proof.Machine
end

