-- ==== Sys2Proof/Machine/State.lean ====
section
/-!
DEFINITION. The state of the BZ9648: everything spec/ gives the block, and the queue of waiting commands.
-/
namespace Sys2Proof.Machine

/-- Why the model stops with a fault. -/
inductive Fault where
  /-- Raised by no meaning: the device answers every condition of R486 with a next state.  Safe. -/
  | none
  deriving DecidableEq, Repr

/-- Why the model gives a command no meaning. -/
inductive Refusal where
  /-- Raised by an arm of `exec` whose command has no meaning yet.  Safe. -/
  | notModelled (mnemonic : String)
  deriving DecidableEq, Repr

/-- The machine. -/
structure State where
  pending : List Instr             -- the commands that wait, first in first out
  free    : Nat                    -- the model's own: how many free values have been drawn
  time    : TimeState
  fab     : Fabric
  mem     : Memory
  srv     : Server
  adm     : Admission
  sup     : Supply
  flt     : FaultState
  hs      : Bank HsChannel 72
  th      : Bank ThermState 13     -- G0 to G8, HG0, HG1, valve stage, boost
  legs    : Bank Leg 16
  pairs   : Bank Pair 8
  sout    : Option SenseItem       -- the SENSEOUT source (R140)
  vd      : Bank Valve 12
  vb      : Bank ValveBank 4
  boost   : Boost
  sinks   : Bank Sink 24
  chain   : Chain
  matrix  : Matrix
  inputs  : Bank Input 80
  inLoss  : Bool                   -- the next input entry carries LOSS (R357)
  ios     : Bank IoPin 16
  ans     : Bank Analog 16
  adc     : AdcState
  vq      : EvQ                    -- valve event queue (R220)
  eng     : Engine
  cans    : Bank CanCh 8
  lins    : Bank LinCh 8
  lq      : EvQ                    -- loop event queue (R290)
  inq     : EvQ                    -- input event queue (R357)
  seqs    : Bank Seq 16
  dom     : Bank Domain 7
  log     : LogState
  cores   : Bank Core 2
  eth     : Ethernet
  ring    : Ring
  duo     : Duo
  pwr     : Power
  rst     : ResetState
  acs     : AccessState
  upd     : Update
  dbg     : Debug
  deriving DecidableEq, Repr

/-- Every part of the machine as power-on finds it, with nothing in memory and nothing saved; `casc` as CASC2 to CASC0 are strapped (R530). -/
def State.cold (casc : Fin 8) : State :=
  { pending := [], free := 0, time := TimeState.reset, fab := Fabric.reset, mem := [], srv := Server.reset, adm := Admission.reset
    sup := Supply.reset, flt := FaultState.reset, hs := Vector.replicate 72 HsChannel.reset, th := Vector.replicate 13 ThermState.reset
    legs := Vector.replicate 16 Leg.reset, pairs := Vector.replicate 8 Pair.reset, sout := none, vd := Vector.replicate 12 Valve.reset
    vb := Vector.replicate 4 ValveBank.reset, boost := Boost.reset, sinks := Vector.replicate 24 Sink.reset, chain := Chain.reset
    matrix := Matrix.reset, inputs := Vector.replicate 80 Input.reset, inLoss := false, ios := Vector.replicate 16 IoPin.reset
    ans := Vector.replicate 16 Analog.reset, adc := AdcState.reset, vq := EvQ.empty, eng := Engine.reset
    cans := Vector.replicate 8 CanCh.reset, lins := Vector.replicate 8 (LinCh.reset none), lq := EvQ.empty, inq := EvQ.empty
    seqs := Vector.replicate 16 Seq.reset, dom := Vector.replicate 7 { powered := true, held := true }, log := LogState.reset
    cores := Vector.ofFn fun p => { Core.reset p with run := .reset }, eth := Ethernet.reset, ring := Ring.reset, duo := Duo.reset casc
    pwr := Power.reset, rst := ResetState.reset, acs := AccessState.reset, upd := Update.reset, dbg := Debug.reset }

/-- The placements of the sense requests at their default periods: first fit in the order of R88 (R368). -/
def resetPlaces : List AdcPlace :=
  let mk (r : AdcReq) (slot phase period : Nat) : AdcPlace := { req := r, adc := 0, slot := slot, phase := phase, period := period }
  (List.finRange 72).map (fun c => mk (.load (.hs c)) 0 c.val 100) ++
    (List.finRange 16).map (fun n => mk (.load (.leg n)) 0 (72 + n.val) 100) ++
    (List.finRange 12).map (fun n => mk (.load (.valve n)) (1 + n.val / 10) (n.val % 10) 10) ++
    (List.finRange 24).map fun n =>
      if n.val < 12 then mk (.load (.sink n)) 0 (88 + n.val) 100 else mk (.load (.sink n)) 2 (n.val - 10 + if n.val < 20 then 0 else 2) 100

/-- A sequencer with its library set (R340, R343); utilisation in 0.1 %. -/
def resetSeq (n : Fin 16) : Seq :=
  if 14 ≤ n.val then Seq.reset
  else { Seq.reset with
    src := .library, admitted := true, started := true
    util := if n.val ≤ 8 then 128 else if n.val ≤ 10 then 21 else if n.val ≤ 12 then 252 else 10 }

/-- The machine right after reset (R35, R425, R518): a module as delivered, strapped 0, at the end of a power-on reset.  TIME counts from the
release of the power-on source: SUP was released at 32 µs, FAB, ENG, IOP, NET and CORE each 10.24 µs after the one before. -/
def State.reset : State :=
  let c := State.cold 0
  { c with
    time := { c.time with time := 8320 }
    dom := Vector.replicate 7 { powered := true, held := false }
    flt := { c.flt with inflight := [{ src := 0x020, stamp := 3200, wrapped := none }] }
    inputs := Vector.ofFn fun i : Fin 80 => if i.val < 64 then { Input.reset with since := 6272 } else Input.reset
    inq := { items := (List.range 64).map fun i => { marker := false, words := [BitVec.ofNat 36 (4 * 2 ^ 32 + i * 2 ^ 25), 6272] }, lost := 0 }
    adc := { c.adc with places := resetPlaces }
    eng := { c.eng with loops := Vector.replicate 360 { Loop.reset with from_ := 7248 } }
    cans := Vector.replicate 8 { CanCh.reset with candAt := 7296 }
    lins := Vector.replicate 8 (LinCh.reset (some 0))
    seqs := Vector.ofFn resetSeq
    cores := Vector.ofFn fun p => { Core.reset p with since := 8320 }
    pwr := { c.pwr with awakeAt := some 0 }
    rst := { c.rst with held := 0x7F, seen := 1, srcCnt := c.rst.srcCnt.set 0 1, wdRun := some 8320 }
    upd := { c.upd with coreAt := some 8320 } }

end Sys2Proof.Machine
end

