-- ==== Sys2Proof/Machine/Objects.lean ====
section
/-!
DEFINITION. The object dictionary as the object tables of spec/ give it (R49 to R56): one row per subindex of each family of
indices, with type, access, default, apply point, persistence and range; and the values an object has at its default.
-/
namespace Sys2Proof.Machine

/-- The types of R51. -/
inductive OType where
  | bool | u8 | u16 | u36 | s36 | u72 | fix | str | dom
  deriving DecidableEq, Repr

/-- Access of one requester class (R50). -/
inductive Access where
  | none | ro | wo | rw | rwc | const
  deriving DecidableEq, Repr

/-- The access columns that the object tables use: local / authenticated / open / debug. -/
inductive AccPat where
  | rwc | ro | rw | wo | konst | woR | roN | rwN | woL | rwL | rwA | rwcN | woF
  deriving DecidableEq, Repr

/-- The apply points of R56. -/
inductive Apply where
  | imm | cyc | per | cmt | none
  deriving DecidableEq, Repr

/-- Persistence (R50, R64). -/
inductive Persist where
  | volatile | saved | factory
  deriving DecidableEq, Repr

/-- A default: one word, two words, a DOMAIN of zeros, or one that the owning chapter computes. -/
inductive Dflt where
  | one (w : Nat) | two (h l : Nat) | zeros (n : Nat) | special
  deriving DecidableEq, Repr

/-- The values a write may carry besides its type: a range, a signed range, a mask of defined bits, a set, or what the owning
chapter checks. -/
inductive Rng where
  | any | upTo (lo hi : Nat) | signed (lo hi : Int) | mask (m : Nat) | oneOf (l : List Nat) | special
  deriving DecidableEq, Repr

/-- A row of an object table. -/
structure ObjRow where
  sub     : Nat
  type    : OType
  q       : Nat
  acc     : AccPat
  dflt    : Dflt
  apply   : Apply
  persist : Persist
  prot    : Bool
  subs    : Bool
  rng     : Rng
  deriving DecidableEq, Repr

/-- The families of indices (R66). -/
inductive Fam where
  | ident | prof | bundle | contract | power | fault | reset | update | duo | hs | leg | pair | valve | bank | boost | sw | io | an | sink | chain | matrix | loop | speed | shed | tgrp | access | can | lin | eth | ring | log | dump | fw
  deriving DecidableEq, Repr

/-- Rows of 0x10F0. -/
def rowsBundle : List ObjRow := [
  /- CLIST0 to CLIST7 -/ ⟨0x01, .u16, 0, .rwN, .one 0x0, .imm, .volatile, false, false, .any⟩,
  /- CLIST0 to CLIST7 -/ ⟨0x02, .u16, 0, .rwN, .one 0x0, .imm, .volatile, false, false, .any⟩,
  /- CLIST0 to CLIST7 -/ ⟨0x03, .u16, 0, .rwN, .one 0x0, .imm, .volatile, false, false, .any⟩,
  /- CLIST0 to CLIST7 -/ ⟨0x04, .u16, 0, .rwN, .one 0x0, .imm, .volatile, false, false, .any⟩,
  /- CLIST0 to CLIST7 -/ ⟨0x05, .u16, 0, .rwN, .one 0x0, .imm, .volatile, false, false, .any⟩,
  /- CLIST0 to CLIST7 -/ ⟨0x06, .u16, 0, .rwN, .one 0x0, .imm, .volatile, false, false, .any⟩,
  /- CLIST0 to CLIST7 -/ ⟨0x07, .u16, 0, .rwN, .one 0x0, .imm, .volatile, false, false, .any⟩,
  /- CLIST0 to CLIST7 -/ ⟨0x08, .u16, 0, .rwN, .one 0x0, .imm, .volatile, false, false, .any⟩,
  /- GO -/ ⟨0x10, .u8, 0, .wo, .one 0, .imm, .volatile, false, false, .oneOf [1, 2]⟩,
  /- STATUS -/ ⟨0x11, .u8, 0, .roN, .one 0x0, .none, .volatile, false, false, .any⟩,
  /- REFUSAL -/ ⟨0x12, .u36, 0, .roN, .one 0x0, .none, .volatile, false, false, .any⟩,
  /- GEN -/ ⟨0x13, .u36, 0, .roN, .one 0x0, .none, .volatile, false, false, .any⟩,
  /- STG_TMO -/ ⟨0x14, .u16, 0, .rwN, .one 0x1F4, .cyc, .saved, false, false, .upTo 10 10000⟩]

/-- Rows of 0x1000.  BUILD and SERIAL differ from module to module: 0 is a choice (DESIGN CHOICE, log 4). -/
def rowsIdent : List ObjRow := [
  /- DEVICE -/ ⟨0x01, .u16, 0, .konst, .one 0x9648, .none, .factory, false, false, .any⟩,
  /- STEPPING -/ ⟨0x02, .u8, 0, .konst, .one 0x21, .none, .factory, false, false, .any⟩,
  /- BUILD -/ ⟨0x03, .u16, 0, .konst, .one 0, .none, .factory, false, false, .any⟩,
  /- SERIAL -/ ⟨0x04, .u72, 0, .konst, .two 0 0, .none, .factory, false, false, .any⟩,
  /- SCHEMA -/ ⟨0x05, .u16, 0, .ro, .one 0, .none, .volatile, false, false, .any⟩,
  /- MIG_STATE -/ ⟨0x06, .u8, 0, .ro, .one 0x0, .none, .volatile, false, false, .any⟩,
  /- MIG_DEFAULTS -/ ⟨0x07, .u16, 0, .ro, .one 0x0, .none, .volatile, false, false, .any⟩]

/-- Rows of 0x1010. -/
def rowsProf : List ObjRow := [
  /- SYSTEM -/ ⟨0x01, .u8, 0, .rwc, .one 0x18, .cmt, .saved, true, false, .oneOf [12, 24]⟩,
  /- SERVE_PAIR -/ ⟨0x02, .u8, 0, .rwL, .one 0x0, .cyc, .saved, false, false, .upTo 0 1⟩,
  /- STORE -/ ⟨0x03, .bool, 0, .wo, .one 0, .imm, .volatile, false, false, .upTo 0 1⟩,
  /- UDP_PORT -/ ⟨0x04, .u16, 0, .rw, .one 0xC1F0, .cyc, .saved, true, false, .any⟩,
  /- SESS_IDLE -/ ⟨0x05, .u16, 0, .rw, .one 0x1E, .cyc, .saved, false, false, .upTo 5 3600⟩]

/-- Rows of 0x1100. -/
def rowsContract : List ObjRow := [
  /- SRC -/ ⟨0x01, .u16, 0, .rwc, .one 0x0, .cmt, .saved, true, false, .any⟩,
  /- SINK -/ ⟨0x02, .u16, 0, .rwc, .one 0x0, .cmt, .saved, true, false, .any⟩,
  /- CLASS -/ ⟨0x03, .u8, 0, .rwc, .one 0x3, .cmt, .saved, true, false, .upTo 0 3⟩,
  /- RATE -/ ⟨0x04, .u36, 0, .rwc, .one 0x0, .cmt, .saved, true, false, .upTo 0 170000000⟩,
  /- BURST -/ ⟨0x05, .u16, 0, .rwc, .one 0x8, .cmt, .saved, true, false, .upTo 1 4096⟩,
  /- BOUND -/ ⟨0x06, .u36, 0, .rwc, .one 0x0, .cmt, .saved, true, false, .any⟩,
  /- TXN -/ ⟨0x07, .u8, 0, .rwc, .one 0x8, .cmt, .saved, true, false, .upTo 1 8⟩,
  /- ENABLE -/ ⟨0x08, .bool, 0, .rwc, .one 0x0, .cmt, .saved, true, false, .upTo 0 1⟩,
  /- STATE -/ ⟨0x10, .u8, 0, .ro, .one 0x0, .none, .volatile, false, false, .any⟩,
  /- CBOUND -/ ⟨0x11, .u36, 0, .ro, .one 0x0, .none, .volatile, false, false, .any⟩,
  /- REASON -/ ⟨0x12, .u16, 0, .ro, .one 0x0, .none, .volatile, false, false, .any⟩,
  /- RPORT -/ ⟨0x13, .u8, 0, .ro, .one 0xFF, .none, .volatile, false, false, .any⟩,
  /- TAGS -/ ⟨0x14, .u8, 0, .ro, .one 0x0, .none, .volatile, false, false, .any⟩,
  /- MISSES -/ ⟨0x15, .u36, 0, .ro, .one 0x0, .none, .volatile, false, true, .any⟩,
  /- LASTMISS -/ ⟨0x16, .u36, 0, .ro, .one 0x0, .none, .volatile, false, false, .any⟩,
  /- HURT -/ ⟨0x17, .u16, 0, .ro, .one 0xFFFF, .none, .volatile, false, false, .any⟩]

/-- Rows of 0x2700. -/
def rowsSpeed : List ObjRow := [
  /- RULES -/ ⟨0x01, .dom, 0, .rwc, .zeros 512, .cmt, .saved, true, false, .any⟩,
  /- RBASE -/ ⟨0x02, .u36, 0, .rwc, .one 0x85FE00, .cmt, .saved, false, false, .special⟩,
  /- BKP0 to BKP3 -/ ⟨0x03, .u16, 0, .rwc, .one 0x29B, .cmt, .saved, true, false, .upTo 2 10000⟩,
  /- BKP0 to BKP3 -/ ⟨0x04, .u16, 0, .rwc, .one 0x29B, .cmt, .saved, true, false, .upTo 2 10000⟩,
  /- BKP0 to BKP3 -/ ⟨0x05, .u16, 0, .rwc, .one 0x29B, .cmt, .saved, true, false, .upTo 2 10000⟩,
  /- BKP0 to BKP3 -/ ⟨0x06, .u16, 0, .rwc, .one 0x29B, .cmt, .saved, true, false, .upTo 2 10000⟩,
  /- FLAGS -/ ⟨0x07, .u16, 0, .rw, .one 0x0, .imm, .volatile, false, false, .any⟩,
  /- ACTIVE -/ ⟨0x08, .u16, 0, .ro, .one 0x0, .none, .volatile, false, false, .any⟩,
  /- REASON -/ ⟨0x09, .u16, 0, .ro, .one 0x0, .none, .volatile, false, false, .any⟩,
  /- RNUM -/ ⟨0x0A, .u8, 0, .ro, .one 0x0, .none, .volatile, false, false, .any⟩,
  /- FIRED -/ ⟨0x0B, .u36, 0, .ro, .one 0x0, .none, .volatile, false, false, .any⟩,
  /- UNRES -/ ⟨0x0C, .bool, 0, .ro, .one 0x0, .none, .volatile, false, false, .any⟩]

/-- Rows of 0x2000. -/
def rowsHs : List ObjRow := [
  /- CLASS -/ ⟨0x01, .u8, 0, .konst, .special, .none, .factory, false, false, .any⟩,
  /- CMD -/ ⟨0x02, .u8, 0, .rw, .one 0x0, .imm, .volatile, false, false, .upTo 0 2⟩,
  /- CLR -/ ⟨0x03, .bool, 0, .wo, .one 0, .imm, .volatile, false, false, .upTo 0 1⟩,
  /- STATUS -/ ⟨0x04, .u36, 0, .ro, .one 0x0, .none, .volatile, false, true, .any⟩,
  /- SENSE -/ ⟨0x05, .u16, 0, .ro, .one 0x0, .none, .volatile, false, true, .any⟩,
  /- ILOAD -/ ⟨0x06, .u16, 0, .rwc, .special, .cmt, .saved, false, false, .special⟩,
  /- PERIOD -/ ⟨0x07, .u16, 0, .rwc, .one 0x1F4, .cmt, .saved, false, false, .upTo 250 65535⟩,
  /- ONTIME -/ ⟨0x08, .u16, 0, .rwc, .one 0xFA, .cmt, .saved, false, false, .any⟩,
  /- PHASE -/ ⟨0x09, .u16, 0, .rwc, .one 0x0, .cmt, .saved, false, false, .any⟩,
  /- SLOPE -/ ⟨0x0A, .u8, 0, .rwc, .one 0x1, .cmt, .saved, false, false, .upTo 0 3⟩,
  /- TRIPSEL -/ ⟨0x0B, .u8, 0, .rwc, .one 0xF, .cmt, .saved, true, false, .upTo 3 15⟩,
  /- IRWIN -/ ⟨0x0C, .u8, 0, .rwc, .one 0x14, .cmt, .saved, false, false, .upTo 0 100⟩,
  /- IROFF -/ ⟨0x0D, .u8, 0, .rwc, .one 0x4, .cmt, .saved, false, false, .upTo 1 100⟩,
  /- IRTRY -/ ⟨0x0E, .u8, 0, .rwc, .one 0xF, .cmt, .saved, false, false, .upTo 0 31⟩,
  /- DIAG -/ ⟨0x0F, .u8, 0, .rwc, .one 0x1, .cmt, .saved, false, false, .oneOf [0, 1, 2, 4, 5, 6]⟩,
  /- DIAGP -/ ⟨0x10, .u16, 0, .rwc, .one 0x64, .cmt, .saved, false, false, .upTo 10 10000⟩,
  /- ULOW -/ ⟨0x11, .u16, 0, .rwc, .one 0x0, .cmt, .saved, false, false, .any⟩,
  /- SRATE -/ ⟨0x12, .u16, 0, .rwc, .one 0x64, .cmt, .saved, false, false, .upTo 2 10000⟩,
  /- POLICY -/ ⟨0x13, .u8, 0, .rwc, .one 0x0, .cmt, .saved, true, false, .upTo 0 2⟩,
  /- HOLDT -/ ⟨0x14, .u16, 0, .rwc, .one 0x0, .cmt, .saved, true, false, .upTo 0 600⟩,
  /- LIMPD -/ ⟨0x15, .u8, 0, .rwc, .one 0x0, .cmt, .saved, true, false, .upTo 0 255⟩,
  /- SOUT -/ ⟨0x16, .bool, 0, .rw, .one 0x0, .imm, .volatile, false, false, .upTo 0 1⟩,
  /- SOUTG -/ ⟨0x17, .u8, 0, .rw, .one 0x0, .imm, .volatile, false, false, .upTo 0 3⟩,
  /- TRIPS -/ ⟨0x20, .u36, 0, .ro, .one 0x0, .none, .volatile, false, false, .any⟩,
  /- LASTRY -/ ⟨0x21, .u8, 0, .ro, .one 0x0, .none, .volatile, false, false, .any⟩,
  /- ONCOUNT -/ ⟨0x22, .u36, 0, .ro, .one 0x0, .none, .volatile, false, false, .any⟩]

/-- Rows of 0x2100. -/
def rowsLeg : List ObjRow := [
  /- CMD -/ ⟨0x01, .u8, 0, .rw, .one 0x0, .imm, .volatile, false, false, .upTo 0 3⟩,
  /- CLR -/ ⟨0x02, .bool, 0, .wo, .one 0, .imm, .volatile, false, false, .upTo 0 1⟩,
  /- STATUS -/ ⟨0x03, .u36, 0, .ro, .one 0x0, .none, .volatile, false, true, .any⟩,
  /- SENSE -/ ⟨0x04, .u16, 0, .ro, .one 0x0, .none, .volatile, false, true, .any⟩,
  /- ILOAD -/ ⟨0x05, .u16, 0, .rwc, .one 0x3E8, .cmt, .saved, false, false, .upTo 1 15000⟩,
  /- TRIPSEL -/ ⟨0x06, .u8, 0, .rwc, .one 0xF, .cmt, .saved, true, false, .upTo 3 15⟩,
  /- SLOPE -/ ⟨0x07, .u8, 0, .rwc, .one 0x1, .cmt, .saved, false, false, .upTo 0 3⟩,
  /- DEADT -/ ⟨0x08, .u8, 0, .rwc, .one 0x19, .cmt, .saved, true, false, .upTo 5 100⟩,
  /- SRATE -/ ⟨0x09, .u16, 0, .rwc, .one 0x64, .cmt, .saved, false, false, .upTo 2 10000⟩,
  /- DUTY -/ ⟨0x0A, .u16, 0, .rwc, .one 0x0, .cmt, .saved, false, false, .any⟩,
  /- SOUT -/ ⟨0x0B, .bool, 0, .rw, .one 0x0, .imm, .volatile, false, false, .upTo 0 1⟩,
  /- SOUTG -/ ⟨0x0C, .u8, 0, .rw, .one 0x0, .imm, .volatile, false, false, .upTo 0 3⟩,
  /- TRIPS -/ ⟨0x20, .u36, 0, .ro, .one 0x0, .none, .volatile, false, false, .any⟩]

/-- Rows of 0x2110. -/
def rowsPair : List ObjRow := [
  /- MODE -/ ⟨0x01, .u8, 0, .rwc, .one 0x1, .cmt, .saved, true, false, .upTo 0 1⟩,
  /- CMD -/ ⟨0x02, .u36, 0, .rw, .one 0x200000000, .imm, .volatile, false, false, .special⟩,
  /- STATUS -/ ⟨0x03, .u36, 0, .ro, .one 0x0, .none, .volatile, false, true, .any⟩,
  /- SENSE -/ ⟨0x04, .u16, 0, .ro, .one 0x0, .none, .volatile, false, true, .any⟩,
  /- SOUT -/ ⟨0x05, .bool, 0, .rw, .one 0x0, .imm, .volatile, false, false, .upTo 0 1⟩,
  /- POS -/ ⟨0x06, .s36, 0, .rw, .one 0x0, .imm, .saved, false, true, .any⟩,
  /- ILOAD -/ ⟨0x07, .u16, 0, .rwc, .one 0x1388, .cmt, .saved, false, false, .upTo 1 15000⟩,
  /- PWMF -/ ⟨0x08, .u16, 0, .rwc, .one 0x4E20, .cmt, .saved, false, false, .upTo 1000 25000⟩,
  /- ILIM -/ ⟨0x09, .u16, 0, .rwc, .one 0x0, .cmt, .saved, false, false, .any⟩,
  /- RAMPUP -/ ⟨0x0A, .u16, 0, .rwc, .one 0x64, .cmt, .saved, false, false, .upTo 1 10000⟩,
  /- RAMPDN -/ ⟨0x0B, .u16, 0, .rwc, .one 0x32, .cmt, .saved, false, false, .upTo 1 10000⟩,
  /- DWELL -/ ⟨0x0C, .u8, 0, .rwc, .one 0x14, .cmt, .saved, true, false, .upTo 5 200⟩,
  /- POSSRC -/ ⟨0x0D, .u8, 0, .rwc, .one 0x0, .cmt, .saved, false, false, .upTo 0 3⟩,
  /- HALLA -/ ⟨0x0E, .u8, 0, .rwc, .one 0xFE, .cmt, .saved, false, false, .special⟩,
  /- HALLB -/ ⟨0x0F, .u8, 0, .rwc, .one 0xFE, .cmt, .saved, false, false, .special⟩,
  /- ENDN -/ ⟨0x10, .s36, 0, .rwc, .one 0x0, .cmt, .saved, false, false, .signed (-8388608) 8388607⟩,
  /- ENDP -/ ⟨0x11, .s36, 0, .rwc, .one 0x0, .cmt, .saved, false, false, .signed (-8388608) 8388607⟩,
  /- ENDZ -/ ⟨0x12, .u16, 0, .rwc, .one 0x14, .cmt, .saved, false, false, .upTo 1 1000⟩,
  /- STALLT -/ ⟨0x13, .u16, 0, .rwc, .one 0xC8, .cmt, .saved, false, false, .upTo 10 2000⟩,
  /- KSLOPE -/ ⟨0x14, .u16, 0, .rwc, .one 0x1F4, .cmt, .saved, false, false, .any⟩,
  /- AP -/ ⟨0x15, .u8, 0, .rwc, .one 0x0, .cmt, .saved, true, false, .mask 0x03⟩,
  /- KF -/ ⟨0x16, .fix, 16, .rwc, .one 0x190000, .cmt, .saved, true, false, .upTo 65536 13107200⟩,
  /- FPINCH -/ ⟨0x17, .u16, 0, .rwc, .one 0x50, .cmt, .saved, true, false, .upTo 20 500⟩,
  /- PINCHT -/ ⟨0x18, .u8, 0, .rwc, .one 0x5, .cmt, .saved, true, false, .upTo 1 20⟩,
  /- PZ -/ ⟨0x19, .s36, 0, .rwc, .one 0x0, .cmt, .saved, true, false, .signed (-8388608) 8388607⟩,
  /- REVC -/ ⟨0x1A, .u36, 0, .rwc, .one 0xC8, .cmt, .saved, true, false, .upTo 1 1000000⟩,
  /- BLANK -/ ⟨0x1B, .u16, 0, .rwc, .one 0x96, .cmt, .saved, false, false, .upTo 0 500⟩,
  /- PARKIN -/ ⟨0x1C, .u8, 0, .rwc, .one 0xFE, .cmt, .saved, false, false, .special⟩,
  /- PARKT -/ ⟨0x1D, .u16, 0, .rwc, .one 0xBB8, .cmt, .saved, false, false, .upTo 100 10000⟩,
  /- PDUTY -/ ⟨0x1E, .u16, 0, .rwc, .one 0x8000, .cmt, .saved, false, false, .any⟩,
  /- SHEDACT -/ ⟨0x1F, .u8, 0, .rwc, .one 0x0, .cmt, .saved, false, false, .upTo 0 2⟩,
  /- LOWD -/ ⟨0x20, .u16, 0, .rwc, .one 0x8000, .cmt, .saved, false, false, .any⟩,
  /- POLICY -/ ⟨0x21, .u8, 0, .rwc, .one 0x1, .cmt, .saved, true, false, .upTo 0 3⟩,
  /- HOLDT -/ ⟨0x22, .u16, 0, .rwc, .one 0x0, .cmt, .saved, true, false, .upTo 0 600⟩,
  /- IREF -/ ⟨0x23, .dom, 0, .rwA, .zeros 32, .cyc, .saved, false, false, .any⟩,
  /- LEARN -/ ⟨0x24, .bool, 0, .rw, .one 0x1, .imm, .saved, false, false, .upTo 0 1⟩,
  /- STALLS -/ ⟨0x30, .u36, 0, .ro, .one 0x0, .none, .volatile, false, false, .any⟩,
  /- PINCHES -/ ⟨0x31, .u36, 0, .ro, .one 0x0, .none, .volatile, false, false, .any⟩,
  /- RUNS -/ ⟨0x32, .u36, 0, .ro, .one 0x0, .none, .volatile, false, false, .any⟩]

/-- Rows of 0x2200. -/
def rowsValve : List ObjRow := [
  /- CMD -/ ⟨0x01, .u8, 0, .rw, .one 0x0, .imm, .volatile, false, false, .upTo 0 1⟩,
  /- CLR -/ ⟨0x02, .bool, 0, .wo, .one 0, .imm, .volatile, false, false, .upTo 0 1⟩,
  /- STATUS -/ ⟨0x03, .u36, 0, .ro, .one 0x0, .none, .volatile, false, true, .any⟩,
  /- SENSE -/ ⟨0x04, .u16, 0, .ro, .one 0x0, .none, .volatile, false, true, .any⟩,
  /- IPEAK -/ ⟨0x05, .u16, 0, .rwc, .one 0x7D0, .cmt, .saved, true, false, .upTo 500 6000⟩,
  /- IHOLD -/ ⟨0x06, .u16, 0, .rwc, .one 0x1F4, .cmt, .saved, true, false, .upTo 200 2000⟩,
  /- PKMAX -/ ⟨0x07, .u16, 0, .rwc, .one 0x64, .cmt, .saved, true, false, .upTo 1 2000⟩,
  /- PKEXT -/ ⟨0x08, .u8, 0, .rwc, .one 0x14, .cmt, .saved, false, false, .upTo 0 200⟩,
  /- PIDET -/ ⟨0x09, .bool, 0, .rwc, .one 0x1, .cmt, .saved, false, false, .upTo 0 1⟩,
  /- STARTMAX -/ ⟨0x0A, .u16, 0, .rwc, .one 0x0, .cmt, .saved, true, false, .upTo 0 1000⟩,
  /- EPK -/ ⟨0x0B, .u16, 0, .rwc, .one 0x7D0, .cmt, .saved, true, false, .upTo 10 5000⟩,
  /- DWIN -/ ⟨0x0C, .u8, 0, .rwc, .one 0xA, .cmt, .saved, true, false, .upTo 1 60⟩,
  /- DLIM -/ ⟨0x0D, .u8, 0, .rwc, .one 0x64, .cmt, .saved, true, false, .upTo 5 100⟩,
  /- RELT -/ ⟨0x0E, .u8, 0, .rwc, .one 0x14, .cmt, .saved, false, false, .upTo 0 100⟩,
  /- DIAG -/ ⟨0x0F, .bool, 0, .rwc, .one 0x1, .cmt, .saved, false, false, .upTo 0 1⟩,
  /- DIAGP -/ ⟨0x10, .u16, 0, .rwc, .one 0x64, .cmt, .saved, false, false, .upTo 10 10000⟩,
  /- SRATE -/ ⟨0x11, .u16, 0, .rwc, .one 0xA, .cmt, .saved, false, false, .upTo 2 10000⟩,
  /- POLICY -/ ⟨0x12, .u8, 0, .rwc, .one 0x0, .cmt, .saved, true, false, .upTo 0 1⟩,
  /- HOLDT -/ ⟨0x13, .u16, 0, .rwc, .one 0x0, .cmt, .saved, true, false, .upTo 0 600⟩,
  /- SOUT -/ ⟨0x14, .bool, 0, .rw, .one 0x0, .imm, .volatile, false, false, .upTo 0 1⟩,
  /- SOUTG -/ ⟨0x15, .u8, 0, .rw, .one 0x0, .imm, .volatile, false, false, .upTo 0 3⟩,
  /- TPI -/ ⟨0x20, .u16, 0, .ro, .one 0x0, .none, .volatile, false, false, .any⟩,
  /- TREL -/ ⟨0x21, .u16, 0, .ro, .one 0x0, .none, .volatile, false, false, .any⟩,
  /- EPKL -/ ⟨0x22, .u16, 0, .ro, .one 0x0, .none, .volatile, false, false, .any⟩,
  /- ERECL -/ ⟨0x23, .u16, 0, .ro, .one 0x0, .none, .volatile, false, false, .any⟩,
  /- RFRAC -/ ⟨0x24, .u16, 0, .ro, .one 0x0, .none, .volatile, false, false, .any⟩,
  /- ACTS -/ ⟨0x25, .u36, 0, .ro, .one 0x0, .none, .volatile, false, false, .any⟩,
  /- NOPULLS -/ ⟨0x26, .u36, 0, .ro, .one 0x0, .none, .volatile, false, false, .any⟩,
  /- TRIPS -/ ⟨0x27, .u36, 0, .ro, .one 0x0, .none, .volatile, false, false, .any⟩]

/-- Rows of 0x2210. -/
def rowsBank : List ObjRow := [
  /- ENABLE -/ ⟨0x01, .bool, 0, .rwc, .one 0x1, .cmt, .saved, true, false, .upTo 0 1⟩,
  /- BSTATUS -/ ⟨0x02, .u36, 0, .ro, .one 0x0, .none, .volatile, false, true, .any⟩,
  /- BCLR -/ ⟨0x03, .bool, 0, .wo, .one 0, .imm, .volatile, false, false, .upTo 0 1⟩,
  /- PEAKS -/ ⟨0x04, .u36, 0, .ro, .one 0x0, .none, .volatile, false, false, .any⟩,
  /- REFUSED -/ ⟨0x05, .u36, 0, .ro, .one 0x0, .none, .volatile, false, false, .any⟩,
  /- BATPKS -/ ⟨0x06, .u36, 0, .ro, .one 0x0, .none, .volatile, false, false, .any⟩]

/-- Rows of 0x2220. -/
def rowsBoost : List ObjRow := [
  /- ENABLE -/ ⟨0x01, .bool, 0, .rwc, .one 0x0, .cmt, .saved, true, false, .upTo 0 1⟩,
  /- VSET -/ ⟨0x02, .u8, 0, .rwc, .one 0x3C, .cmt, .saved, true, false, .upTo 40 65⟩,
  /- VBMIN -/ ⟨0x03, .u8, 0, .rwc, .one 0x28, .cmt, .saved, false, false, .upTo 20 60⟩,
  /- BCAP -/ ⟨0x04, .u16, 0, .rwc, .one 0x1D6, .cmt, .saved, true, false, .upTo 100 470⟩,
  /- BILIM -/ ⟨0x05, .u16, 0, .rwc, .one 0x7D0, .cmt, .saved, true, false, .upTo 500 4000⟩,
  /- BCHT -/ ⟨0x06, .u16, 0, .rwc, .one 0x64, .cmt, .saved, false, false, .upTo 10 1000⟩,
  /- VOUT -/ ⟨0x07, .u16, 0, .ro, .one 0x0, .none, .volatile, false, true, .any⟩,
  /- CEST -/ ⟨0x08, .u16, 0, .ro, .one 0x0, .none, .volatile, false, false, .any⟩,
  /- BSTAT -/ ⟨0x09, .u8, 0, .ro, .one 0x0, .none, .volatile, false, false, .any⟩,
  /- BCLR -/ ⟨0x0A, .bool, 0, .wo, .one 0, .imm, .volatile, false, false, .upTo 0 1⟩,
  /- EDRAW -/ ⟨0x0B, .u36, 0, .ro, .one 0x0, .none, .volatile, false, false, .any⟩,
  /- ERECT -/ ⟨0x0C, .u36, 0, .ro, .one 0x0, .none, .volatile, false, false, .any⟩]

/-- Rows of 0x2400. -/
def rowsSink : List ObjRow := [
  /- LEVEL -/ ⟨0x01, .u16, 0, .rw, .one 0x0, .imm, .volatile, false, false, .any⟩,
  /- FADE -/ ⟨0x02, .u16, 0, .rw, .one 0x0, .imm, .saved, false, false, .upTo 0 20000⟩,
  /- CLR -/ ⟨0x03, .bool, 0, .wo, .one 0, .imm, .volatile, false, false, .upTo 0 1⟩,
  /- STATUS -/ ⟨0x04, .u36, 0, .ro, .one 0x0, .none, .volatile, false, true, .any⟩,
  /- SENSE -/ ⟨0x05, .u16, 0, .ro, .one 0x0, .none, .volatile, false, true, .any⟩,
  /- ISET -/ ⟨0x06, .u8, 0, .rwc, .one 0x14, .cmt, .saved, false, false, .upTo 10 100⟩,
  /- DFREQ -/ ⟨0x07, .u16, 0, .rwc, .one 0x190, .cmt, .saved, false, false, .upTo 100 2000⟩,
  /- CURVE -/ ⟨0x08, .u8, 0, .rwc, .one 0x1, .cmt, .saved, false, false, .upTo 0 2⟩,
  /- VHDR -/ ⟨0x09, .u16, 0, .rwc, .one 0x7D0, .cmt, .saved, false, false, .upTo 500 36000⟩,
  /- VSHORT -/ ⟨0x0A, .u16, 0, .rwc, .one 0x1F40, .cmt, .saved, true, false, .upTo 1500 36000⟩,
  /- SHEDLVL -/ ⟨0x0B, .u16, 0, .rwc, .one 0x4000, .cmt, .saved, false, false, .any⟩,
  /- SHEDT -/ ⟨0x0C, .u16, 0, .rwc, .one 0x3C, .cmt, .saved, false, false, .upTo 1 3600⟩,
  /- SRATE -/ ⟨0x0D, .u16, 0, .rwc, .one 0x64, .cmt, .saved, false, false, .upTo 10 10000⟩,
  /- GAMMA -/ ⟨0x0E, .dom, 0, .rwc, .special, .cmt, .saved, false, false, .any⟩,
  /- SOUT -/ ⟨0x0F, .bool, 0, .rw, .one 0x0, .imm, .volatile, false, false, .upTo 0 1⟩,
  /- SOUTG -/ ⟨0x10, .u8, 0, .rw, .one 0x0, .imm, .volatile, false, false, .upTo 0 3⟩,
  /- XNOW -/ ⟨0x20, .u16, 0, .ro, .one 0x0, .none, .volatile, false, false, .any⟩]

/-- Rows of 0x2420. -/
def rowsChain : List ObjRow := [
  /- CEN -/ ⟨0x01, .bool, 0, .rwc, .one 0x0, .cmt, .saved, false, false, .upTo 0 1⟩,
  /- CHN -/ ⟨0x02, .u8, 0, .rwc, .one 0x1, .cmt, .saved, false, false, .upTo 1 64⟩,
  /- CCLK -/ ⟨0x03, .u8, 0, .rwc, .one 0x2, .cmt, .saved, false, false, .upTo 0 4⟩,
  /- CPER -/ ⟨0x04, .u16, 0, .rwc, .one 0x14, .cmt, .saved, false, false, .upTo 1 1000⟩,
  /- CBASE -/ ⟨0x05, .u36, 0, .rwc, .one 0x877C00, .cmt, .saved, false, false, .any⟩,
  /- CCURVE -/ ⟨0x06, .u8, 0, .rwc, .one 0x0, .cmt, .saved, false, false, .upTo 0 2⟩,
  /- CSHED -/ ⟨0x07, .u8, 0, .rwc, .one 0x80, .cmt, .saved, false, false, .any⟩,
  /- CSHEDT -/ ⟨0x08, .u16, 0, .rwc, .one 0x3C, .cmt, .saved, false, false, .upTo 1 3600⟩,
  /- CGO -/ ⟨0x09, .bool, 0, .rw, .one 0x0, .imm, .volatile, false, false, .upTo 0 1⟩,
  /- CIMG -/ ⟨0x0A, .dom, 0, .rw, .zeros 0, .imm, .volatile, false, false, .any⟩,
  /- CGAMMA -/ ⟨0x0B, .dom, 0, .rwc, .special, .cmt, .saved, false, false, .any⟩,
  /- CSTAT -/ ⟨0x0C, .u36, 0, .ro, .one 0x0, .none, .volatile, false, false, .any⟩,
  /- REFRESH -/ ⟨0x20, .u36, 0, .ro, .one 0x0, .none, .volatile, false, false, .any⟩]

/-- Rows of 0x2430. -/
def rowsMatrix : List ObjRow := [
  /- MEN -/ ⟨0x01, .bool, 0, .rwc, .one 0x0, .cmt, .saved, false, false, .upTo 0 1⟩,
  /- MROWS -/ ⟨0x02, .u8, 0, .rwc, .one 0x10, .cmt, .saved, false, false, .upTo 1 128⟩,
  /- MCOLS -/ ⟨0x03, .u16, 0, .rwc, .one 0x40, .cmt, .saved, false, false, .upTo 4 512⟩,
  /- MBITS -/ ⟨0x04, .u8, 0, .rwc, .one 0x4, .cmt, .saved, false, false, .oneOf [4, 8]⟩,
  /- MCLK -/ ⟨0x05, .u8, 0, .rwc, .one 0x2, .cmt, .saved, false, false, .upTo 0 2⟩,
  /- UNIT -/ ⟨0x06, .u16, 0, .rwc, .one 0xA, .cmt, .saved, false, false, .upTo 2 1000⟩,
  /- MFP -/ ⟨0x07, .u16, 0, .rwc, .one 0x64, .cmt, .saved, false, false, .upTo 10 1000⟩,
  /- MBASE0 -/ ⟨0x08, .u36, 0, .rwc, .one 0x870000, .cmt, .saved, false, false, .any⟩,
  /- MBASE1 -/ ⟨0x09, .u36, 0, .rwc, .one 0x872000, .cmt, .saved, false, false, .any⟩,
  /- FSMODE -/ ⟨0x0A, .u8, 0, .rwc, .one 0x0, .cmt, .saved, false, false, .mask 0x03⟩,
  /- FSTO -/ ⟨0x0B, .u16, 0, .rwc, .one 0x64, .cmt, .saved, false, false, .upTo 10 10000⟩,
  /- MDIM -/ ⟨0x0C, .u8, 0, .rw, .one 0xFF, .per, .saved, false, false, .upTo 1 255⟩,
  /- MSHED -/ ⟨0x0D, .u8, 0, .rwc, .one 0x40, .cmt, .saved, false, false, .any⟩,
  /- MSHEDT -/ ⟨0x0E, .u16, 0, .rwc, .one 0x3C, .cmt, .saved, false, false, .upTo 1 3600⟩,
  /- MSHOW -/ ⟨0x0F, .u8, 0, .rw, .one 0x0, .imm, .volatile, false, false, .upTo 0 1⟩,
  /- MSTAT -/ ⟨0x10, .u36, 0, .ro, .one 0x0, .none, .volatile, false, true, .any⟩,
  /- FRAMES -/ ⟨0x20, .u36, 0, .ro, .one 0x0, .none, .volatile, false, false, .any⟩,
  /- SLIPS -/ ⟨0x21, .u36, 0, .ro, .one 0x0, .none, .volatile, false, false, .any⟩]

/-- Rows of 0x2500. -/
def rowsLoop : List ObjRow := [
  /- MODE -/ ⟨0x01, .u8, 0, .rw, .one 0x0, .imm, .saved, false, false, .upTo 0 2⟩,
  /- ENABLE -/ ⟨0x02, .bool, 0, .rwc, .one 0x0, .cmt, .saved, true, false, .upTo 0 1⟩,
  /- STATUS -/ ⟨0x03, .u36, 0, .ro, .one 0x0, .none, .volatile, false, true, .any⟩,
  /- LAW -/ ⟨0x04, .u8, 0, .rwc, .one 0x0, .cmt, .saved, false, false, .upTo 0 5⟩,
  /- TS -/ ⟨0x05, .u36, 0, .rwc, .one 0x186A0, .cmt, .saved, false, false, .special⟩,
  /- PHASE -/ ⟨0x06, .u36, 0, .rwc, .one 0x0, .cmt, .saved, false, false, .special⟩,
  /- FB -/ ⟨0x07, .u36, 0, .rwc, .one 0x0, .cmt, .saved, false, false, .any⟩,
  /- FBGAIN -/ ⟨0x08, .fix, 30, .rwc, .one 0x40000000, .cmt, .saved, false, false, .any⟩,
  /- FBOFS -/ ⟨0x09, .s36, 0, .rwc, .one 0x0, .cmt, .saved, false, false, .any⟩,
  /- SPSRC -/ ⟨0x0A, .u36, 0, .rwc, .one 0x0, .cmt, .saved, false, false, .any⟩,
  /- SPGAIN -/ ⟨0x0B, .fix, 30, .rwc, .one 0x40000000, .cmt, .saved, false, false, .any⟩,
  /- SPOFS -/ ⟨0x0C, .s36, 0, .rwc, .one 0x0, .cmt, .saved, false, false, .any⟩,
  /- SP -/ ⟨0x0D, .fix, 30, .rw, .one 0x0, .imm, .volatile, false, true, .any⟩,
  /- SPRATE -/ ⟨0x0E, .fix, 30, .rwc, .one 0x0, .cmt, .saved, false, false, .any⟩,
  /- AUXSRC -/ ⟨0x0F, .u36, 0, .rwc, .one 0x0, .cmt, .saved, false, false, .any⟩,
  /- AUXGAIN -/ ⟨0x10, .fix, 30, .rwc, .one 0x40000000, .cmt, .saved, false, false, .any⟩,
  /- AUXOFS -/ ⟨0x11, .s36, 0, .rwc, .one 0x0, .cmt, .saved, false, false, .any⟩,
  /- SCHSRC -/ ⟨0x12, .u36, 0, .rwc, .one 0x0, .cmt, .saved, false, false, .any⟩,
  /- SCHGAIN -/ ⟨0x13, .fix, 30, .rwc, .one 0x40000000, .cmt, .saved, false, false, .any⟩,
  /- SCHOFS -/ ⟨0x14, .s36, 0, .rwc, .one 0x0, .cmt, .saved, false, false, .any⟩,
  /- NREG -/ ⟨0x15, .u8, 0, .rwc, .one 0x1, .cmt, .saved, false, false, .upTo 1 8⟩,
  /- BOUNDS -/ ⟨0x16, .dom, 0, .rwc, .zeros 8, .cmt, .saved, false, false, .any⟩,
  /- GAINS -/ ⟨0x17, .dom, 0, .rwc, .zeros 64, .cmt, .saved, true, false, .any⟩,
  /- SINK -/ ⟨0x18, .u36, 0, .rwc, .one 0x0, .cmt, .saved, true, false, .any⟩,
  /- YMIN -/ ⟨0x19, .fix, 30, .rwc, .one 0x0, .cmt, .saved, false, false, .any⟩,
  /- YMAX -/ ⟨0x1A, .fix, 30, .rwc, .one 0x40000000, .cmt, .saved, false, false, .any⟩,
  /- OUTMODE -/ ⟨0x1B, .u8, 0, .rwc, .one 0x0, .cmt, .saved, false, false, .upTo 0 1⟩,
  /- MANVAL -/ ⟨0x1C, .fix, 30, .rw, .one 0x0, .imm, .volatile, false, false, .any⟩,
  /- WAIT -/ ⟨0x1D, .u36, 0, .rwc, .one 0x0, .cmt, .saved, false, false, .any⟩,
  /- SAFE -/ ⟨0x1E, .u8, 0, .rwc, .one 0x0, .cmt, .saved, true, false, .upTo 0 2⟩,
  /- SAFEVAL -/ ⟨0x1F, .fix, 30, .rwc, .one 0x0, .cmt, .saved, true, false, .any⟩,
  /- MA -/ ⟨0x20, .fix, 24, .rwc, .one 0x0, .cmt, .saved, false, false, .any⟩,
  /- MB -/ ⟨0x21, .fix, 24, .rwc, .one 0x0, .cmt, .saved, false, false, .any⟩,
  /- ML -/ ⟨0x22, .fix, 24, .rwc, .one 0x0, .cmt, .saved, false, false, .upTo 0 16777216⟩,
  /- MDEAD -/ ⟨0x23, .u8, 0, .rwc, .one 0x0, .cmt, .saved, false, false, .upTo 0 15⟩,
  /- RTH -/ ⟨0x24, .fix, 30, .rwc, .one 0x0, .cmt, .saved, false, false, .any⟩,
  /- RWIN -/ ⟨0x25, .u16, 0, .rwc, .one 0x64, .cmt, .saved, false, false, .upTo 1 65535⟩,
  /- PLAUSACT -/ ⟨0x26, .u8, 0, .rwc, .one 0x0, .cmt, .saved, true, false, .upTo 0 1⟩,
  /- Y -/ ⟨0x30, .fix, 30, .ro, .one 0x0, .none, .volatile, false, true, .any⟩,
  /- FBV -/ ⟨0x31, .fix, 30, .ro, .one 0x0, .none, .volatile, false, false, .any⟩,
  /- RESID -/ ⟨0x32, .fix, 30, .ro, .one 0x0, .none, .volatile, false, false, .any⟩,
  /- REGION -/ ⟨0x33, .u8, 0, .ro, .one 0x0, .none, .volatile, false, true, .any⟩,
  /- PLACE -/ ⟨0x34, .u16, 0, .ro, .one 0xFFFF, .none, .volatile, false, false, .any⟩,
  /- OVRS -/ ⟨0x35, .u36, 0, .ro, .one 0x0, .none, .volatile, false, false, .any⟩,
  /- INVS -/ ⟨0x36, .u36, 0, .ro, .one 0x0, .none, .volatile, false, false, .any⟩,
  /- STEPS -/ ⟨0x37, .u36, 0, .ro, .one 0x0, .none, .volatile, false, false, .any⟩,
  /- INTEG -/ ⟨0x38, .u72, 0, .ro, .two 0 0x0, .none, .volatile, false, false, .any⟩]

/-- Rows of 0x2300. -/
def rowsSw : List ObjRow := [
  /- MODE -/ ⟨0x01, .u8, 0, .rwc, .one 0x1, .cmt, .saved, true, false, .upTo 0 2⟩,
  /- FOUR -/ ⟨0x02, .bool, 0, .rwc, .one 0x0, .cmt, .saved, false, false, .upTo 0 1⟩,
  /- WET -/ ⟨0x03, .u8, 0, .rwc, .one 0x0, .cmt, .saved, false, false, .upTo 0 1⟩,
  /- DEB -/ ⟨0x04, .u16, 0, .rwc, .one 0x1388, .cmt, .saved, false, false, .upTo 1 65535⟩,
  /- CHATT -/ ⟨0x05, .u16, 0, .rwc, .one 0x1F4, .cmt, .saved, false, false, .upTo 0 10000⟩,
  /- TACT -/ ⟨0x06, .u16, 0, .rwc, .one 0x7D0, .cmt, .saved, false, false, .upTo 600 20000⟩,
  /- TOPEN -/ ⟨0x07, .u16, 0, .rwc, .one 0x1770, .cmt, .saved, false, false, .upTo 1600 30000⟩,
  /- WAKE -/ ⟨0x08, .u8, 0, .rwc, .one 0x0, .cmt, .saved, false, false, .special⟩,
  /- WCNT -/ ⟨0x09, .u8, 0, .rwc, .one 0x2, .cmt, .saved, false, false, .upTo 1 8⟩,
  /- EVEN -/ ⟨0x0A, .bool, 0, .rw, .one 0x1, .imm, .saved, false, false, .upTo 0 1⟩,
  /- STATE -/ ⟨0x0B, .u8, 0, .ro, .one 0x1, .none, .volatile, false, true, .any⟩,
  /- STATUS -/ ⟨0x0C, .u36, 0, .ro, .one 0x0, .none, .volatile, false, true, .any⟩,
  /- CHANGES -/ ⟨0x20, .u36, 0, .ro, .one 0x0, .none, .volatile, false, false, .any⟩,
  /- FALLBKS -/ ⟨0x21, .u36, 0, .ro, .one 0x0, .none, .volatile, false, false, .any⟩]

/-- Rows of 0x2340. -/
def rowsIo : List ObjRow := [
  /- MODE -/ ⟨0x01, .u8, 0, .rwc, .one 0x0, .cmt, .saved, true, false, .upTo 0 4⟩,
  /- FOUR -/ ⟨0x02, .bool, 0, .rwc, .one 0x0, .cmt, .saved, false, false, .upTo 0 1⟩,
  /- WET -/ ⟨0x03, .u8, 0, .rwc, .one 0x0, .cmt, .saved, false, false, .upTo 0 1⟩,
  /- DEB -/ ⟨0x04, .u16, 0, .rwc, .one 0x1388, .cmt, .saved, false, false, .upTo 1 65535⟩,
  /- CHATT -/ ⟨0x05, .u16, 0, .rwc, .one 0x1F4, .cmt, .saved, false, false, .upTo 0 10000⟩,
  /- TACT -/ ⟨0x06, .u16, 0, .rwc, .one 0x7D0, .cmt, .saved, false, false, .upTo 600 20000⟩,
  /- TOPEN -/ ⟨0x07, .u16, 0, .rwc, .one 0x1770, .cmt, .saved, false, false, .upTo 1600 30000⟩,
  /- ILOAD -/ ⟨0x08, .u16, 0, .rwc, .one 0x1F4, .cmt, .saved, false, false, .upTo 1 500⟩,
  /- CMD -/ ⟨0x09, .u8, 0, .rw, .one 0x0, .imm, .volatile, false, false, .upTo 0 1⟩,
  /- CLR -/ ⟨0x0A, .bool, 0, .wo, .one 0, .imm, .volatile, false, false, .upTo 0 1⟩,
  /- EVEN -/ ⟨0x0B, .bool, 0, .rw, .one 0x1, .imm, .saved, false, false, .upTo 0 1⟩,
  /- STATE -/ ⟨0x0C, .u8, 0, .ro, .one 0x1, .none, .volatile, false, true, .any⟩,
  /- STATUS -/ ⟨0x0D, .u36, 0, .ro, .one 0x0, .none, .volatile, false, true, .any⟩,
  /- CHANGES -/ ⟨0x20, .u36, 0, .ro, .one 0x0, .none, .volatile, false, false, .any⟩,
  /- TRIPS -/ ⟨0x21, .u36, 0, .ro, .one 0x0, .none, .volatile, false, false, .any⟩]

/-- Rows of 0x2360. -/
def rowsAn : List ObjRow := [
  /- RANGE -/ ⟨0x01, .u8, 0, .rwc, .one 0x0, .cmt, .saved, false, false, .upTo 0 2⟩,
  /- SRATE -/ ⟨0x02, .u16, 0, .rwc, .one 0x64, .cmt, .saved, false, false, .upTo 2 10000⟩,
  /- AVG -/ ⟨0x03, .u8, 0, .rwc, .one 0x0, .cmt, .saved, false, false, .upTo 0 6⟩,
  /- RAW -/ ⟨0x04, .u16, 0, .ro, .one 0x0, .none, .volatile, false, false, .any⟩,
  /- VALUE -/ ⟨0x05, .u16, 0, .ro, .one 0x0, .none, .volatile, false, true, .any⟩,
  /- STATUS -/ ⟨0x06, .u36, 0, .ro, .one 0x0, .none, .volatile, false, false, .any⟩,
  /- PLACE -/ ⟨0x07, .u36, 0, .ro, .one 0xF00000000, .none, .volatile, false, false, .any⟩,
  /- SAMPLES -/ ⟨0x20, .u36, 0, .ro, .one 0x0, .none, .volatile, false, false, .any⟩]

/-- Rows of 0x3000. -/
def rowsCan : List ObjRow := [
  /- MODE -/ ⟨0x01, .u8, 0, .rwc, .one 0x0, .cmt, .saved, true, false, .upTo 0 3⟩,
  /- PHY -/ ⟨0x02, .u8, 0, .rwc, .one 0x0, .cmt, .saved, true, false, .upTo 0 1⟩,
  /- FDMODE -/ ⟨0x03, .u8, 0, .rwc, .one 0x1, .cmt, .saved, false, false, .upTo 0 2⟩,
  /- NBT -/ ⟨0x04, .u36, 0, .rwc, .one 0xF878F0, .cmt, .saved, false, false, .any⟩,
  /- DBT -/ ⟨0x05, .u36, 0, .rwc, .one 0x38CE4000, .cmt, .saved, false, false, .any⟩,
  /- BUFCFG -/ ⟨0x06, .dom, 0, .rwc, .zeros 66, .cmt, .saved, false, false, .any⟩,
  /- FILTERS -/ ⟨0x07, .dom, 0, .rwc, .zeros 256, .cmt, .saved, false, false, .any⟩,
  /- HPF0 -/ ⟨0x08, .u72, 0, .rwc, .two 0 0x0, .cmt, .saved, false, false, .any⟩,
  /- HPF1 -/ ⟨0x09, .u72, 0, .rwc, .two 0 0x0, .cmt, .saved, false, false, .any⟩,
  /- FLOAD -/ ⟨0x0A, .dom, 0, .rwc, .zeros 64, .cmt, .saved, false, false, .any⟩,
  /- BOAUTO -/ ⟨0x0B, .bool, 0, .rwc, .one 0x1, .cmt, .saved, false, false, .upTo 0 1⟩,
  /- BORST -/ ⟨0x0C, .bool, 0, .wo, .one 0, .imm, .volatile, false, false, .upTo 0 1⟩,
  /- ZOPRX -/ ⟨0x0D, .u36, 0, .rwc, .one 0x0, .cmt, .saved, true, false, .mask 0x91FFFFFFF⟩,
  /- ZOPTX -/ ⟨0x0E, .u36, 0, .rwc, .one 0x0, .cmt, .saved, true, false, .mask 0x91FFFFFFF⟩,
  /- ZOPINT -/ ⟨0x0F, .u16, 0, .rwc, .one 0xA, .cmt, .saved, false, false, .upTo 1 10000⟩,
  /- WAKE -/ ⟨0x10, .u8, 0, .rwc, .one 0x0, .cmt, .saved, true, false, .special⟩,
  /- WUFID -/ ⟨0x11, .u72, 0, .rwc, .two 0 0x0, .cmt, .saved, false, false, .any⟩,
  /- WUFDATA -/ ⟨0x12, .u72, 0, .rwc, .two 0 0x0, .cmt, .saved, false, false, .any⟩,
  /- ABDC -/ ⟨0x13, .dom, 0, .rwc, .zeros 16, .cmt, .saved, false, false, .any⟩,
  /- ABDN -/ ⟨0x14, .u8, 0, .rwc, .one 0x4, .cmt, .saved, false, false, .upTo 1 16⟩,
  /- ABDT -/ ⟨0x15, .u16, 0, .rwc, .one 0x1F4, .cmt, .saved, false, false, .upTo 10 10000⟩,
  /- ABDRES -/ ⟨0x16, .u8, 0, .ro, .one 0xFF, .none, .volatile, false, false, .any⟩,
  /- STATUS -/ ⟨0x17, .u36, 0, .ro, .one 0x0, .none, .volatile, false, true, .any⟩,
  /- RXOK -/ ⟨0x20, .u36, 0, .ro, .one 0x0, .none, .volatile, false, false, .any⟩,
  /- TXOK -/ ⟨0x21, .u36, 0, .ro, .one 0x0, .none, .volatile, false, false, .any⟩,
  /- ERRS -/ ⟨0x22, .u36, 0, .ro, .one 0x0, .none, .volatile, false, false, .any⟩,
  /- BUSOFFS -/ ⟨0x23, .u36, 0, .ro, .one 0x0, .none, .volatile, false, false, .any⟩,
  /- NOMATCH -/ ⟨0x24, .u36, 0, .ro, .one 0x0, .none, .volatile, false, false, .any⟩,
  /- DROPS -/ ⟨0x25, .u36, 0, .ro, .one 0x0, .none, .volatile, false, false, .any⟩]

/-- Rows of 0x3100. -/
def rowsLin : List ObjRow := [
  /- MODE -/ ⟨0x01, .u8, 0, .rwc, .one 0x0, .cmt, .saved, true, false, .upTo 0 1⟩,
  /- BAUD -/ ⟨0x02, .u16, 0, .rwc, .one 0x4B00, .cmt, .saved, false, false, .upTo 1000 20000⟩,
  /- SCHED -/ ⟨0x03, .dom, 0, .rwc, .zeros 64, .cmt, .saved, false, false, .any⟩,
  /- FRAMES -/ ⟨0x04, .dom, 0, .rwc, .zeros 64, .cmt, .saved, false, false, .any⟩,
  /- RUNTBL -/ ⟨0x05, .u8, 0, .rw, .one 0x0, .imm, .saved, false, false, .oneOf [0, 1, 2, 3, 0xFF]⟩,
  /- WAKE -/ ⟨0x06, .u8, 0, .rwc, .one 0x0, .cmt, .saved, false, false, .mask 0x01⟩,
  /- STATUS -/ ⟨0x07, .u36, 0, .ro, .one 0x0, .none, .volatile, false, true, .any⟩,
  /- RXOK -/ ⟨0x20, .u36, 0, .ro, .one 0x0, .none, .volatile, false, false, .any⟩,
  /- TXOK -/ ⟨0x21, .u36, 0, .ro, .one 0x0, .none, .volatile, false, false, .any⟩,
  /- ERRS -/ ⟨0x22, .u36, 0, .ro, .one 0x0, .none, .volatile, false, false, .any⟩,
  /- COLLS -/ ⟨0x23, .u36, 0, .ro, .one 0x0, .none, .volatile, false, false, .any⟩]

/-- Rows of 0x3200. -/
def rowsEth : List ObjRow := [
  /- XGMODE -/ ⟨0x01, .u8, 0, .rwc, .one 0x0, .cmt, .saved, true, false, .special⟩,
  /- T1SMODE -/ ⟨0x02, .u8, 0, .rwc, .one 0x0, .cmt, .saved, true, false, .special⟩,
  /- PLCA0 -/ ⟨0x03, .u36, 0, .rwc, .one 0x820000, .cmt, .saved, false, false, .special⟩,
  /- PLCA1 -/ ⟨0x04, .u36, 0, .rwc, .one 0x820000, .cmt, .saved, false, false, .special⟩,
  /- MACADDR -/ ⟨0x05, .u72, 0, .rwc, .two 0 0, .cmt, .saved, true, false, .special⟩,
  /- VLANS -/ ⟨0x06, .dom, 0, .rwc, .special, .cmt, .saved, false, false, .any⟩,
  /- FDB -/ ⟨0x07, .dom, 0, .rwc, .zeros 256, .cmt, .saved, false, false, .any⟩,
  /- STREAMS -/ ⟨0x08, .dom, 0, .rwc, .zeros 192, .cmt, .saved, true, false, .any⟩,
  /- SHAPED -/ ⟨0x09, .u8, 0, .rwc, .one 0x0, .cmt, .saved, false, false, .mask 0xF0⟩,
  /- PCPMAP -/ ⟨0x0A, .u36, 0, .rwc, .one 0xFAC688, .cmt, .saved, false, false, .mask 0xFFFFFF⟩,
  /- PLOAD -/ ⟨0x0B, .dom, 0, .rwc, .zeros 2, .cmt, .saved, false, false, .any⟩,
  /- TSRC -/ ⟨0x0C, .u8, 0, .rwc, .one 0x0, .cmt, .saved, true, false, .upTo 0 2⟩,
  /- PTPCFG -/ ⟨0x0D, .u8, 0, .rwc, .one 0x18, .cmt, .saved, true, false, .special⟩,
  /- EPOCH -/ ⟨0x0E, .u72, 0, .rwc, .two 0 0x0, .cmt, .saved, true, false, .any⟩,
  /- PTPOFS -/ ⟨0x0F, .s36, 0, .ro, .one 0x0, .none, .volatile, false, true, .any⟩,
  /- GMID -/ ⟨0x10, .u72, 0, .ro, .two 0 0x0, .none, .volatile, false, false, .any⟩,
  /- PSTAT -/ ⟨0x11, .u36, 0, .ro, .one 0x0, .none, .volatile, false, true, .any⟩,
  /- PCOUNT -/ ⟨0x20, .dom, 0, .ro, .zeros 20, .none, .volatile, false, false, .any⟩,
  /- REMAP -/ ⟨0x21, .u36, 0, .ro, .one 0x0, .none, .volatile, false, false, .any⟩]

/-- Rows of 0x3300. -/
def rowsRing : List ObjRow := [
  /- EN -/ ⟨0x01, .bool, 0, .rwc, .one 0x0, .cmt, .saved, true, false, .upTo 0 1⟩,
  /- WIN -/ ⟨0x02, .u16, 0, .rwc, .one 0x0, .cmt, .saved, true, false, .upTo 0 2400⟩,
  /- TRAIN -/ ⟨0x03, .u16, 0, .rwc, .one 0x28, .cmt, .saved, true, false, .upTo 40 2400⟩,
  /- CDLY -/ ⟨0x04, .u8, 0, .rwc, .one 0x5, .cmt, .saved, false, false, .upTo 0 100⟩,
  /- CHAN -/ ⟨0x05, .dom, 0, .rwc, .zeros 16, .cmt, .saved, false, false, .any⟩,
  /- WAKE -/ ⟨0x06, .bool, 0, .rwc, .one 0x0, .cmt, .saved, true, false, .upTo 0 1⟩,
  /- RSTAT -/ ⟨0x07, .u36, 0, .ro, .one 0x0, .none, .volatile, false, true, .any⟩,
  /- ORDER -/ ⟨0x08, .u36, 0, .ro, .one 0x0, .none, .volatile, false, false, .any⟩,
  /- RTRIP -/ ⟨0x09, .u36, 0, .ro, .one 0x0, .none, .volatile, false, false, .any⟩,
  /- CYCS -/ ⟨0x20, .u36, 0, .ro, .one 0x0, .none, .volatile, false, false, .any⟩,
  /- ERRS -/ ⟨0x21, .u36, 0, .ro, .one 0x0, .none, .volatile, false, false, .any⟩,
  /- CVIOL -/ ⟨0x22, .u36, 0, .ro, .one 0x0, .none, .volatile, false, false, .any⟩,
  /- LOST -/ ⟨0x23, .u36, 0, .ro, .one 0x0, .none, .volatile, false, false, .any⟩,
  /- ORPHANS -/ ⟨0x24, .u36, 0, .ro, .one 0x0, .none, .volatile, false, false, .any⟩]

/-- Rows of 0x1200. -/
def rowsPower : List ObjRow := [
  /- REQ -/ ⟨0x01, .u8, 0, .rw, .one 0x0, .imm, .volatile, false, false, .upTo 0 2⟩,
  /- STATE -/ ⟨0x02, .u8, 0, .ro, .one 0x0, .none, .volatile, false, true, .any⟩,
  /- IDLEEN -/ ⟨0x03, .bool, 0, .rw, .one 0x1, .cyc, .saved, false, false, .upTo 0 1⟩,
  /- DRTO -/ ⟨0x04, .u16, 0, .rwc, .one 0x14, .cmt, .saved, false, false, .upTo 1 1000⟩,
  /- FORCEOFF -/ ⟨0x05, .bool, 0, .rwc, .one 0x0, .cmt, .saved, true, false, .upTo 0 1⟩,
  /- WTIMER -/ ⟨0x06, .u36, 0, .rw, .one 0x0, .imm, .volatile, false, false, .upTo 0 31536000⟩,
  /- WCAUSE -/ ⟨0x07, .u36, 0, .ro, .one 0x0, .none, .volatile, false, false, .any⟩,
  /- WSTAMP -/ ⟨0x08, .u36, 0, .ro, .one 0x0, .none, .volatile, false, false, .any⟩,
  /- LASTREF -/ ⟨0x09, .u36, 0, .ro, .one 0x0, .none, .volatile, false, false, .any⟩,
  /- REFCNT -/ ⟨0x0A, .dom, 0, .ro, .zeros 8, .none, .volatile, false, false, .any⟩,
  /- REFLOG -/ ⟨0x0B, .dom, 0, .ro, .zeros 32, .none, .volatile, false, false, .any⟩,
  /- T1SWAKE -/ ⟨0x0C, .u8, 0, .rwc, .one 0x0, .cmt, .saved, true, false, .mask 0x03⟩,
  /- T1SFLT -/ ⟨0x0D, .u16, 0, .rwc, .one 0x64, .cmt, .saved, false, false, .upTo 10 1000⟩,
  /- LINFLT -/ ⟨0x0E, .u8, 0, .rwc, .one 0x64, .cmt, .saved, false, false, .upTo 30 150⟩,
  /- REPLAY -/ ⟨0x0F, .u8, 0, .rwc, .one 0xF, .cmt, .saved, false, false, .mask 0x0F⟩,
  /- NETSLEEP -/ ⟨0x10, .bool, 0, .rwc, .one 0x0, .cmt, .saved, true, false, .upTo 0 1⟩,
  /- MYNODE -/ ⟨0x11, .u8, 0, .rwc, .one 0x1, .cmt, .saved, true, false, .upTo 1 254⟩,
  /- SMASTER -/ ⟨0x12, .bool, 0, .rwc, .one 0x0, .cmt, .saved, true, false, .upTo 0 1⟩,
  /- NODES -/ ⟨0x13, .dom, 0, .rwc, .zeros 24, .cmt, .saved, true, false, .any⟩,
  /- DAISYID -/ ⟨0x14, .u36, 0, .rwc, .one 0x0, .cmt, .saved, true, false, .mask 0x91FFFFFFF⟩,
  /- DPORT -/ ⟨0x15, .u16, 0, .rwc, .one 0xC1F1, .cmt, .saved, false, false, .any⟩,
  /- TQUIET -/ ⟨0x16, .u8, 0, .rwc, .one 0x5, .cmt, .saved, false, false, .upTo 1 60⟩,
  /- MAXAWAKE -/ ⟨0x17, .u16, 0, .rwc, .one 0x1E, .cmt, .saved, true, false, .upTo 1 1440⟩,
  /- RTO -/ ⟨0x18, .u16, 0, .rwc, .one 0x1F4, .cmt, .saved, false, false, .upTo 10 10000⟩,
  /- RINT -/ ⟨0x19, .u16, 0, .rwc, .one 0x5, .cmt, .saved, false, false, .upTo 1 600⟩,
  /- KEEP -/ ⟨0x1A, .bool, 0, .rw, .one 0x0, .imm, .volatile, false, false, .upTo 0 1⟩,
  /- KAINT -/ ⟨0x1B, .u16, 0, .rwc, .one 0x3E8, .cmt, .saved, false, false, .upTo 100 10000⟩,
  /- GEN -/ ⟨0x1C, .u8, 0, .ro, .one 0x0, .none, .volatile, false, false, .any⟩,
  /- DSTAT -/ ⟨0x1D, .u36, 0, .ro, .one 0x0, .none, .volatile, false, true, .any⟩,
  /- EXCL -/ ⟨0x1E, .dom, 0, .ro, .zeros 16, .none, .volatile, false, false, .any⟩,
  /- ENTRIES -/ ⟨0x20, .u36, 0, .ro, .one 0x0, .none, .volatile, false, false, .any⟩,
  /- WAKES -/ ⟨0x21, .u36, 0, .ro, .one 0x0, .none, .volatile, false, false, .any⟩,
  /- ROUNDS -/ ⟨0x22, .u36, 0, .ro, .one 0x0, .none, .volatile, false, false, .any⟩,
  /- OVRS -/ ⟨0x23, .u36, 0, .ro, .one 0x0, .none, .volatile, false, false, .any⟩]

/-- Rows of 0x2900. -/
def rowsAccess : List ObjRow := [
  /- ENABLE -/ ⟨0x01, .bool, 0, .rwc, .one 0x0, .cmt, .saved, true, false, .upTo 0 1⟩,
  /- MODE -/ ⟨0x02, .u8, 0, .rwc, .one 0x1, .cmt, .saved, true, false, .mask 0x03⟩,
  /- ILF -/ ⟨0x03, .u16, 0, .rwc, .one 0x1F4, .cmt, .saved, false, false, .upTo 100 1000⟩,
  /- PWRT -/ ⟨0x04, .u8, 0, .rwc, .one 0xA, .cmt, .saved, false, false, .upTo 2 50⟩,
  /- NSLOT -/ ⟨0x05, .u8, 0, .rwc, .one 0x4, .cmt, .saved, true, false, .upTo 1 8⟩,
  /- REPOLL -/ ⟨0x06, .u8, 0, .rwc, .one 0x2, .cmt, .saved, false, false, .upTo 0 3⟩,
  /- PPER -/ ⟨0x07, .u16, 0, .rwc, .one 0x3E8, .cmt, .saved, false, false, .upTo 200 10000⟩,
  /- STOPW -/ ⟨0x08, .u8, 0, .rwc, .one 0x4, .cmt, .saved, true, false, .upTo 1 12⟩,
  /- TOKENS -/ ⟨0x09, .dom, 0, .rwcN, .zeros 16, .cmt, .saved, true, false, .any⟩,
  /- CAPCFG -/ ⟨0x0A, .u36, 0, .rwc, .one 0x132322000, .cmt, .saved, false, false, .special⟩,
  /- POLL -/ ⟨0x0B, .bool, 0, .wo, .one 0, .imm, .volatile, false, false, .upTo 0 1⟩,
  /- CLR -/ ⟨0x0C, .bool, 0, .wo, .one 0, .imm, .volatile, false, false, .upTo 0 1⟩,
  /- LOCKCLR -/ ⟨0x0D, .bool, 0, .woR, .one 0, .imm, .volatile, false, false, .upTo 0 1⟩,
  /- RESULT -/ ⟨0x0E, .u36, 0, .ro, .one 0x0, .none, .volatile, false, true, .any⟩,
  /- STATUS -/ ⟨0x0F, .u36, 0, .ro, .one 0x0, .none, .volatile, false, true, .any⟩,
  /- FAILS -/ ⟨0x10, .u8, 0, .ro, .one 0x0, .none, .volatile, false, false, .any⟩,
  /- LOCKREM -/ ⟨0x11, .u36, 0, .ro, .one 0x0, .none, .volatile, false, false, .any⟩,
  /- LASTSTAMP -/ ⟨0x12, .u36, 0, .ro, .one 0x0, .none, .volatile, false, false, .any⟩,
  /- POLLS -/ ⟨0x20, .u36, 0, .ro, .one 0x0, .none, .volatile, false, false, .any⟩,
  /- GRANTS -/ ⟨0x21, .u36, 0, .ro, .one 0x0, .none, .volatile, false, false, .any⟩,
  /- DENIALS -/ ⟨0x22, .u36, 0, .ro, .one 0x0, .none, .volatile, false, false, .any⟩,
  /- LOCKS -/ ⟨0x23, .u36, 0, .ro, .one 0x0, .none, .volatile, false, false, .any⟩]

/-- Rows of 0x2800. -/
def rowsShed : List ObjRow := [
  /- CLASSMAP -/ ⟨0x01, .dom, 0, .rwc, .special, .cmt, .saved, true, false, .any⟩,
  /- TH12 -/ ⟨0x02, .dom, 0, .rwc, .special, .cmt, .saved, true, false, .any⟩,
  /- TH24 -/ ⟨0x03, .dom, 0, .rwc, .special, .cmt, .saved, true, false, .any⟩,
  /- SHFLT -/ ⟨0x04, .u16, 0, .rwc, .one 0x5, .cmt, .saved, false, false, .upTo 1 1000⟩,
  /- RSFLT -/ ⟨0x05, .u16, 0, .rwc, .one 0x1F4, .cmt, .saved, false, false, .upTo 10 10000⟩,
  /- ISUP -/ ⟨0x06, .u16, 0, .rwc, .one 0x5DC, .cmt, .saved, true, false, .upTo 100 2500⟩,
  /- VBAT -/ ⟨0x07, .u16, 0, .ro, .one 0x0, .none, .volatile, false, true, .any⟩,
  /- SSTAT -/ ⟨0x08, .u36, 0, .ro, .one 0x0, .none, .volatile, false, true, .any⟩,
  /- ICHG -/ ⟨0x09, .u36, 0, .ro, .one 0x0, .none, .volatile, false, false, .any⟩,
  /- PCHG -/ ⟨0x0A, .u36, 0, .ro, .one 0x0, .none, .volatile, false, false, .any⟩,
  /- PCAP -/ ⟨0x0B, .u36, 0, .ro, .one 0x0, .none, .volatile, false, false, .any⟩,
  /- TCASE -/ ⟨0x0C, .s36, 0, .ro, .one 0x0, .none, .volatile, false, false, .any⟩,
  /- MFACT -/ ⟨0x0D, .dom, 0, .ro, .zeros 8, .none, .volatile, false, false, .any⟩,
  /- XGRP -/ ⟨0x0E, .dom, 0, .ro, .zeros 4, .none, .volatile, false, false, .any⟩,
  /- XFACT -/ ⟨0x0F, .dom, 0, .ro, .zeros 16, .none, .volatile, false, false, .any⟩,
  /- SHEDS -/ ⟨0x20, .u36, 0, .ro, .one 0x0, .none, .volatile, false, false, .any⟩,
  /- CRANKS -/ ⟨0x21, .u36, 0, .ro, .one 0x0, .none, .volatile, false, false, .any⟩]

/-- Rows of 0x2810. -/
def rowsTgrp : List ObjRow := [
  /- RTH -/ ⟨0x01, .u16, 0, .konst, .special, .none, .factory, false, false, .any⟩,
  /- TDER -/ ⟨0x02, .u8, 0, .rwc, .one 0x9B, .cmt, .saved, true, false, .upTo 120 165⟩,
  /- CHG -/ ⟨0x03, .u16, 0, .ro, .one 0x0, .none, .volatile, false, false, .any⟩,
  /- HEAD -/ ⟨0x04, .u16, 0, .ro, .one 0x0, .none, .volatile, false, false, .any⟩,
  /- FACT -/ ⟨0x05, .dom, 0, .ro, .zeros 8, .none, .volatile, false, false, .any⟩,
  /- TJMAX -/ ⟨0x06, .s36, 0, .ro, .one 0x0, .none, .volatile, false, false, .any⟩,
  /- DERATES -/ ⟨0x20, .u36, 0, .ro, .one 0x0, .none, .volatile, false, false, .any⟩]

/-- Rows of 0x1300. -/
def rowsFault : List ObjRow := [
  /- SEVMAP -/ ⟨0x01, .dom, 0, .rwc, .special, .cmt, .saved, true, false, .any⟩,
  /- LATMIN -/ ⟨0x02, .u8, 0, .rwc, .one 0x1, .cmt, .saved, true, false, .upTo 0 4⟩,
  /- ERRNTH -/ ⟨0x03, .u8, 0, .rwc, .one 0x2, .cmt, .saved, true, false, .upTo 0 4⟩,
  /- SAFEMAP -/ ⟨0x04, .dom, 0, .rwc, .special, .cmt, .saved, true, false, .any⟩,
  /- SRCH -/ ⟨0x05, .dom, 0, .rwc, .special, .cmt, .saved, true, false, .any⟩,
  /- S4REACH -/ ⟨0x06, .u8, 0, .rwc, .one 0x7C, .cmt, .saved, true, false, .mask 0x7C⟩,
  /- FRZS3 -/ ⟨0x07, .bool, 0, .rwc, .one 0x0, .cmt, .saved, false, false, .upTo 0 1⟩,
  /- LATCH -/ ⟨0x08, .u36, 0, .ro, .one 0x0, .none, .volatile, false, true, .any⟩,
  /- LSTAMP -/ ⟨0x09, .u36, 0, .ro, .one 0x0, .none, .volatile, false, false, .any⟩,
  /- FCLR -/ ⟨0x0A, .bool, 0, .wo, .one 0, .imm, .volatile, false, false, .upTo 0 1⟩,
  /- STICKY -/ ⟨0x0B, .dom, 0, .ro, .zeros 128, .none, .volatile, false, false, .any⟩,
  /- STCLR -/ ⟨0x0C, .u16, 0, .wo, .one 0, .imm, .volatile, false, false, .special⟩,
  /- ERRNLVL -/ ⟨0x0D, .bool, 0, .rw, .one 0x0, .imm, .volatile, false, false, .upTo 0 1⟩,
  /- SAFEST -/ ⟨0x0E, .dom, 0, .ro, .zeros 6, .none, .volatile, false, false, .any⟩,
  /- SREL -/ ⟨0x0F, .bool, 0, .wo, .one 0, .imm, .volatile, false, false, .upTo 0 1⟩,
  /- FSTAT -/ ⟨0x10, .u36, 0, .ro, .one 0x0, .none, .volatile, false, true, .any⟩,
  /- DEGRADED -/ ⟨0x11, .dom, 0, .ro, .zeros 4, .none, .volatile, false, false, .any⟩,
  /- DGCLR -/ ⟨0x12, .u8, 0, .wo, .one 0, .imm, .volatile, false, false, .special⟩,
  /- FAULTS -/ ⟨0x20, .u36, 0, .ro, .one 0x0, .none, .volatile, false, false, .any⟩,
  /- CONSEQ -/ ⟨0x21, .u36, 0, .ro, .one 0x0, .none, .volatile, false, false, .any⟩,
  /- SAFES -/ ⟨0x22, .u36, 0, .ro, .one 0x0, .none, .volatile, false, false, .any⟩,
  /- RESETS -/ ⟨0x23, .u36, 0, .ro, .one 0x0, .none, .volatile, false, false, .any⟩]

/-- Rows of 0x6000. -/
def rowsDump : List ObjRow := [
  /- DUMPGO -/ ⟨0x01, .bool, 0, .wo, .one 0, .imm, .volatile, false, false, .upTo 0 1⟩,
  /- FWBASE -/ ⟨0x02, .u36, 0, .rw, .one 0x85E000, .imm, .saved, false, false, .special⟩,
  /- SNAPMAP -/ ⟨0x03, .dom, 0, .rw, .special, .imm, .saved, false, false, .any⟩,
  /- DSTAT -/ ⟨0x04, .u8, 0, .ro, .one 0x0, .none, .volatile, false, true, .any⟩,
  /- FRZ -/ ⟨0x05, .u36, 0, .ro, .one 0x0, .none, .volatile, false, false, .any⟩,
  /- FRZLOST -/ ⟨0x06, .u36, 0, .ro, .one 0x0, .none, .volatile, false, false, .any⟩,
  /- DUMP -/ ⟨0x07, .dom, 0, .roN, .zeros 16384, .none, .volatile, false, false, .any⟩,
  /- DUMPS -/ ⟨0x20, .u36, 0, .ro, .one 0x0, .none, .volatile, false, false, .any⟩]

/-- Rows of 0x1400. -/
def rowsReset : List ObjRow := [
  /- RSTNF -/ ⟨0x01, .bool, 0, .rwc, .one 0x0, .cmt, .saved, true, false, .upTo 0 1⟩,
  /- WDEN -/ ⟨0x02, .bool, 0, .rwc, .one 0x1, .cmt, .saved, true, false, .upTo 0 1⟩,
  /- WDP -/ ⟨0x03, .u16, 0, .rwc, .one 0x3E8, .cmt, .saved, true, false, .upTo 10 10000⟩,
  /- WDWIN -/ ⟨0x04, .u8, 0, .rwc, .one 0x0, .cmt, .saved, true, false, .upTo 0 90⟩,
  /- WDSRV -/ ⟨0x05, .u8, 0, .rwc, .one 0x1, .cmt, .saved, true, false, .oneOf [1, 2, 3]⟩,
  /- WDKICK -/ ⟨0x06, .u8, 0, .woF, .one 0, .imm, .volatile, false, false, .any⟩,
  /- WDDBG -/ ⟨0x07, .bool, 0, .rwc, .one 0x1, .cmt, .saved, false, false, .upTo 0 1⟩,
  /- WDLOCK -/ ⟨0x08, .bool, 0, .woL, .one 0, .imm, .volatile, false, false, .upTo 0 1⟩,
  /- SWRST -/ ⟨0x09, .u8, 0, .wo, .one 0, .imm, .volatile, false, false, .any⟩,
  /- SWBLK -/ ⟨0x0A, .u8, 0, .wo, .one 0, .imm, .volatile, false, false, .any⟩,
  /- DBGREACH -/ ⟨0x0B, .u8, 0, .rwc, .one 0x0, .cmt, .saved, true, false, .mask 0x3C⟩,
  /- CLKST -/ ⟨0x0C, .u36, 0, .ro, .one 0x0, .none, .volatile, false, true, .any⟩,
  /- RBLK -/ ⟨0x0D, .u8, 0, .ro, .one 0xFF, .none, .volatile, false, false, .any⟩,
  /- HELD -/ ⟨0x0E, .u36, 0, .ro, .one 0x0, .none, .volatile, false, false, .any⟩,
  /- CAUSE0 to CAUSE6 -/ ⟨0x10, .u36, 0, .ro, .one 0x1, .none, .volatile, false, false, .any⟩,
  /- CAUSE0 to CAUSE6 -/ ⟨0x11, .u36, 0, .ro, .one 0x1, .none, .volatile, false, false, .any⟩,
  /- CAUSE0 to CAUSE6 -/ ⟨0x12, .u36, 0, .ro, .one 0x1, .none, .volatile, false, false, .any⟩,
  /- CAUSE0 to CAUSE6 -/ ⟨0x13, .u36, 0, .ro, .one 0x1, .none, .volatile, false, false, .any⟩,
  /- CAUSE0 to CAUSE6 -/ ⟨0x14, .u36, 0, .ro, .one 0x1, .none, .volatile, false, false, .any⟩,
  /- CAUSE0 to CAUSE6 -/ ⟨0x15, .u36, 0, .ro, .one 0x1, .none, .volatile, false, false, .any⟩,
  /- CAUSE0 to CAUSE6 -/ ⟨0x16, .u36, 0, .ro, .one 0x1, .none, .volatile, false, false, .any⟩,
  /- CAUSEX -/ ⟨0x17, .u36, 0, .ro, .one 0x1, .none, .volatile, false, false, .any⟩,
  /- SRCCNT -/ ⟨0x20, .dom, 0, .ro, .zeros 12, .none, .volatile, false, false, .any⟩,
  /- ISODROP -/ ⟨0x21, .u36, 0, .ro, .one 0x0, .none, .volatile, false, false, .any⟩]

/-- Rows of 0x1600. -/
def rowsDuo : List ObjRow := [
  /- DUOEN -/ ⟨0x01, .bool, 0, .rwc, .one 0x0, .cmt, .saved, true, false, .upTo 0 1⟩,
  /- PRIMARY -/ ⟨0x02, .bool, 0, .rwc, .one 0x0, .cmt, .saved, true, false, .upTo 0 1⟩,
  /- PARTNER -/ ⟨0x03, .u8, 0, .rwc, .one 0x0, .cmt, .saved, true, false, .upTo 0 7⟩,
  /- PAIRS -/ ⟨0x04, .dom, 0, .rwc, .zeros 32, .cmt, .saved, true, false, .any⟩,
  /- PLOOPS -/ ⟨0x05, .dom, 0, .rwc, .zeros 8, .cmt, .saved, true, false, .any⟩,
  /- SHTOL -/ ⟨0x06, .fix, 30, .rwc, .one 0x1000000, .cmt, .saved, false, false, .signed 0 1073741824⟩,
  /- RMBK -/ ⟨0x07, .bool, 0, .rwc, .one 0x0, .cmt, .saved, true, false, .upTo 0 1⟩,
  /- ROLE -/ ⟨0x08, .u8, 0, .ro, .one 0x0, .none, .volatile, false, true, .any⟩,
  /- HEALTH -/ ⟨0x09, .u36, 0, .ro, .one 0x0, .none, .volatile, false, true, .any⟩,
  /- PHEALTH -/ ⟨0x0A, .u36, 0, .ro, .one 0x0, .none, .volatile, false, false, .any⟩,
  /- CASCID -/ ⟨0x0B, .u8, 0, .ro, .one 0, .none, .volatile, false, false, .any⟩,
  /- LASTTO -/ ⟨0x0C, .u36, 0, .ro, .one 0x0, .none, .volatile, false, false, .any⟩,
  /- TAKEOVERS -/ ⟨0x20, .u36, 0, .ro, .one 0x0, .none, .volatile, false, false, .any⟩,
  /- MISSED -/ ⟨0x21, .u36, 0, .ro, .one 0x0, .none, .volatile, false, false, .any⟩,
  /- SHMIS -/ ⟨0x22, .u36, 0, .ro, .one 0x0, .none, .volatile, false, false, .any⟩]

/-- Rows of 0x1500. -/
def rowsUpdate : List ObjRow := [
  /- IMAGE -/ ⟨0x01, .dom, 0, .woR, .zeros 0, .imm, .volatile, false, false, .any⟩,
  /- UPDST -/ ⟨0x02, .u36, 0, .ro, .one 0x0, .none, .volatile, false, true, .any⟩,
  /- ACTIVATE -/ ⟨0x03, .bool, 0, .woR, .one 0, .imm, .volatile, false, false, .upTo 0 1⟩,
  /- CONFIRM -/ ⟨0x04, .bool, 0, .wo, .one 0, .imm, .volatile, false, false, .upTo 0 1⟩,
  /- BOOTOK -/ ⟨0x05, .bool, 0, .woL, .one 0, .imm, .volatile, false, false, .upTo 0 1⟩,
  /- SV -/ ⟨0x06, .u8, 0, .ro, .one 0x0, .none, .volatile, false, false, .any⟩,
  /- SVLEFT -/ ⟨0x07, .u8, 0, .ro, .one 0xFF, .none, .volatile, false, false, .any⟩,
  /- IMGINFO -/ ⟨0x08, .dom, 0, .ro, .zeros 4, .none, .volatile, false, false, .any⟩,
  /- LCS -/ ⟨0x09, .u8, 0, .ro, .one 0x1, .none, .volatile, false, false, .any⟩,
  /- KEYLOAD -/ ⟨0x0A, .dom, 0, .woR, .zeros 5, .imm, .volatile, false, false, .any⟩,
  /- KEYST -/ ⟨0x0B, .u36, 0, .ro, .one 0x0, .none, .volatile, false, false, .any⟩,
  /- KEYCLR -/ ⟨0x0C, .u8, 0, .woR, .one 0, .imm, .volatile, false, false, .upTo 1 31⟩,
  /- UKREV -/ ⟨0x0D, .u8, 0, .woR, .one 0, .imm, .volatile, false, false, .upTo 0 3⟩,
  /- UKST -/ ⟨0x0E, .u8, 0, .ro, .one 0xF0, .none, .volatile, false, false, .any⟩,
  /- LOGPUB -/ ⟨0x0F, .dom, 0, .ro, .special, .none, .volatile, false, false, .any⟩,
  /- DBGKEY -/ ⟨0x10, .u8, 0, .rwc, .one 0x0, .cmt, .saved, true, false, .upTo 0 31⟩,
  /- DBGST -/ ⟨0x11, .u8, 0, .ro, .one 0x0, .none, .volatile, false, false, .any⟩,
  /- BOOTTO -/ ⟨0x12, .u16, 0, .rwc, .one 0x1388, .cmt, .saved, true, false, .upTo 100 60000⟩,
  /- UPDATES -/ ⟨0x20, .u36, 0, .ro, .one 0x0, .none, .volatile, false, false, .any⟩,
  /- ROLLBACKS -/ ⟨0x21, .u36, 0, .ro, .one 0x0, .none, .volatile, false, false, .any⟩]

/-- Rows of 0x5000. -/
def rowsLog : List ObjRow := [
  /- LOG -/ ⟨0x01, .dom, 0, .ro, .zeros 32768, .none, .volatile, false, false, .any⟩,
  /- NEXTSEQ -/ ⟨0x02, .u36, 0, .ro, .one 0x0, .none, .volatile, false, false, .any⟩,
  /- OLDEST -/ ⟨0x03, .u36, 0, .ro, .one 0x0, .none, .volatile, false, false, .any⟩,
  /- HEAD -/ ⟨0x04, .u16, 0, .ro, .one 0x0, .none, .volatile, false, false, .any⟩,
  /- CHAIN -/ ⟨0x05, .dom, 0, .ro, .zeros 8, .none, .volatile, false, false, .any⟩,
  /- QUEUED -/ ⟨0x06, .u8, 0, .ro, .one 0x0, .none, .volatile, false, false, .any⟩,
  /- RECORDS -/ ⟨0x20, .u36, 0, .ro, .one 0x0, .none, .volatile, false, false, .any⟩,
  /- TRUNCS -/ ⟨0x21, .u36, 0, .ro, .one 0x0, .none, .volatile, false, false, .any⟩,
  /- LOST -/ ⟨0x22, .u36, 0, .ro, .one 0x0, .none, .volatile, false, false, .any⟩]

/-- The rows of a family. -/
def famRows : Fam → List ObjRow
  | .ident => rowsIdent
  | .prof => rowsProf
  | .bundle => rowsBundle
  | .contract => rowsContract
  | .power => rowsPower
  | .fault => rowsFault
  | .reset => rowsReset
  | .update => rowsUpdate
  | .duo => rowsDuo
  | .hs => rowsHs
  | .leg => rowsLeg
  | .pair => rowsPair
  | .valve => rowsValve
  | .bank => rowsBank
  | .boost => rowsBoost
  | .sw => rowsSw
  | .io => rowsIo
  | .an => rowsAn
  | .sink => rowsSink
  | .chain => rowsChain
  | .matrix => rowsMatrix
  | .loop => rowsLoop
  | .speed => rowsSpeed
  | .shed => rowsShed
  | .tgrp => rowsTgrp
  | .access => rowsAccess
  | .can => rowsCan
  | .lin => rowsLin
  | .eth => rowsEth
  | .ring => rowsRing
  | .log => rowsLog
  | .dump => rowsDump
  | .fw => []
/-- The default severities of block b's kinds, from kind 0 upwards, as each chapter's fault table gives them (R21, R107, R150 and
its counterparts); kinds beyond the list are never raised. -/
def blockSevs (b : Nat) : List Nat :=
  if b = 0x07 then [3, 2, 3, 1, 1]
  else if b = 0x08 then [0, 3]
  else if b = 0x06 then [3, 3, 1, 1]
  else if 0x30 ≤ b ∧ b ≤ 0x38 then [2, 2, 2, 2, 2, 2, 2, 2, 2, 2, 2, 2, 2, 2, 2, 2, 1, 1, 1, 1, 1, 1, 1, 1, 1, 2, 2, 2, 1, 0]
  else if 0x39 ≤ b ∧ b ≤ 0x3A then [2, 2, 2, 2, 2, 2, 2, 2, 1, 1, 1, 1, 1, 1, 1, 1, 1, 1, 1, 1, 1, 1, 1, 1, 1, 2, 2, 2, 1, 0, 3]
  else if b = 0x3B then [2, 2, 2, 2, 2, 2, 2, 2, 2, 2, 2, 2, 1, 1, 1, 1, 1, 1, 1, 1, 1, 1, 1, 1, 2, 2, 2, 2, 1, 2, 2, 1]
  else if b = 0x3C then [2, 2, 2, 1, 1, 2, 1]
  else if b = 0x40 then List.replicate 24 1 ++ List.replicate 1 2 ++ List.replicate 1 1
  else if b = 0x41 then [1, 0, 1, 1, 1]
  else if 0x20 ≤ b ∧ b ≤ 0x2F then [3, 0, 0, 1, 2, 1, 1, 2, 0]
  else if 0x0B ≤ b ∧ b ≤ 0x0C then [4, 4, 0, 2, 1, 1, 1, 1]
  else if 0x10 ≤ b ∧ b ≤ 0x1F then [1, 2, 2, 0, 2, 0, 0, 2]
  else if b = 0x3D then [1, 1, 0, 2, 1]
  else if b = 0x3E then List.replicate 16 2 ++ List.replicate 2 1
  else if b = 0x3F then [2, 1, 0]
  else if 0x48 ≤ b ∧ b ≤ 0x4F then [0, 1, 2, 1, 1, 1, 2, 0, 0]
  else if 0x50 ≤ b ∧ b ≤ 0x57 then [1, 1, 1, 1, 0, 2, 2]
  else if b = 0x58 then [1, 1, 0]
  else if 0x59 ≤ b ∧ b ≤ 0x5C then [1, 1, 0, 2]
  else if b = 0x5D then [0, 1, 2, 2, 1, 2, 3, 0]
  else if b = 0x5E then [1, 0, 0, 1]
  else if b = 0x02 then [0, 0, 1, 1, 0]
  else if b = 0x42 then [1, 2, 1, 1, 1, 0]
  else if b = 0x43 then [1, 1]
  else if b = 0x03 then [1, 1, 1, 3, 2]
  else if b = 0x04 then List.replicate 14 1 ++ List.replicate 3 2
  else if b = 0x05 then [1, 3, 2, 1, 0]
  else if b = 0x01 then [0, 2, 2, 1, 1, 2, 0, 0, 0, 3, 0, 1, 2, 1, 0]
  else if b = 0x00 then [1, 0, 2, 1, 1, 2, 1, 0, 2, 1, 2]
  else if b = 0x09 then [0, 3, 0, 2, 1, 2, 3, 0, 1, 1, 2]
  else if b = 0x0A then [1, 0, 1, 2, 1, 0, 1, 1, 2, 0, 3, 1]
  else []
/-- The family and number of an index (R26, R66); none: no such index. -/
def famOf (idx : Nat) : Option (Fam × Nat) :=
  if idx = 0x1000 then some (.ident, 0)
  else if idx = 0x1010 then some (.prof, 0)
  else if idx = 0x10F0 then some (.bundle, 0)
  else if 0x1100 ≤ idx ∧ idx ≤ 0x11FF then some (.contract, idx - 0x1100)
  else if idx = 0x1200 then some (.power, 0)
  else if idx = 0x1300 then some (.fault, 0)
  else if idx = 0x1400 then some (.reset, 0)
  else if idx = 0x1500 then some (.update, 0)
  else if idx = 0x1600 then some (.duo, 0)
  else if 0x2000 ≤ idx ∧ idx ≤ 0x2047 then some (.hs, idx - 0x2000)
  else if 0x2100 ≤ idx ∧ idx ≤ 0x210F then some (.leg, idx - 0x2100)
  else if 0x2110 ≤ idx ∧ idx ≤ 0x2117 then some (.pair, idx - 0x2110)
  else if 0x2200 ≤ idx ∧ idx ≤ 0x220B then some (.valve, idx - 0x2200)
  else if 0x2210 ≤ idx ∧ idx ≤ 0x2213 then some (.bank, idx - 0x2210)
  else if idx = 0x2220 then some (.boost, 0)
  else if 0x2300 ≤ idx ∧ idx ≤ 0x233F then some (.sw, idx - 0x2300)
  else if 0x2340 ≤ idx ∧ idx ≤ 0x234F then some (.io, idx - 0x2340)
  else if 0x2360 ≤ idx ∧ idx ≤ 0x236F then some (.an, idx - 0x2360)
  else if 0x2400 ≤ idx ∧ idx ≤ 0x2417 then some (.sink, idx - 0x2400)
  else if idx = 0x2420 then some (.chain, 0)
  else if idx = 0x2430 then some (.matrix, 0)
  else if 0x2500 ≤ idx ∧ idx ≤ 0x2667 then some (.loop, idx - 0x2500)
  else if idx = 0x2700 then some (.speed, 0)
  else if idx = 0x2800 then some (.shed, 0)
  else if 0x2810 ≤ idx ∧ idx ≤ 0x2818 then some (.tgrp, idx - 0x2810)
  else if idx = 0x2900 then some (.access, 0)
  else if 0x3000 ≤ idx ∧ idx ≤ 0x3007 then some (.can, idx - 0x3000)
  else if 0x3100 ≤ idx ∧ idx ≤ 0x3107 then some (.lin, idx - 0x3100)
  else if idx = 0x3200 then some (.eth, 0)
  else if idx = 0x3300 then some (.ring, 0)
  else if 0x4000 ≤ idx ∧ idx ≤ 0x4FFF then some (.fw, idx - 0x4000)
  else if idx = 0x5000 then some (.log, 0)
  else if idx = 0x6000 then some (.dump, 0)
  else none

/-- Four-bit entries, nine a word from bit 35 down (R467, R487). -/
def packNibbles (f : Nat → Nat) (words : Nat) : List Word :=
  (List.range words).map fun w =>
    (List.range 9).foldl (fun acc p => acc ||| (BitVec.ofNat 36 (f (9 * w + p)) <<< (32 - 4 * p))) 0

/-- Entry `i` of packed nibbles. -/
def nibble (l : List Word) (i : Nat) : Nat :=
  ((l.getD (i / 9) 0) >>> (32 - 4 * (i % 9))).toNat % 16

/-- The class nominal current of a high-side channel in mA (R116). -/
def hsNominal (n : Nat) : Nat := if n < 12 then 12000 else if n < 48 then 4000 else 1000

/-- The default shed class of a load code (R466). -/
def dfltClass (code : Nat) : Nat :=
  if code ≤ 0x47 then 2 else if code ≤ 0x57 then 5 else if code ≤ 0x7F then 0
  else if code ≤ 0x99 then 6 else if code ≤ 0xA9 then 2 else 0

/-- The default threshold and hysteresis of class k in mV (R468). -/
def dfltTh (is24 : Bool) (k : Nat) : Nat :=
  let th := [0, 7000, 8500, 9000, 9500, 10500, 11000, 11500].getD k 0
  if k = 0 then 0 else if is24 then 2 * th * 65536 + 1000 else th * 65536 + 500

/-- Junction-to-case resistance of group g in 0.1 K/W (R476): G0 to G8, HG0, HG1, valve stage, boost. -/
def rth (g : Nat) : Nat := [40, 45, 80, 80, 80, 80, 300, 300, 300, 20, 20, 60, 60].getD g 60

/-- The default correction curve of R227. -/
def dfltGamma : List Word := (List.range 64).map fun i => BitVec.ofNat 36 (i * 65535 / 63)

/-- The block numbers that R26 assigns. -/
def assigned (b : Nat) : Bool :=
  b ≤ 0x0D || (0x10 ≤ b && b ≤ 0x43) || (0x48 ≤ b && b ≤ 0x5E)

/-- A DOMAIN of one bit a block, 32 to a word (SRCH, SNAPMAP, DEGRADED). -/
def blockBits (f : Nat → Bool) : List Word :=
  (List.range 4).map fun w =>
    (List.range 32).foldl (fun acc i => if f (32 * w + i) then acc ||| (1 <<< i) else acc) (0 : Word)

/-- The default of a row (R64). -/
def dfltVal (f : Fam) (n : Nat) (r : ObjRow) : Val :=
  match r.dflt with
  | .one w => [BitVec.ofNat 36 w]
  | .two h l => [BitVec.ofNat 36 h, BitVec.ofNat 36 l]
  | .zeros k => List.replicate k 0
  | .special =>
    match f, r.sub with
    | .hs, 0x01 => [if n < 12 then 0 else if n < 48 then 1 else 2]
    | .hs, _ => [BitVec.ofNat 36 (hsNominal n)]
    | .sink, _ => dfltGamma
    | .chain, _ => dfltGamma
    | .eth, _ => 0x800FC0000 :: List.replicate 63 0
    | .shed, 0x01 => packNibbles dfltClass 19
    | .shed, 0x02 => (List.range 8).map fun k => BitVec.ofNat 36 (dfltTh false k)
    | .shed, _ => (List.range 8).map fun k => BitVec.ofNat 36 (dfltTh true k)
    | .tgrp, _ => [BitVec.ofNat 36 (rth n)]
    | .fault, 0x01 => packNibbles (fun s => (blockSevs (s / 32)).getD (s % 32) 0) 456
    | .fault, 0x04 => packNibbles (fun l => if l < 0xAB then 2 else 0) 19
    | .fault, _ => blockBits (fun b => b ≤ 0x0D)
    | .dump, _ => blockBits assigned
    | .update, _ => List.replicate 16 0
    | _, _ => [0]

/-- The highest subindex of a family (R49). -/
def maxSub (f : Fam) : Nat := (famRows f).foldl (fun m r => max m r.sub) 0

/-- The row of a subindex; subindex 0x00 is a read-only U8 that holds the highest subindex (R49). -/
def findRow (f : Fam) (sub : Nat) : Option ObjRow :=
  if sub = 0 then
    if f = .fw then none else some ⟨0x00, .u8, 0, .ro, .one (maxSub f), .none, .volatile, false, false, .any⟩
  else (famRows f).find? (·.sub == sub)

/-- The default value of an object; no words where the index or subindex has none. -/
def dfltOf (idx sub : Nat) : Val :=
  match famOf idx with
  | some (f, n) => match findRow f sub with
    | some r => dfltVal f n r
    | none => []
  | none => []

end Sys2Proof.Machine
end

