-- ==== Sys2Proof/Machine/Ops.lean ====
section
/-!
DEFINITION. The named operations that the meanings share: banks, sparse stores in canonical form, event queues (R39 to R41),
object values, fault reports (R486) and TIME (R35 to R48).
-/
namespace Sys2Proof.Machine

/-! One part of the state changed by a function -/

def State.onTime (s : State) (f : TimeState → TimeState) : State := { s with time := f s.time }
def State.onFab (s : State) (f : Fabric → Fabric) : State := { s with fab := f s.fab }
def State.onMem (s : State) (f : Memory → Memory) : State := { s with mem := f s.mem }
def State.onSrv (s : State) (f : Server → Server) : State := { s with srv := f s.srv }
def State.onAdm (s : State) (f : Admission → Admission) : State := { s with adm := f s.adm }
def State.onSup (s : State) (f : Supply → Supply) : State := { s with sup := f s.sup }
def State.onRing (s : State) (f : Ring → Ring) : State := { s with ring := f s.ring }
def State.onFlt (s : State) (f : FaultState → FaultState) : State := { s with flt := f s.flt }

/-! Banks -/

/-- Entry i of a bank. -/
def bget {α : Type} {n : Nat} (v : Bank α n) (i : Fin n) : α := v[i.val]

/-- The bank with entry i replaced. -/
def bset {α : Type} {n : Nat} (v : Bank α n) (i : Fin n) (x : α) : Bank α n := v.set i.val x

/-- The bank with entry i changed by f. -/
def bmod {α : Type} {n : Nat} (v : Bank α n) (i : Fin n) (f : α → α) : Bank α n := bset v i (f (bget v i))

/-- All numbers below n. -/
def allFin (n : Nat) : List (Fin n) := List.finRange n

/-- Every entry of a bank changed by f. -/
def ball {α : Type} {n : Nat} (v : Bank α n) (f : Fin n → α → α) : Bank α n :=
  (allFin n).foldl (fun w i => bmod w i (f i)) v

/-! Sparse stores: association lists by rising key -/

/-- The value listed at a key. -/
def alFind {α : Type} (k : Nat) : List (Nat × α) → Option α
  | [] => none
  | (j, x) :: r => if k = j then some x else alFind k r

/-- The store with key k removed. -/
def alErase {α : Type} (k : Nat) (l : List (Nat × α)) : List (Nat × α) := l.filter fun e => e.1 != k

/-- The store with key k set to x. -/
def alInsert {α : Type} (k : Nat) (x : α) : List (Nat × α) → List (Nat × α)
  | [] => [(k, x)]
  | (j, y) :: r => if k < j then (k, x) :: (j, y) :: r else if k = j then (k, x) :: r else (j, y) :: alInsert k x r

/-- The canonical form of a store: strictly rising keys. -/
def alSorted {α : Type} : List (Nat × α) → Bool
  | [] => true
  | [_] => true
  | (j, _) :: (k, y) :: r => decide (j < k) && alSorted ((k, y) :: r)

/-! Memory (R29) -/

/-- What a word that nothing has written reads as (log 5). -/
def memDefault : Word := 0

/-- The word at an address. -/
def memRead (m : Memory) (a : Nat) : Word := (alFind a m).getD memDefault

/-- Memory with the word at an address written; writing what an unlisted address reads as removes the entry. -/
def memWrite (m : Memory) (a : Nat) (w : Word) : Memory :=
  if w = memDefault then alErase a m else alInsert a w m

/-- The canonical form of memory: rising addresses, and no entry equal to what an unlisted address reads as. -/
def Memory.wf (m : Memory) : Bool := alSorted m && m.all (fun c => c.2 != memDefault)

/-- `n` words from an address on. -/
def memReadN (m : Memory) (a n : Nat) : List Word := (List.range n).map fun i => memRead m (a + i)

/-- Words written from an address on. -/
def memWriteN (m : Memory) (a : Nat) : List Word → Memory
  | [] => m
  | w :: r => memWriteN (memWrite m a w) (a + 1) r

/-! Words -/

/-- A word from a number. -/
def wd (n : Nat) : Word := BitVec.ofNat 36 n

/-- Bits hi..lo of a word as a number. -/
def fld (w : Word) (hi lo : Nat) : Nat := w.toNat / 2 ^ lo % 2 ^ (hi - lo + 1)

/-- A Bool as a bit. -/
def b1 (b : Bool) : Nat := if b then 1 else 0

/-- A counter that stops at all ones. -/
def satInc (w : Word) : Word := if w = BitVec.allOnes 36 then w else w + 1

/-- The smaller of a count and 0xFF as an octet. -/
def satByte (n : Nat) : Byte := BitVec.ofNat 8 (min n 255)

/-! Event queues (R39 to R41) -/

/-- A queue is full when its entries and markers fill its stated capacity. -/
def EvQ.full (q : EvQ) (cap : Nat) : Bool := cap ≤ q.items.length

/-- Places an entry, or counts it as lost when the queue is full (R41). -/
def EvQ.push (cap : Nat) (entry : List Word) (q : EvQ) : EvQ :=
  if q.full cap then { q with lost := satInc q.lost }
  else { q with items := q.items ++ [{ marker := false, words := entry }] }

/-- Places an entry before the unread time marker placed last: it was stamped before the wrap (R40). -/
def EvQ.pushBefore (cap : Nat) (entry : List Word) (q : EvQ) : EvQ :=
  let tail := (q.items.reverse.takeWhile fun i => !i.marker).length
  let at_ := q.items.length - tail
  match q.items[at_ - 1]? with
  | some { marker := true, words := [w, hi] } =>
    if q.full cap || at_ = 0 then q.push cap entry
    else { q with items := q.items.take (at_ - 1) ++ { marker := false, words := entry } :: { marker := true, words := [w, hi] } :: q.items.drop at_ }
  | _ => q.push cap entry

/-- Word 0 of a time marker (R39). -/
def markerWord (step merged : Bool) : Word := wd (0xF * 2 ^ 32 + b1 step * 2 ^ 31 + b1 merged * 2 ^ 30)

/-- Places a time marker, or rewrites the unread marker that stands last (R41). -/
def EvQ.mark (step : Bool) (hi : Word) (q : EvQ) : EvQ :=
  match q.items.getLast? with
  | some { marker := true, words := [w0, _] } =>
    { q with items := q.items.dropLast ++ [{ marker := true, words := [markerWord (step || w0.getLsbD 31) true, hi] }] }
  | _ => { q with items := q.items ++ [{ marker := true, words := [markerWord step false, hi] }] }

/-- Reads and removes the next word; an empty queue reads 0 (R108). -/
def EvQ.read (q : EvQ) : Word × EvQ :=
  match q.items with
  | [] => (0, q)
  | i :: r =>
    match i.words with
    | [] => (0, { q with items := r })
    | [w] => (w, { q with items := r })
    | w :: ws => (w, { q with items := { i with words := ws } :: r })

/-- The words held. -/
def EvQ.words (q : EvQ) : Nat := (q.items.map (·.words.length)).sum

/-! TIME -/

/-- TIME as a number of ticks. -/
def State.now (s : State) : Nat := s.time.time.toNat

/-- The stamp of an event: TIME [35:0] (R38). -/
def State.stamp (s : State) : Word := s.time.time.truncate 36

/-- TIME [71:36]. -/
def State.timeHi (s : State) : Word := (s.time.time >>> 36).truncate 36

/-- Ticks in a microsecond, a millisecond and a second. -/
def usT (n : Nat) : Nat := n * 100
def msT (n : Nat) : Nat := n * 100000
def secT (n : Nat) : Nat := n * 100000000

/-! Objects -/

/-- An object's name as a number. -/
def okey (idx sub : Nat) : ObjKey := idx * 256 + sub

/-- The value listed in a store, or the default. -/
def storeVal (st : ObjStore) (idx sub : Nat) : Val := (alFind (okey idx sub) st).getD (dfltOf idx sub)

/-- A store with an object set; a value equal to the default is not listed. -/
def storeSet (st : ObjStore) (idx sub : Nat) (v : Val) : ObjStore :=
  if v = dfltOf idx sub then alErase (okey idx sub) st else alInsert (okey idx sub) v st

/-- The applied value of a stored object. -/
def State.obj (s : State) (idx sub : Nat) : Val := storeVal s.srv.objs idx sub

/-- The applied value of a one-word object, as a number. -/
def State.cfg (s : State) (idx sub : Nat) : Nat := ((s.obj idx sub).headD 0).toNat

/-- The applied value of an S36 or FIXq object. -/
def State.cfgI (s : State) (idx sub : Nat) : Int := ((s.obj idx sub).headD 0).toInt

/-- A BOOL object. -/
def State.cfgB (s : State) (idx sub : Nat) : Bool := s.cfg idx sub != 0

/-- The state with an object's applied value set. -/
def State.setObj (s : State) (idx sub : Nat) (v : Val) : State :=
  let note (x : Sub) : Sub := if x.key = okey idx sub && s.obj idx sub != v then { x with stamp := some s.stamp } else x
  { s with srv := { s.srv with objs := storeSet s.srv.objs idx sub v, subs := s.srv.subs.map (·.map note) } }

/-! Fault reports -/

/-- A block reports kind k of its faults (R25, R486): the report is on its way to the collector with its stamp. -/
def State.raise (s : State) (blk kind : Nat) : State :=
  { s with flt := { s.flt with inflight := s.flt.inflight ++ [{ src := blk * 32 + kind, stamp := s.stamp, wrapped := none }] } }

/-- As `raise`, if c holds. -/
def State.raiseIf (s : State) (c : Bool) (blk kind : Nat) : State := if c then s.raise blk kind else s

/-- A domain is powered and released (R22). -/
def State.up (s : State) (d : Fin 7) : Bool := (bget s.dom d).powered && !(bget s.dom d).held

/-- Every event queue changed. -/
def State.onQueues (s : State) (f : EvQ → EvQ) : State :=
  { s with adm := { s.adm with q := f s.adm.q }, flt := { s.flt with q := f s.flt.q }, vq := f s.vq, lq := f s.lq, inq := f s.inq }

/-- TIME is set; each event queue takes a wrap marker as TIME [35:0] wraps, a second one merging into it (R40, R41). -/
def State.setTime (s : State) (t : Nat) : State :=
  let k := t / 2 ^ 36 - s.now / 2 ^ 36
  let hi := wd (t / 2 ^ 36)
  let s1 := { s with time := { s.time with time := BitVec.ofNat 72 t, strobed := s.time.strobed && t / 100000 == s.now / 100000 } }
  if k = 0 then s1
  else if k = 1 then s1.onQueues (EvQ.mark false hi)
  else (s1.onQueues (EvQ.mark false (hi - 1))).onQueues (EvQ.mark false hi)

/-- TIME moves to the instant of an event that lies ahead (log 2). -/
def State.at (s : State) (t : Nat) : State := if s.now < t then s.setTime t else s

/-- A sequencer runs its library program set: ENG is released and the set is loaded, checked and admitted (R129, R199, R341, R343). -/
def State.libRuns (s : State) (n : Fin 16) : Bool :=
  let q := bget s.seqs n
  s.up 3 && q.src == .library && q.admitted && q.started && !q.merr

/-- Binding b of library set n: its block and channel (R340). -/
def libBinding (n : Fin 16) (b : Fin 8) : Option (Nat × Nat) :=
  if n.val ≤ 8 then some (0x30 + n.val, b.val)
  else if n.val ≤ 10 then (if b.val < 4 then some (0x30 + n.val, 8 + b.val) else none)
  else if n.val ≤ 12 then (if b.val < 6 then some (0x3B, 6 * (n.val - 11) + b.val) else none)
  else if n.val = 13 then some (0x50 + b.val, 0) else none

/-- Word w of a sequencer's memory (R325), as it was loaded or written. -/
def State.seqWord (s : State) (n : Fin 16) (w : Nat) : Word := memRead s.mem (0x890000 + n.val * 0x800 + w % 0x800)

/-- The block and channel of a binding in use (R328, R340). -/
def State.binding (s : State) (n : Fin 16) (b : Fin 8) : Option (Nat × Nat) :=
  match (bget s.seqs n).src with
  | .idle => none
  | .library => libBinding n b
  | .user => let w := s.seqWord n (8 + b.val); if w.getLsbD 35 then some (fld w 33 27, fld w 26 21) else none

/-- The binding is on high-side group g. -/
def State.bindsGroup (s : State) (n : Fin 16) (b : Fin 8) (g : Nat) : Bool := (s.binding n b).map Prod.fst == some (0x30 + g)

/-- Every binding changed by f. -/
def State.onBinds (s : State) (f : Fin 16 → Fin 8 → SeqBind → SeqBind) : State :=
  let g (n : Fin 16) (q : Seq) : Seq := { q with binds := ball q.binds (f n) }
  { s with seqs := ball s.seqs g }

/-- The timers of the bindings on a high-side group stop while its quiet window runs (R336). -/
def State.freezeTimers (s : State) (g : Nat) : State :=
  s.onBinds fun n b k =>
    match s.bindsGroup n b g, k.tmr with
    | true, some t => { k with tmr := none, left := some (t - s.now) }
    | _, _ => k

/-- They go on where they stopped. -/
def State.thawTimers (s : State) (g : Nat) : State :=
  s.onBinds fun n b k =>
    match s.bindsGroup n b g, k.left with
    | true, some d => { k with tmr := some (s.now + d), left := none }
    | _, _ => k

/-- The request that gives an item its sense word: a pair takes that of its leg A (R180). -/
def adcItem : SenseItem → AdcReq
  | .pair k => .load (.leg ⟨2 * k.val, by omega⟩)
  | i => .load i

/-- Where an item's sense request is placed on the ADC schedule (R367). -/
def State.placeOf (s : State) (r : AdcReq) : Option AdcPlace := s.adc.places.find? (·.req == r)

/-- An item's sense request is placed (R368). -/
def State.isPlaced (s : State) (i : SenseItem) : Bool := (s.placeOf (adcItem i)).isSome

/-- The ADC that converts an item failed its last self-check (R370). -/
def State.adcFail (s : State) (i : SenseItem) : Bool := (s.placeOf (adcItem i)).any fun p => s.adc.bad.getLsbD p.adc

/-- Words wait at the source of admitted flow n. -/
def State.toFlow (s : State) (n : Fin 256) (ws : List Word) : State :=
  s.onFab fun f => { f with srcq := f.srcq ++ ws.map fun w => { ct := n.val, born := s.now, word := w } }

/-- Draws a fresh free value's number (log 7). -/
def State.draw (s : State) : Nat × State := (s.free, { s with free := s.free + 1 })

end Sys2Proof.Machine
end

