-- ==== Sys2Proof/Machine/Governor.lean ====
section
/-!
DEFINITION. The energisation ledger in SUP (R99 to R103), the thermal governor's caps and derating (R475 to R479), and admission
events (R108, R596).
-/
namespace Sys2Proof.Machine

/-- The shed class of a load code (R466, R467). -/
def State.classOf (s : State) (code : Nat) : Fin 8 :=
  if code ≤ 0xAA then Fin.ofNat 8 (nibble (s.obj 0x2800 1) code) else 0

/-- The class of a load is shed (R468). -/
def State.isShed (s : State) (code : Nat) : Bool := s.sup.shed.getLsbD (s.classOf code).val

/-- The thermal group that a load code is charged against (R475); 13 stands for none but the module. -/
def groupOf (code : Nat) : Nat :=
  if code ≤ 0x47 then code / 8 else if code ≤ 0x4F then 9 else if code ≤ 0x57 then 10
  else if code ≤ 0x63 then 11 else if code = 0xAB then 12 else 13

/-- The block of a thermal group. -/
def groupBlock (g : Nat) : Nat := 0x30 + g

/-- The load codes with a CLASSMAP entry (R466), ascending. -/
def loadCodes : List Nat := (List.range 0xAB).filter fun c => c < 0x64 || 0x80 ≤ c

/-- The block that carries a load (R26). -/
def loadBlock (code : Nat) : Nat :=
  if code ≤ 0x63 ∨ code = 0xAB then groupBlock (groupOf code)
  else if code ≤ 0x97 then 0x40 else if code ≤ 0x99 then 0x41 else if code ≤ 0xA9 then 0x3E
  else if code = 0xAA then 0x42 else 0x3D

/-! Admission events -/

/-- Word 0 of an admission event entry (R108). -/
def admWord (type kind num cause reason blk : Nat) : Word :=
  wd (type * 2 ^ 32 + kind * 2 ^ 29 + num * 2 ^ 20 + cause * 2 ^ 16 + reason * 2 ^ 8 + blk)

/-- Places an admission event; SUP holds energisation events while FAB is not released (R108, R596). -/
def State.admEvent (s : State) (type kind num cause reason blk : Nat) : State :=
  let w := admWord type kind num cause reason blk
  if s.up 2 then
    let s1 := { s with adm := { s.adm with q := s.adm.q.push 128 [w, s.stamp] } }
    s1.raiseIf (s.adm.q.full 128) 0x06 2
  else if kind = 4 then
    if s.adm.heldEv.length < 32 then
      { s with adm := { s.adm with heldEv := s.adm.heldEv ++ [{ word0 := w, time := s.time.time }] } }
    else { s with adm := { s.adm with heldLost := satInc s.adm.heldLost } }
  else s

/-! The ledger -/

/-- A charge set in a list, one entry a load code. -/
def setCharge (l : List Charge) (c : Charge) : List Charge := c :: l.filter (·.code != c.code)

/-- The larger of two charges of one load. -/
def Charge.max (a b : Charge) : Charge :=
  { code := a.code, na := Nat.max a.na b.na, nw := Nat.max a.nw b.nw, derat := a.derat && b.derat }

/-- Adds a charge to a ledger; a load that is listed already counts with the larger of the two. -/
def addMax (l : List Charge) (c : Charge) : List Charge :=
  match l.find? (·.code == c.code) with
  | some d => setCharge l (d.max c)
  | none => c :: l

/-- Everything charged: the loads, and the reservations of R102, R450 and R543 (R87). -/
def State.ledger (s : State) (charges : List Charge) : List Charge :=
  (s.adm.resv ++ s.adm.pendResv.getD [] ++ s.adm.extraResv).foldl addMax charges

/-- The factor, 0 to 255, that a table of group and module factors gives a charge (R477). -/
def factorOf (gf : Bank (Bank Byte 8) 11) (mf : Bank Byte 8) (cls : Fin 8) (c : Charge) : Nat :=
  if c.derat && cls != 0 then
    let m := (bget mf cls).toNat
    if h : groupOf c.code < 11 then min m (bget (bget gf ⟨groupOf c.code, h⟩) cls).toNat else m
  else 255

/-- The factor in force for a load (R477). -/
def State.factor (s : State) (code : Nat) : Nat :=
  factorOf s.sup.gfact s.sup.mfact (s.classOf code) { code := code, na := 0, nw := 0, derat := true }

/-- T_case for the caps (R476, R480), in 1/16 °C. -/
def State.tc (s : State) : Int := if s.sup.caseFail then 1840 else s.sup.tcase

/-- The dissipation of a list, in nW × 255. -/
def sumNw (s : State) (gf : Bank (Bank Byte 8) 11) (mf : Bank Byte 8) (l : List Charge) : Nat :=
  (l.map fun c => c.nw * factorOf gf mf (s.classOf c.code) c).sum

/-- The supply current of a list, in nA × 255. -/
def sumNa (s : State) (gf : Bank (Bank Byte 8) 11) (mf : Bank Byte 8) (l : List Charge) : Nat :=
  (l.map fun c => c.na * factorOf gf mf (s.classOf c.code) c).sum

/-- RTH × Σ P ≤ 0.85 × (175 °C − T_case) (R476). -/
def groupFits (s : State) (g : Nat) (gf : Bank (Bank Byte 8) 11) (mf : Bank Byte 8) (l : List Charge) : Bool :=
  decide ((rth g * sumNw s gf mf (l.filter (groupOf ·.code == g)) * 1600 : Nat) ≤
    (85 * (2800 - s.tc) * 10 * 255000000000 : Int))

/-- The module cap × 16 000, in W (R476). -/
def moduleCap (tc : Int) : Int := min 414400 (576 * (2400 - tc))

/-- Σ P ≤ 0.85 × min(25.9 W, 0.576 W/K × (150 °C − T_case)), the 2.4 W of the control die included (R475, R476). -/
def moduleFits (s : State) (gf : Bank (Bank Byte 8) 11) (mf : Bank Byte 8) (l : List Charge) : Bool :=
  decide (((612000000000 + sumNw s gf mf l) * 1600000 : Nat) ≤ (85 * 255000000000 * moduleCap s.tc : Int))

/-- Σ I ≤ 0.85 × ISUP (R85, R475). -/
def supplyFits (s : State) (l : List Charge) : Bool :=
  decide (sumNa s s.sup.gfact s.sup.mfact l * 100 ≤ 85 * 255 * (s.cfg 0x2800 6 * 100000000))

/-- The largest factor at most `n` that fits; 0 when none does. -/
def bestFactor (fits : Byte → Bool) : Nat → Byte
  | 0 => 0
  | n + 1 => if fits (BitVec.ofNat 8 (n + 1)) then BitVec.ofNat 8 (n + 1) else bestFactor fits n

/-- The derating search of R478 over the factors of one group or the module: classes q, q − 1, … down to c. -/
def derateSearch (fits : Bank Byte 8 → Bool) (c : Nat) : Nat → Bank Byte 8 → Option (Bank Byte 8)
  | 0, _ => none
  | q + 1, k =>
    if q + 1 < Nat.max c 1 then none
    else
      let qi : Fin 8 := Fin.ofNat 8 (q + 1)
      let k1 := bset k qi (bestFactor (fun v => fits (bset k qi v)) 255)
      if fits k1 then some k1 else derateSearch fits c q k1

/-- Counts a derating of group g (DERATES). -/
def State.countDerate (s : State) (g : Nat) : State :=
  if h : g < 9 then { s with sup := { s.sup with derates := bmod s.sup.derates ⟨g, h⟩ satInc } } else s

/-- What a decision answers (R99 to R101). -/
inductive Verdict where
  | admitted | deferred | refused (reason blk : Nat)
  deriving DecidableEq, Repr

/-- Whether a ledger fits its group, after the search of R478 if it must; the state then holds the factors found. -/
def fitGroup (s : State) (g : Nat) (cls : Fin 8) (l : List Charge) : Option State :=
  if groupFits s g s.sup.gfact s.sup.mfact l then some s
  else if h : g < 11 then
    match derateSearch (fun k => groupFits s g (bset s.sup.gfact ⟨g, h⟩ k) s.sup.mfact l) cls.val 7 (bget s.sup.gfact ⟨g, h⟩) with
    | some k => some ((s.onSup fun u => { u with gfact := bset u.gfact ⟨g, h⟩ k }).countDerate g)
    | none => none
  else none

/-- Whether a ledger fits the module, after the search of R478 if it must. -/
def fitModule (s : State) (cls : Fin 8) (l : List Charge) : Option State :=
  if moduleFits s s.sup.gfact s.sup.mfact l then some s
  else
    match derateSearch (fun k => moduleFits s s.sup.gfact k l) cls.val 7 s.sup.mfact with
    | some k => some { s with sup := { s.sup with mfact := k } }
    | none => none

/-- The ledger checks of an energisation (R99, R100): the state with the charge made, or the reason and block that failed. -/
def chargeCheck (s : State) (c : Charge) : State ⊕ (Nat × Nat) :=
  let charges := setCharge s.adm.charges c
  let l := s.ledger charges
  let cls := s.classOf c.code
  let g := groupOf c.code
  if !supplyFits s l then .inr (0x09, 0x03)
  else match (if g < 13 then fitGroup s g cls l else some s) with
    | none => .inr (0x0A, groupBlock g)
    | some s1 => match fitModule s1 cls l with
      | none => .inr (0x0B, 0x04)
      | some s2 => .inl { s2 with adm := { s2.adm with charges := charges } }

/-- The charge of a load that is off ends (R99). -/
def State.uncharge (s : State) (code : Nat) : State :=
  { s with adm := { s.adm with charges := s.adm.charges.filter (·.code != code) } }

/-- A charge set without a decision: it falls, or a reservation covers it (R102). -/
def State.recharge (s : State) (c : Charge) : State :=
  { s with adm := { s.adm with charges := setCharge s.adm.charges c } }

/-- A load's deferral is dropped without an event (R101). -/
def State.undefer (s : State) (code : Nat) : State :=
  { s with adm := { s.adm with defer := s.adm.defer.filter (·.charge.code != code) } }

/-- The load waits in a deferral place. -/
def State.isDeferred (s : State) (code : Nat) : Bool := s.adm.defer.any (·.charge.code == code)

/-- The load's energisation is covered by a reservation (R102). -/
def State.isReserved (s : State) (code : Nat) : Bool :=
  (s.adm.resv ++ s.adm.extraResv).any (·.code == code)

/-- A refused energisation and its event (R103). -/
def State.refuseEnerg (s : State) (code reason blk : Nat) : Verdict × State :=
  (.refused reason blk, s.admEvent 0x4 4 code 0 reason blk)

/-- The ledgers' part of the decision on an energisation (R99 to R101): admitted, deferred, or refused with all places taken; `value` is what is
carried out when a deferral is admitted. -/
def State.decideEnerg (s : State) (c : Charge) (value : Nat) : Verdict × State :=
  if s.isDeferred c.code then
    (.deferred, { s with adm := { s.adm with defer := s.adm.defer.map fun d =>
      if d.charge.code = c.code then { d with charge := c, value := value } else d } })
  else match chargeCheck s c with
    | .inl s1 => (.admitted, s1)
    | .inr (reason, blk) =>
      if s.adm.defer.length < 16 then
        (.deferred, (s.onAdm fun a => { a with defer := a.defer ++ [{ charge := c, value := value, strobes := 0, blk := blk }] }).admEvent
          0x2 4 c.code 0 reason blk)
      else s.refuseEnerg c.code 0x11 0x04

/-- The decision on an energisation (R99 to R101): shed, latched, then the ledgers. -/
def State.energise (s : State) (c : Charge) (value : Nat) (latched : Bool) : Verdict × State :=
  if s.isShed c.code then s.refuseEnerg c.code 0x0F 0x03
  else if latched then s.refuseEnerg c.code 0x10 (loadBlock c.code)
  else s.decideEnerg c value

end Sys2Proof.Machine
end

