-- ==== Sys2Proof/Machine/Members.lean ====
section
/-!
DEFINITION. What the own set of values of a bundle member excludes beyond its row's range (R59): a write of it is refused with 0x07, so that the
consistency checks of R61 are left with the conditions that join members.
-/
namespace Sys2Proof.Machine

/-- A list without repeats. -/
def distinct {α : Type} [BEq α] (l : List α) : Bool := l.eraseDups.length = l.length

/-- A correction curve: it starts at 0 and never falls (R227). -/
def gammaOk (t : List Word) : Bool :=
  t.length = 64 && t.headD 1 = 0 && (List.zip t (t.drop 1)).all (fun p => p.1.toNat ≤ p.2.toNat) && t.all (·.toNat ≤ 65535)

/-- A phase of PRE, TSEG1, TSEG2 cycles runs at most at `max` bit/s, SJW at most TSEG2 (R375, R376). -/
def phaseOk (pre t1 t2 sjw max : Nat) : Bool := 40000000 ≤ max * (pre * (1 + t1 + t2)) && sjw ≤ t2

def nbtOk (w : Word) : Bool :=
  w.toNat % 16 = 0 && phaseOk (fld w 35 26 + 1) (fld w 25 18 + 1) (fld w 17 11 + 1) (fld w 10 4 + 1) 1000000
def dbtOk (phy : Nat) (w : Word) : Bool :=
  w.toNat % 1024 = 0 &&
    phaseOk (fld w 35 31 + 1) (fld w 30 26 + 1) (fld w 25 22 + 1) (fld w 21 18 + 1) (if phy = 1 then 8000000 else 5000000)

/-- A buffer's configuration word (R378), and the two words of a filter (R379). -/
def bufWordOk (w : Word) : Bool := fld w 33 32 ≤ 2 && fld w 30 26 ≤ 16 && fld w 24 0 = 0
def filterOk (w0 w1 : Word) : Bool :=
  fld w0 33 32 != 3 && fld w0 31 29 = 0 && !w1.getLsbD 29 && (w0.getLsbD 34 || fld w0 17 0 = 0)

/-- A DOMAIN of one bit a block names assigned blocks alone (R489, R504). -/
def blocksOk (v : List Word) : Bool :=
  v.all (fun w => fld w 35 32 = 0) && (List.range 128).all fun b => assigned b || !(v.getD (b / 32) 0).getLsbD (b % 32)

/-- SEVMAP (R487): severities 0 to 4, 0 for unassigned blocks, and 3 for the two sources whose severity is fixed. -/
def sevmapOk (v : List Word) : Bool :=
  (List.range 4096).all fun i =>
    let e := nibble v i
    e ≤ 4 && (assigned (i / 32) || e = 0) && (!(i = 0x029 || i = 0x063) || e = 3)

/-- CLASSMAP (R467): classes, and 0 for unused codes. -/
def classmapOk (v : List Word) : Bool :=
  (List.range 171).all fun c =>
    let e := nibble v c
    e ≤ 7 && (c < 0x64 || 0x80 ≤ c || e = 0)

/-- A profile's thresholds and hystereses (R483). -/
def thOk (v : List Word) : Bool :=
  let th (k : Nat) : Nat := fld (v.getD k 0) 31 16
  let hys (k : Nat) : Nat := fld (v.getD k 0) 15 0
  v.getD 0 0 = 0 && 6500 ≤ th 1 && (List.range 7).all fun i =>
    let k := i + 1
    fld (v.getD k 0) 35 32 = 0 && (k = 1 || th (k - 1) ≤ th k) && 100 ≤ hys k && th k + hys k ≤ 36000

/-- Stream entries (R405): reserved bits, the frame length and the ports of an enabled entry; no two of them name one contract. -/
def streamsOk (v : List Word) : Bool :=
  let w (j k : Nat) : Word := v.getD (3 * j + k) 0
  let on := (List.range 64).filter fun j => (w j 0).getLsbD 35
  (List.range 64).all (fun j => fld (w j 0) 17 16 = 0 && fld (w j 1) 35 32 = 0 && fld (w j 2) 12 0 = 0) &&
    on.all (fun j =>
      let ports := fld (w j 0) 25 21
      64 ≤ fld (w j 2) 23 13 && fld (w j 2) 23 13 ≤ 1522 && ports % 2 = 0 && ports != 0 && (!(w j 0).getLsbD 34 || [2, 4, 8, 16].contains ports)) &&
    distinct (on.map fun j => fld (w j 0) 33 26)

/-- Node entries (R439). -/
def nodesOk (v : List Word) : Bool :=
  v.all fun w => fld w 20 0 = 0 && (!w.getLsbD 35 || (fld w 26 25 < 3 && 1 ≤ fld w 34 27 && fld w 34 27 ≤ 254 && (fld w 26 25 = 0 || fld w 24 22 = 0) &&
    (fld w 26 25 != 2 || fld w 34 27 ≤ 7)))

/-- Tokens (R462): distinct TIDs and slots of enabled tokens, AES-128 key slots, reserved bits. -/
def tokensOk (v : List Word) : Bool :=
  let w (t k : Nat) : Word := v.getD (2 * t + k) 0
  let on := (List.range 8).filter fun t => (w t 0).getLsbD 35
  (List.range 8).all (fun t => fld (w t 1) 27 0 = 0) && on.all (fun t => fld (w t 1) 35 28 < 32) &&
    distinct (on.map fun t => fld (w t 0) 31 0) && distinct (on.map fun t => fld (w t 0) 34 32)

/-- A code of a channel that can be paired: high side or valve (R534). -/
def pairable (c : Nat) : Bool := c ≤ 0x47 || (0x58 ≤ c && c ≤ 0x63)

/-- Pair entries and paired loops (R535): channels of one kind, none twice. -/
def pairsOk (v : List Word) : Bool :=
  let ps := v.filterMap fun w => if w.getLsbD 35 then some (fld w 34 27, fld w 26 19) else none
  v.all (fun w => fld w 18 0 = 0) && ps.all (fun p => pairable p.1 && pairable p.2 && (decide (p.1 ≤ 0x47) == decide (p.2 ≤ 0x47))) &&
    distinct (ps.map (·.1)) && distinct (ps.map (·.2))
def ploopsOk (v : List Word) : Bool :=
  let ls := v.filterMap fun w => if w.getLsbD 35 then some (fld w 34 26, fld w 25 17) else none
  v.all (fun w => fld w 16 0 = 0) && ls.all (fun p => p.1 < 360 && p.2 < 360) && distinct (ls.map (·.1)) && distinct (ls.map (·.2))

/-- A source and a sink code of a loop but for what they name elsewhere (R260, R263). -/
def sourceForm (w : Nat) : Bool :=
  match w / 2 ^ 32 with
  | 0 => w = 0
  | 1 => w % 256 = 0
  | 2 => w % 128 = 0
  | _ => false
def sinkForm (w : Nat) : Bool :=
  match w / 2 ^ 32 with
  | 0 => w = 0
  | 1 => w % 2 ^ 32 < 72
  | 2 => w % 2 ^ 32 < 8
  | 3 => w % 2 ^ 32 < 24
  | _ => false

/-- A base in the frame memory (R29). -/
def frameBase (w : Nat) : Bool := 0x870000 ≤ w && w < 0x878000

/-- The own set of values of a member admits a value. -/
def memberOk (f : Fam) (sub : Nat) (v : List Word) : Bool :=
  let w := v.headD 0
  match f, sub with
  | .sink, 0x0E => gammaOk v
  | .chain, 0x05 => frameBase w.toNat
  | .chain, 0x0B => gammaOk v
  | .matrix, 0x08 => frameBase w.toNat
  | .matrix, 0x09 => frameBase w.toNat
  | .pair, 0x23 => v.all fun x => fld x 35 16 = 0
  | .loop, 0x07 => sourceForm w.toNat
  | .loop, 0x0A => sourceForm w.toNat
  | .loop, 0x0F => sourceForm w.toNat
  | .loop, 0x12 => sourceForm w.toNat
  | .loop, 0x18 => sinkForm w.toNat
  | .loop, 0x16 => decide (0 ≤ (v.getD 7 0).toInt)
  | .can, 0x04 => nbtOk w
  | .can, 0x05 => dbtOk 1 w
  | .can, 0x06 => v.all bufWordOk
  | .can, 0x07 => (List.range 128).all fun i => filterOk (v.getD (2 * i) 0) (v.getD (2 * i + 1) 0)
  | .can, 0x08 => filterOk w (v.getD 1 0 &&& 0xDFFFFFFF)
  | .can, 0x09 => filterOk w (v.getD 1 0 &&& 0xDFFFFFFF)
  | .lin, 0x03 => v.all fun x => !x.getLsbD 35 || (fld x 10 0 = 0 && 1 ≤ fld x 24 13)
  | .lin, 0x04 => v.all fun x => fld x 27 0 = 0 && (!x.getLsbD 35 || (1 ≤ fld x 32 29 && fld x 32 29 ≤ 8))
  | .eth, 0x06 => v.all fun x => fld x 12 0 = 0
  | .eth, 0x07 => (List.range 128).all fun i => fld (v.getD (2 * i) 0) 17 16 = 0 && fld (v.getD (2 * i + 1) 0) 35 32 = 0
  | .eth, 0x08 => streamsOk v
  | .ring, 0x05 => v.all fun x => fld x 29 0 = 0
  | .power, 0x13 => nodesOk v
  | .access, 0x09 => tokensOk v
  | .shed, 0x01 => classmapOk v
  | .shed, _ => if sub = 2 || sub = 3 then thOk v else true
  | .fault, 0x01 => sevmapOk v
  | .fault, 0x04 => (List.range 171).all fun i => nibble v i ≤ 2
  | .fault, 0x05 => blocksOk v
  | .dump, 0x03 => blocksOk v
  | .duo, 0x04 => pairsOk v
  | .duo, 0x05 => ploopsOk v
  | _, _ => true

end Sys2Proof.Machine
end

