-- ==== Sys2Proof/Machine/Packing.lean ====
section
/-!
DEFINITION. Octets in words (R32, R33, R382).
-/
namespace Sys2Proof.Machine

/-- A word of four octets with their flags, octet 0 first (R32). -/
def octWord (os : List (Bool × Byte)) : Word :=
  wd ((List.range 4).foldl (fun a i => a * 512 + (match os[i]? with | some (f, o) => b1 f * 256 + o.toNat | none => 0)) 0)

/-- The octets of a word, with their flags. -/
def wordOcts (w : Word) : List (Bool × Byte) :=
  (List.range 4).map fun i => (w.getLsbD (35 - 9 * i), BitVec.ofNat 8 (w.toNat / 2 ^ (27 - 9 * i)))

/-- Octets in groups of four. -/
def fours : List Byte → List (List Byte)
  | a :: b :: c :: d :: r => [a, b, c, d] :: fours r
  | [] => []
  | l => [l]

/-- A frame in a packet buffer: the flags of the last octet and of the padding are set (R33). -/
def packFrame : List Byte → List Word
  | os => (List.range ((os.length + 3) / 4)).map fun i =>
    octWord ((List.range 4).map fun j => let p := 4 * i + j; (decide (os.length ≤ p + 1), os.getD p 0))

/-- The octets of a frame in a packet buffer, and whether its flags are those of R33. -/
def unpackFrame : List Word → List Byte × Bool
  | [] => ([], true)
  | w :: r =>
    let os := wordOcts w
    let fl := os.map (·.1)
    let b := os.map (·.2)
    if fl = [false, false, false, false] then let (x, ok) := unpackFrame r; (b ++ x, ok)
    else if fl = [false, false, false, true] then (b, true)
    else if fl = [false, false, true, true] then (b.take 3, true)
    else if fl = [false, true, true, true] then (b.take 2, true)
    else if fl = [true, true, true, true] then (b.take 1, true)
    else (b, false)

/-- Four octets a word with all flags zero, the last padded (R382, PACK 1). -/
def packPlain (os : List Byte) : List Word := (fours os).map fun g => octWord (g.map fun o => (false, o))

/-- The octets of words with flag bits dropped. -/
def plainOcts (ws : List Word) : List Byte := ws.flatMap fun w => (wordOcts w).map (·.2)

/-- The bits of octets as 36-bit words, the trailing ones dropped (R382, PACK 2 as a source). -/
def packBits (os : List Byte) : List Word :=
  let n := os.foldl (fun a o => a * 256 + o.toNat) 0
  let bits := 8 * os.length
  (List.range (bits / 36)).map fun i => wd (n / 2 ^ (bits - 36 * (i + 1)))

/-- n octets of 36-bit words (R382, PACK 2 as a sink). -/
def bitOcts (n : Nat) (ws : List Word) : List Byte :=
  let v := ws.foldl (fun a w => a * 2 ^ 36 + w.toNat) 0
  let bits := 36 * ws.length
  (List.range n).map fun i => if 8 * (i + 1) ≤ bits then BitVec.ofNat 8 (v / 2 ^ (bits - 8 * (i + 1))) else
    BitVec.ofNat 8 (v * 2 ^ (8 * (i + 1) - bits))

end Sys2Proof.Machine
end

