-- ==== Sys2Proof/Machine/Dict.lean ====
section
/-!
DEFINITION. Access to the object dictionary: classes and refusals (R49 to R54, R73), answers, bundles and commits (R56 to R63), and
records of changes to protected objects (R50, R569).
-/
namespace Sys2Proof.Machine

/-- The class of a requester (R53). -/
inductive ReqClass where
  | loc | auth | opn | dbg
  deriving DecidableEq, Repr

/-- The class of a requester (R53). -/
def reqClass : Requester → ReqClass
  | .pair _ => .loc
  | .session _ => .auth
  | .master => .auth
  | .openReq _ _ => .opn
  | .debug => .dbg

/-- The number of a class in log records (R569): in the order of R53. -/
def ReqClass.code : ReqClass → Nat
  | .loc => 0 | .auth => 1 | .opn => 2 | .dbg => 3

/-- The access that an access column gives a class. -/
def AccPat.of : AccPat → ReqClass → Access
  | .rwc, .opn => .ro
  | .rwc, _ => .rwc
  | .ro, _ => .ro
  | .rw, .opn => .ro
  | .rw, _ => .rw
  | .wo, .opn => .none
  | .wo, _ => .wo
  | .konst, _ => .const
  | .woR, .auth => .wo
  | .woR, .dbg => .wo
  | .woR, _ => .none
  | .roN, .opn => .none
  | .roN, _ => .ro
  | .rwN, .opn => .none
  | .rwN, _ => .rw
  | .woL, .loc => .wo
  | .woL, .dbg => .wo
  | .woL, _ => .none
  | .rwL, .loc => .rw
  | .rwL, .dbg => .rw
  | .rwL, _ => .ro
  | .rwA, .auth => .rw
  | .rwA, .dbg => .rw
  | .rwA, _ => .ro
  | .rwcN, .opn => .none
  | .rwcN, _ => .rwc
  | .woF, .loc => .wo
  | .woF, _ => .none

/-- The words of a type (R51); a DOMAIN is not read or written whole. -/
def OType.words : OType → Nat
  | .u72 => 2
  | .str => 63
  | .dom => 0
  | _ => 1

/-- A value obeys the encoding of its type (R51). -/
def typeOk (t : OType) (v : Val) : Bool :=
  match t, v with
  | .bool, [w] => w.toNat ≤ 1
  | .u8, [w] => w.toNat ≤ 0xFF
  | .u16, [w] => w.toNat ≤ 0xFFFF
  | .u36, [_] => true
  | .s36, [_] => true
  | .fix, [_] => true
  | .u72, [_, _] => true
  | .str, l => 1 ≤ l.length && l.length ≤ 63
  | .dom, _ => true
  | _, _ => false

/-- The domain that holds an object family (R26, R426). -/
def famDomain : Fam → Fin 7
  | .power | .reset | .duo => 0
  | .fault | .dump | .speed | .shed | .tgrp | .boost => 1
  | .hs | .leg | .pair | .valve | .bank | .sw | .io | .an | .sink | .chain | .matrix | .access => 4
  | .loop => 3
  | .can | .lin | .eth | .ring => 5
  | .ident | .prof | .bundle | .contract | .update | .log | .fw => 2

/-- An operand code of an input, or none (R185). -/
def inputCodeOk (v : Nat) : Bool := v ≤ 0x4F || v = 0xFE

/-- The values that a row's own chapter checks at the write (`.special`). -/
def specialOk (f : Fam) (n sub : Nat) (v : Val) : Bool :=
  let w := (v.headD 0).toNat
  match f, sub with
  | .speed, _ => 0x800000 ≤ w && w ≤ 0x85FE00 && w % 512 = 0
  | .hs, _ => 1 ≤ w && w ≤ hsNominal n
  | .pair, 0x02 => w / 2 ^ 28 % 16 = 0
  | .pair, _ => inputCodeOk w
  | .loop, 0x05 => 2000 ≤ w && w ≤ 10000000 && w % 100 = 0
  | .loop, _ => w % 100 = 0
  | .sw, _ => w % 4 != 3 && w / 4 % 4 = 0
  | .can, _ => w % 4 != 3 && w < 8
  | .eth, 0x01 => w % 4 != 3 && w / 4 % 4 != 3 && w < 64
  | .eth, 0x02 => w % 4 != 3 && w / 4 % 4 != 3 && w < 16
  | .eth, 0x0D => w % 4 != 3 && w / 8 % 8 ≤ 5 && w < 64
  | .eth, 0x05 => w < 2 ^ 12
  | .eth, _ => w % 16 = 0 && 1 ≤ w / 2 ^ 20 % 256 && 1 ≤ w / 2 ^ 12 % 256
  | .access, _ => w % 2 ^ 12 = 0 && 1 ≤ w / 2 ^ 24 % 256 && 10 ≤ w / 2 ^ 16 % 256 && w / 2 ^ 16 % 256 ≤ 200 &&
      1 ≤ w / 2 ^ 12 % 16 && w / 2 ^ 12 % 16 ≤ 8
  | .fault, 0x0C => w ≤ 0xFFF || w = 0xFFFF
  | .fault, _ => w ≤ 0x7F || w = 0xFF
  | .dump, _ => w % 8 = 0 && 0x800000 ≤ w && w + 512 ≤ 0x860000
  | _, _ => true

/-- The value lies in the row's range (R59). -/
def rangeOk (f : Fam) (n : Nat) (r : ObjRow) (v : Val) : Bool :=
  match r.rng with
  | .any => memberOk f r.sub v
  | .upTo lo hi => lo ≤ (v.headD 0).toNat && (v.headD 0).toNat ≤ hi
  | .signed lo hi => lo ≤ (v.headD 0).toInt && (v.headD 0).toInt ≤ hi
  | .mask m => (v.headD 0).toNat &&& m = (v.headD 0).toNat
  | .oneOf l => l.contains (v.headD 0).toNat
  | .special => specialOk f n r.sub v

/-- The object server serves (R595); debug alone reaches AON objects without it. -/
def State.served (s : State) (r : Requester) (f : Fam) : Bool :=
  s.up 2 || (r == .debug && famDomain f == 0)

/-- Checks index, subindex, class and domain of an access (R66, R49, R53, R68, R70): the row, or the refusal code. -/
def State.access (s : State) (r : Requester) (idx sub : Nat) (write : Bool) : (Fam × Nat × ObjRow) ⊕ Byte :=
  match famOf idx with
  | none => .inr 0x01
  | some (f, n) =>
    match findRow f sub with
    | none => .inr 0x02
    | some row =>
      match row.acc.of (reqClass r), write with
      | .none, _ => .inr 0x03
      | .ro, true => .inr 0x04
      | .const, true => .inr 0x04
      | .wo, false => .inr 0x05
      | _, _ =>
        if write && f == .reset && s.rst.wdLock && (2 ≤ sub && sub ≤ 5 || sub = 7) then .inr 0x04
        else if (bget s.dom (famDomain f)).powered then .inl (f, n, row) else .inr 0x0A

/-- Checks a write with its value (R59): the row, or the refusal code. -/
def State.writeCheck (s : State) (r : Requester) (idx sub : Nat) (v : Val) : (Fam × Nat × ObjRow) ⊕ Byte :=
  match s.access r idx sub true with
  | .inr c => .inr c
  | .inl (f, n, row) =>
    if !typeOk row.type v then .inr 0x06
    else if !rangeOk f n row v then .inr 0x07
    else .inl (f, n, row)

/-- What a meaning answers its requester: refusal code, 0 for success, and detail (R73). -/
abbrev Code := Byte × BitVec 16

/-- Success. -/
def okc : Code := (0, 0)

/-! Messages (R71, R80) -/

/-- The five octets of FRESH. -/
def freshOcts (w : Word) : List Byte := (List.range 5).map fun i => BitVec.ofNat 8 (w.toNat / 2 ^ (32 - 8 * i))

/-- The octets of a header: SVC, the flags of octet 1, what the message names, and LEN (R71). -/
def zopHead (svc flags : Nat) (node rqid : Byte) (index : BitVec 16) (sub : Byte) (len : Nat) : List Byte :=
  [BitVec.ofNat 8 (0x40 + svc), BitVec.ofNat 8 flags, node, rqid, index.extractLsb 15 8, index.extractLsb 7 0, sub, BitVec.ofNat 8 len]

/-- The MAC of a message under a key slot, if the slot holds a key (R80): `dir` is 0x00 from host to device, 0x01 back. -/
def State.zopMac (s : State) (slot sid dir : Byte) (head data : List Byte) (fresh : Word) : Option (BitVec 64) :=
  if h : slot.toNat < 32 then
    (bget s.upd.keys ⟨slot.toNat, h⟩).map fun k => (cmac k ([sid, dir] ++ head ++ data ++ freshOcts fresh)).extractLsb 127 64
  else none

/-- A session sends a message: FRESH goes up by one (R80). -/
def State.nextFresh (s : State) (i : Fin 8) (x : Session) : State :=
  s.onSrv fun v => { v with sess := bset v.sess i (some { x with tx := satInc x.tx }) }

/-- A message of the device as it leaves: its octets and, to a session, the FRESH and the MAC of its trailer (R71, R80). -/
structure Sealed where
  authed : Bool
  fresh  : Word
  mac    : Option (BitVec 64)
  octets : List Byte

/-- A message to a requester is formed: RSP set, ERR for a refusal, AUTH and the trailer with the next FRESH to a session (R71, R80).  Between the
cascade master and a follower AUTH stands without a trailer (log 13). -/
def State.seal (s : State) (r : Requester) (svc : Nat) (err : Bool) (node rqid : Byte) (index : BitVec 16) (sub : Byte) (data : List Byte) : Sealed × State :=
  let head (auth : Bool) : List Byte := zopHead svc (0x80 + b1 err * 0x40 + b1 auth * 0x20) node rqid index sub data.length
  let plain (auth : Bool) : Sealed × State := ({ authed := false, fresh := 0, mac := none, octets := head auth ++ data }, s)
  match r with
  | .session i =>
    match bget s.srv.sess i with
    | some x =>
      let fresh := satInc x.tx
      let sid := BitVec.ofNat 8 (i.val + 1)
      let mac := s.zopMac x.slot sid 1 (head true) data fresh
      let tail := sid :: freshOcts fresh ++ (List.range 8).map fun k => (mac.getD 0).extractLsb' (56 - 8 * k) 8
      ({ authed := true, fresh := fresh, mac := mac, octets := head true ++ data ++ tail }, s.nextFresh i x)
    | none => plain false
  | .master => plain true
  | _ => plain false

/-- A message leaves on a medium (R75): over the ring, in a ring object frame to the node it answers; on a CAN channel it waits for its turn at
ZOPTX (R384). -/
def State.emit (s : State) (m : Medium) (peer : Nat) (octets : List Byte) : State :=
  match m with
  | .ring => s.onRing fun r => { r with txq := r.txq ++ [{ cls := 4, bc := false, dst := Fin.ofNat 8 peer, words := packFrame octets }] }
  | .can ch => { s with cans := bmod s.cans ch fun c => if octets.isEmpty then c else { c with zopq := c.zopq ++ [octets] } }
  | .udp _ => s

/-- The medium address of a requester that is reached by messages. -/
def State.addressOf (s : State) (r : Requester) : Option (Medium × Nat) :=
  match r with
  | .openReq m p => some (m, p)
  | .master => some (.ring, 0)
  | .session i => (bget s.srv.sess i).bind fun x => match x.peer with | .openReq m p => some (m, p) | _ => none
  | _ => none

/-- The answer to an access that no message asks for; one of a session counts as a message of its own. -/
def State.tell (s : State) (r : Requester) (c : Code) (data : List Word) : State :=
  let give (authed : Bool) (fresh : Word) (st : State) : State :=
    st.onSrv fun v => { v with
      answer := some { dest := r, rqid := 0, code := c.1, detail := c.2, data := data, authed := authed, fresh := fresh, mac := none, octets := [] } }
  match r with
  | .session i =>
    match bget s.srv.sess i with
    | some x => give true (satInc x.tx) (s.nextFresh i x)
    | none => give false 0 s
  | _ => give false 0 s

/-- The response to a ZOP message: the octets of a success, or code and detail (R72, R73), under the header that echoes the request's RQID, INDEX and
SUB (R71); to a session it carries a trailer (R80). -/
def State.zopReply (s : State) (r : Requester) (h : ZopHdr) (svc : Nat) (c : Code) (octs : List Byte) : State :=
  let bad := c.1 != 0
  let data := if bad then [c.1, c.2.extractLsb 15 8, c.2.extractLsb 7 0] else octs
  let (m, s1) := s.seal r svc bad h.node h.rqid h.index h.sub data
  (s1.onSrv fun v => { v with
    answer := some { dest := r, rqid := h.rqid, code := c.1, detail := c.2, data := if bad then [] else octs.map fun o => wd o.toNat,
                     authed := m.authed, fresh := m.fresh, mac := m.mac, octets := m.octets } }).emit h.medium h.peer m.octets

/-! Accesses -/

/-- The block that an object's traffic goes to (R26). -/
def famBlock (f : Fam) (n : Nat) : Nat :=
  match f with
  | .power => 0x02 | .reset => 0x01 | .duo => 0x00 | .fault => 0x05 | .dump => 0x05 | .speed => 0x06
  | .shed => 0x03 | .tgrp => 0x04 | .hs => 0x30 + n / 8 | .leg => 0x39 + n / 8 | .pair => 0x39 + n / 4 | .valve => 0x3B | .bank => 0x3B
  | .boost => 0x3C | .sw => 0x3D | .io => 0x3E | .an => 0x3F | .sink => 0x40 | .chain => 0x41 | .matrix => 0x41 | .access => 0x42
  | .loop => 0x20 | .can => 0x48 + n | .lin => 0x50 + n | .eth => 0x58 | .ring => 0x5D
  | .contract => 0x06 | .update => 0x09 | .log => 0x0A | .ident | .prof | .bundle | .fw => 0x09

/-- Configuration traffic reaches an object's block: its domain is released and no reset of the block alone is asserted (R520).  A loop is not
tied to one tile (R26). -/
def State.reaches (s : State) (f : Fam) (n : Nat) : Bool :=
  s.up (famDomain f) && (f == .loop || !s.rst.blocks.any (·.blk == famBlock f n))

/-- The requester of an accepted request. -/
def SrvReq.by_ : SrvReq → Requester
  | .core q => .pair q.pair
  | .acc a => a.by_
  | .msg r _ _ => r

/-- The server holds as many requests as it may (R55). -/
def State.srvBusy (s : State) : Bool :=
  let v := s.srv
  16 ≤ v.queue.length + v.heldAcc.length + v.fw.length + (v.commits.filter fun c => !c.checked).length

/-- A request of the instance is accepted and its answer is outstanding: its block is in reset, the firmware handler has it, or its commit is in
check. -/
def State.waits (s : State) (r : Requester) : Bool :=
  s.srv.heldAcc.any (·.by_ == r) || s.srv.fw.any (·.by_ == r) || s.srv.commits.any fun c => !c.checked && c.owner == r

/-- A request that comes now is served at once: nothing accepted earlier is still to be served (R55), nor a response of the same instance
outstanding (R72). -/
def State.srvFree (s : State) (r : Requester) : Bool := !s.srvBusy && s.srv.queue.isEmpty && !s.waits r

/-- The server accepts a request of a requester (R55): refused with 0x10 when it is busy, served at once, or queued behind what it accepted
before. -/
def State.accept (s : State) (q : SrvReq) (busy serve : State → State) : State :=
  if s.srvBusy then busy s
  else if s.srvFree q.by_ then serve s
  else s.onSrv fun v => { v with queue := v.queue ++ [q] }

/-- An object access of a pair discards the words latched for it and its held half (R69). -/
def State.noteAccess (s : State) (r : Requester) : State :=
  match r with
  | .pair p => s.onSrv fun v => { v with ldo := bset v.ldo p none, half := bset v.half p none }
  | _ => s

/-- An access waits for the release of its block (R520). -/
def State.holdAcc (s : State) (a : HeldAcc) : State := s.onSrv fun u => { u with heldAcc := u.heldAcc ++ [a] }

/-- A write command served as an access to its object: accepted in its turn, checked, carried out by `f`, answered; held while its block is in
reset (R520); refused while the log's queue is full if the object is protected (R570). -/
def State.objCmd (s : State) (r : Requester) (idx sub : Nat) (v : Val) (f : State → Code × State) : State :=
  match famOf idx with
  | none => s
  | some (fam, n) =>
    let a : HeldAcc := { by_ := r, hdr := none, index := idx, sub := sub, value := some v }
    if !s.served r fam then s
    else s.accept (.acc a) (·.tell r (0x10, 0) []) fun s =>
      let t := s.noteAccess r
      match t.writeCheck r idx sub v with
      | .inr c => t.tell r (c, 0) []
      | .inl (_, _, row) =>
        if row.prot && 32 ≤ t.log.queue.length then t.tell r (0x10, 0) []
        else if t.reaches fam n then ((f t).2).tell r (f t).1 []
        else t.holdAcc a

/-- The code of a decision (R103). -/
def Verdict.code : Verdict → Code
  | .refused reason blk => (0x12, BitVec.ofNat 16 (reason * 256 + blk))
  | _ => okc

/-! Records of the event log -/

/-- Queues an event-log record; a full queue counts it into DROP and raises kind 4 of block 0x0A (R570). -/
def State.logEvent (s : State) (cls : Nat) (payload : List Word) : State :=
  if s.log.queue.length < 32 then
    { s with log := { s.log with
        queue := s.log.queue ++ [{ cls := cls, time := s.time.time, drop := s.log.drop, payload := payload }], drop := 0 } }
  else
    State.raise { s with log := { s.log with drop := min 4095 (s.log.drop + 1), lost := satInc s.log.lost } } 0x0A 4

/-- The octets of words, as a block transfer carries them: pairs of words in 9 octets, bit 35 first (R77). -/
def octetImage : List Word → List Byte
  | [] => []
  | [w] => pairOctets w 0
  | w :: x :: r => pairOctets w x ++ octetImage r
where
  pairOctets (w x : Word) : List Byte :=
    (List.range 9).map fun i => BitVec.ofNat 8 ((w.toNat * 2 ^ 36 + x.toNat) / 2 ^ (64 - 8 * i))

/-- The eight 32-bit words of a digest. -/
def digestWords (h : BitVec 256) : List Word :=
  (List.range 8).map fun i => wd (h.toNat / 2 ^ (224 - 32 * i) % 2 ^ 32)

/-- Session or pair number of a requester in a class 0x03 record. -/
def reqNum : Requester → Nat
  | .pair p => p.val
  | .session i => i.val + 1
  | _ => 0

/-- The record of an applied change to a protected object (R50, R569, class 0x03). -/
def State.logChange (s : State) (r : Requester) (idx sub : Nat) (v : Val) : State :=
  let w0 := wd (idx * 2 ^ 20 + sub * 2 ^ 12 + (reqClass r).code * 2 ^ 10 + reqNum r)
  let vs := match v with
    | [x] => [0, x]
    | [x, y] => [x, y]
    | l => [0, 0] ++ digestWords (sha256 (octetImage l))
  s.logEvent 0x03 (w0 :: vs)

/-! Applying values -/

/-- The row of an object. -/
def rowOf (idx sub : Nat) : Option ObjRow := (famOf idx).bind fun f => findRow f.1 sub

/-- A value enters the applied set; a change of a saved object starts the store timer (R64). -/
def State.keepObj (s : State) (idx sub : Nat) (v : Val) : State :=
  let t := s.setObj idx sub v
  if s.obj idx sub != v && (rowOf idx sub).any (·.persist == .saved) then t.onSrv fun u => { u with dirty := some s.now } else t

/-- Applies a value that a requester has written: it enters the applied set, and the change of a protected object is logged (R50). -/
def State.applyVal (s : State) (r : Requester) (row : ObjRow) (idx : Nat) (v : Val) : State :=
  let t := s.keepObj idx row.sub v
  if s.obj idx row.sub != v && row.prot then t.logChange r idx row.sub v else t

/-- The staged values of a bundle, with their subindices. -/
def Server.stagedOf (v : Server) (idx : Nat) : List (Nat × Val) :=
  (v.staged.filter fun e => e.1 / 256 == idx).map fun e => (e.1 % 256, e.2)

/-- The value a member of a bundle has in its staged set: staged, else applied (R61). -/
def State.stagedVal (s : State) (idx sub : Nat) : Val :=
  (alFind (okey idx sub) s.srv.staged).getD (s.obj idx sub)

/-- A one-word member of the staged set as a number. -/
def State.stg (s : State) (idx sub : Nat) : Nat := ((s.stagedVal idx sub).headD 0).toNat

/-- Discards a bundle's staged values and its ownership (R60). -/
def Server.dropBundle (v : Server) (idx : Nat) : Server :=
  { v with staged := v.staged.filter (fun e => e.1 / 256 != idx), bundles := v.bundles.filter (·.index != idx) }

/-- The object index of a sense request. -/
def reqIdx : AdcReq → Nat
  | .load (.hs ch) => 0x2000 + ch.val
  | .load (.leg n) => 0x2100 + n.val
  | .load (.pair k) => 0x2100 + 2 * k.val
  | .load (.valve n) => 0x2200 + n.val
  | .load (.sink n) => 0x2400 + n.val
  | .an n => 0x2360 + n.val

/-- A placement reserved for a bundle takes effect with it (R87, R368); an analog input that is not in use has none. -/
def State.takePlace (s : State) (idx : Nat) : State :=
  let mine (p : AdcPlace) : Bool := reqIdx p.req == idx
  let unused := 0x2360 ≤ idx && idx ≤ 0x236F && s.cfg idx 1 = 0
  match s.adc.pend.find? mine with
  | some p =>
    { s with adc := { s.adc with
        places := (s.adc.places.filter fun q => !mine q) ++ if unused then [] else [p]
        pend := s.adc.pend.filter fun q => !mine q } }
  | none => if unused then { s with adc := { s.adc with places := s.adc.places.filter fun q => !mine q } } else s

/-- Each subscription of an object among `hit` is to be notified, whatever the value, with the TIME of now (R76). -/
def State.notesFor (s : State) (hit : ObjKey → Bool) : State :=
  let note (x : Sub) : Sub := if hit x.key then { x with stamp := some s.stamp, force := true } else x
  s.onSrv fun v => { v with subs := v.subs.map (·.map note) }

/-- The subscribers of an object are sent a NOTIFY (R76, R455). -/
def State.askNotes (s : State) (key : ObjKey) : State := s.notesFor (· == key)

/-- A commit asks for one NOTIFY of each subscribed member of a bundle that it applies, with the TIME of its application (R76). -/
def State.commitNotes (s : State) (idx : Nat) : State :=
  s.notesFor fun k => k / 256 == idx && (rowOf idx (k % 256)).any (·.apply == .cmt)

/-- The staged values of a bundle replace its applied values, and its ownership ends (R60, R61). -/
def State.applyBundle (s : State) (r : Requester) (idx : Nat) : State :=
  let s1 := (s.srv.stagedOf idx).foldl (fun st e =>
    match famOf idx with
    | none => st
    | some (f, _) => match findRow f e.1 with
      | none => st
      | some row => st.applyVal r row idx e.2) s
  ((s1.onSrv fun v => v.dropBundle idx).takePlace idx).commitNotes idx

/-- The number of a requester's instance of obj 0x10F0 (R63); an open requester has none. -/
def instOf : Requester → Option (Fin 12)
  | .pair p => some ⟨p.val, by omega⟩
  | .debug => some 2
  | .session i => some ⟨i.val + 3, by omega⟩
  | .master => some 11
  | .openReq _ _ => none

/-- One instance's obj 0x10F0 changed. -/
def State.onInst (s : State) (r : Requester) (f : CommitInst → CommitInst) : State :=
  match instOf r with
  | none => s
  | some i => s.onSrv fun v => { v with insts := bmod v.insts i f }

/-- A bundle of a pending commit is applied at its owner's boundary; with the last one the commit is applied: STATUS 3, GEN + 1 (R61,
R63). -/
def State.applyOwned (s : State) (idx : Nat) : State :=
  match s.srv.commits.find? (fun c => c.checked && c.strobed && c.indices.contains idx) with
  | none => s
  | some c =>
    let s1 := s.applyBundle c.owner idx
    let c1 := { c with indices := c.indices.filter (· != idx) }
    if c1.indices.isEmpty then
      (s1.onSrv fun v => { v with commits := v.commits.filter (· != c) }).onInst c.owner fun i => { i with status := 3, gen := satInc i.gen }
    else s1.onSrv fun v => { v with commits := v.commits.map fun d => if d = c then c1 else d }

/-- Accepted values of PER objects are applied at their owner's period boundary (R56, R57). -/
def State.applyPer (s : State) (idx : Nat) : State :=
  let due := s.srv.per.filter fun e => e.1 / 256 == idx
  if due.isEmpty then s
  else (due.foldl (fun st e => st.keepObj idx (e.1 % 256) e.2) s).onSrv fun v => { v with per := v.per.filter fun e => e.1 / 256 != idx }

end Sys2Proof.Machine
end

