-- ==== Sys2Proof/Machine/HighSide.lean ====
section
/-!
DEFINITION. High-side channels: commands, the period grid, the inrush ladder, cut-off, diagnostics, sense words and reset policies
(R116 to R151), with the operations that other chapters call.
-/
namespace Sys2Proof.Machine

/-- The object index of channel ch. -/
def hsIdx (ch : Fin 72) : Nat := 0x2000 + ch.val

/-- The group of a channel (R117). -/
def hsGroup (ch : Fin 72) : Fin 9 := ⟨ch.val / 8, by omega⟩

/-- Channel c of group g. -/
def hsOf (g : Fin 9) (c : Fin 8) : Fin 72 := ⟨8 * g.val + c.val, by omega⟩

/-- A group's place among the junction sensors. -/
def grpTh (g : Fin 9) : ThermGrp := ⟨g.val, by omega⟩

/-- One channel changed. -/
def State.onHs (s : State) (ch : Fin 72) (f : HsChannel → HsChannel) : State := { s with hs := bmod s.hs ch f }

/-- A thermal state changed. -/
def State.onTh (s : State) (g : ThermGrp) (f : ThermState → ThermState) : State := { s with th := bmod s.th g f }

/-- A target of speedwell by its code (R111). -/
def tgtFin (code : Nat) : Fin 116 := Fin.ofNat 116 code

/-- Raises kind k of a channel's group block. -/
def State.raiseHs (s : State) (ch : Fin 72) (k : Nat) : State := s.raise (0x30 + ch.val / 8) k

/-- Blink clock BKn is in its on half (R114). -/
def State.blinkOn (s : State) (n : Nat) : Bool :=
  let p := s.cfg 0x2700 (3 + n % 4)
  s.now % msT p < msT (p / 2)

/-- Firmware flag Fi in force: a true level rule sets it, else the last edge action or write (R113). -/
def State.flag (s : State) (i : Nat) : Bool :=
  match bget s.adm.level (tgtFin (0x64 + i % 16)) with
  | some a => a.1 = 0
  | none => s.adm.flags.getLsbD (i % 16)

/-- FLAGS (obj 0x2700.07). -/
def State.flagsNow (s : State) : Nat := ((List.range 16).map fun i => b1 (s.flag i) * 2 ^ i).sum

/-- The command state that a speedwell action calls for at a high-side channel (R111, R119). -/
def State.spwCmd (s : State) (a : Byte × Byte) : HsCmd :=
  if a.1 = 0 then .on else if a.1 = 2 then (if s.blinkOn a.2.toNat then .on else .off)
  else if a.1 = 3 then .spwDuty a.2 else .off

/-- LIMPD as a command state (R142). -/
def limpCmd (limpd : Nat) : HsCmd :=
  if limpd = 0 then .off else if limpd = 255 then .on else .spwDuty (BitVec.ofNat 8 limpd)

/-- A target's energisation is a speedwell rule's: a level rule sets it, or the last edge action stands (R102). -/
def State.byRule (s : State) (code : Nat) : Bool := (bget s.adm.level (tgtFin code)).isSome || (bget s.adm.edge (tgtFin code)).isSome

/-- The command state that a reset policy sets (R142). -/
def State.hsPolicyCmd (s : State) (ch : Fin 72) (c : HsChannel) : HsCmd :=
  match c.policy with
  | .none => c.cmd
  | .off => .off
  | .hold was _ => was
  | .limp => limpCmd (s.cfg (hsIdx ch) 0x15)

/-- The command state a channel follows (R113, R118, R143): a true level rule, else the last edge action, else the reset policy, else the
last firmware command. -/
def State.hsWant (s : State) (ch : Fin 72) : HsCmd :=
  match bget s.adm.level (tgtFin ch.val) with
  | some a => s.spwCmd a
  | none => match bget s.adm.edge (tgtFin ch.val) with
    | some a => s.spwCmd a
    | none => s.hsPolicyCmd ch (bget s.hs ch)

/-- The on-time a command state calls for, in 10 µs, before derating (R119). -/
def State.hsOnTime0 (s : State) (ch : Fin 72) : HsCmd → Nat
  | .off => 0
  | .on => (bget s.hs ch).period
  | .pwm => s.cfg (hsIdx ch) 8
  | .duty d => (bget s.hs ch).period * d.toNat / 65535
  | .spwDuty a => (bget s.hs ch).period * a.toNat / 255

/-- PWM and DUTY: the command states that the grid drives and the governor derates. -/
def HsCmd.isPwm : HsCmd → Bool
  | .pwm | .duty _ | .spwDuty _ => true
  | _ => false

/-- The on-time in force, derated (R119, R477). -/
def State.hsOnTime (s : State) (ch : Fin 72) (c : HsCmd) : Nat :=
  if c.isPwm then s.hsOnTime0 ch c * s.factor ch.val / 255 else s.hsOnTime0 ch c

/-- On-resistance for the charge, in mΩ (R475). -/
def hsRon (ch : Fin 72) : Nat := if ch.val < 12 then 14 else if ch.val < 48 then 50 else 180

/-- What a command state is charged (R99, R475), for a declared current and an on-time out of a period. -/
def hsChargeOf (ch : Fin 72) (iload onT period : Nat) (pwm : Bool) : Charge :=
  { code := ch.val, na := iload * onT * 1000000 / period, nw := iload * iload * hsRon ch * onT / period, derat := pwm }

/-- What a command state is charged at the applied settings. -/
def State.hsCharge (s : State) (ch : Fin 72) (c : HsCmd) : Charge :=
  let p := (bget s.hs ch).period
  match c with
  | .duty d => hsChargeOf ch (s.cfg (hsIdx ch) 6) d.toNat 65535 true
  | .spwDuty a => hsChargeOf ch (s.cfg (hsIdx ch) 6) a.toNat 255 true
  | _ => hsChargeOf ch (s.cfg (hsIdx ch) 6) (s.hsOnTime0 ch c) (Nat.max p 1) c.isPwm

/-- A charge rises over another (an energisation, R99). -/
def Charge.risesOver (a b : Charge) : Bool := b.nw < a.nw || b.na < a.na

/-- What a load is charged now. -/
def State.charged (s : State) (code : Nat) : Charge :=
  (s.adm.charges.find? (·.code == code)).getD { code := code, na := 0, nw := 0, derat := false }

/-- A HOLD of every output in force whatever the command: ground loss, PARK and DEEP PARK (R130, R145, R482). -/
def State.heldOff (s : State) : Bool := s.sup.gloss || !(bget s.dom 4).powered

/-- The safe state a load is in (R490): none, or the SAFE value. -/
def State.safeOf (s : State) (code : Nat) : Option Nat :=
  if s.flt.safe.getLsbD code then some (nibble (s.obj 0x1300 4) code) else none

/-- The role in which a paired channel does not act (R543). -/
def DuoRole.waits : DuoRole → Bool
  | .unresolved | .syncing | .ready => true
  | _ => false

/-- The load is a paired channel of a device that stands by (R535, R543). -/
def State.duoHeld (s : State) (code : Nat) : Bool :=
  s.duo.role.waits && (s.obj 0x1600 4).any fun w => w.getLsbD 35 && fld w 34 27 = code

/-- The words of pair i in a STATE payload (R540). -/
def copyPair (ws : List Word) (i : Nat) : Word × Word := (ws.getD (4 + 2 * i) 0, ws.getD (5 + 2 * i) 0)

/-- The word pair of a copy that names a local load as the partner's. -/
def copyOf (ws : List Word) (code : Nat) : Option (Word × Word) :=
  ((List.range (fld (ws.getD 0 0) 25 20)).map (copyPair ws)).find? fun p => fld p.1 27 20 = code

/-- A load may be tested while it is off: a paired one of a standby only while the partner's copied CST is 0 (R544). -/
def State.duoTests (s : State) (code : Nat) : Bool := !s.duoHeld code || (copyOf s.duo.copy code).any fun p => fld p.1 19 16 = 0

/-- An OFF safe state holds the load off (R490, R491): SAFE 0, and POLICY where the load has no reset policy; so does the standby of a
duo (R543). -/
def State.safeOff (s : State) (code : Nat) : Bool :=
  s.duoHeld code ||
    match s.safeOf code with
    | some 0 => true
    | some 2 => 0x80 ≤ code
    | _ => false

/-! Output -/

/-- The output goes off: its time is kept, its on-phase ends; a due off-state test may then run (R126, R135). -/
def hsDark (now : Nat) (c : HsChannel) : HsChannel :=
  { c with out := false, onEnds := none, offAt := if c.out then some now else c.offAt }

/-- The group's quiet window runs (R134). -/
def State.quiet (s : State) (g : Fin 9) : Bool :=
  match (bget s.th (grpTh g)).quiet with
  | some e => s.now < e
  | none => false

/-- The inrush window that an on-edge opens (R126, R134): after at least 20 ms off, unless IRWIN is 0. -/
def State.hsWindow (s : State) (ch : Fin 72) (c : HsChannel) : Option Inrush :=
  let w := s.cfg (hsIdx ch) 0x0C
  let long := match c.offAt with
    | none => true
    | some t => t + msT 20 ≤ s.now
  if long && w != 0 then
    some { retry := 0, ends := s.now + msT w, frozen := if s.quiet (hsGroup ch) then some s.now else none, missed := false }
  else c.win

/-- Latches a channel (R131, R132): the output goes off, the window ends, the charge ends; the first cause stands. -/
def State.hsLatch (s : State) (ch : Fin 72) (cause : BitVec 3) : State :=
  let s1 := s.onHs ch fun c =>
    { hsDark s.now c with act := .off, next := none, win := none, offEnds := none, lowAt := none, lcause := if c.lcause = 0 then cause else c.lcause }
  (s1.uncharge ch.val).undefer ch.val

/-- The ladder's off-time, or an uncounted trip, keeps the output off (R127, R134). -/
def HsChannel.paused (c : HsChannel) : Bool := c.offEnds.isSome || c.win.any (·.missed)

/-- The channel is off between its on-phases alone (R138, R139). -/
def HsChannel.offPhase (c : HsChannel) : Bool := !c.out && c.act.isPwm && !c.paused && !c.supp

/-- An on-edge (R126, R133): the window opens as it must, a running test is abandoned and stays due, ONCOUNT counts; in thermal shutdown
the channel latches at once. -/
def State.hsLight (s : State) (ch : Fin 72) : State :=
  let c := bget s.hs ch
  if c.out || c.paused then s
  else if (bget s.th (grpTh (hsGroup ch))).hot then s.hsLatch ch 4
  else s.onHs ch fun c =>
    { c with out := true, win := s.hsWindow ch c, oncount := satInc c.oncount, supp := false,
             test := match c.test with | .idle => .idle | _ => .due }

/-- Off, by command or by what holds the output off whatever the command: window, pending change, charge and deferral end
(R124, R130, R99). -/
def State.hsOff (s : State) (ch : Fin 72) : State :=
  ((s.onHs ch fun c => { hsDark s.now c with act := .off, next := none, win := none, offEnds := none, lowAt := none }).uncharge ch.val).undefer ch.val

/-- An admitted command state is carried out (R124): ON at once, PWM and DUTY at the next grid boundary. -/
def State.hsCarry (s : State) (ch : Fin 72) (c : HsCmd) : State :=
  match c with
  | .off => s.hsOff ch
  | .on => (s.onHs ch fun h => { h with act := .on, next := none, onEnds := none }).hsLight ch
  | _ => s.onHs ch fun h => { h with next := some c }

/-- The deferred value of a command state (R101). -/
def HsCmd.value : HsCmd → Nat
  | .off => 0 | .on => 1 | .pwm => 2 | .duty d => 0x10000 + d.toNat | .spwDuty a => 0x20000 + a.toNat

/-- The command state of a deferred value. -/
def hsCmdOf (v : Nat) : HsCmd :=
  if v = 0 then .off else if v = 1 then .on else if v = 2 then .pwm
  else if v < 0x20000 then .duty (BitVec.ofNat 16 v) else .spwDuty (BitVec.ofNat 8 v)

/-- A channel takes a command state (R99, R113, R124, R491): OFF at once; a rise is decided, unless an INHIBIT suppresses it or the
turn-on is reserved; what holds the output off leaves it for later.  In thermal shutdown an on command state latches the channel (R133); a
command that is no rise replaces a deferred one (R113). -/
def State.hsApply (s : State) (ch : Fin 72) (c : HsCmd) (reserved : Bool) : Verdict × State :=
  let h := bget s.hs ch
  if c = .off then (.admitted, s.hsOff ch)
  else if s.isShed ch.val then s.refuseEnerg ch.val 0x0F 0x03
  else if h.lcause != 0 then s.refuseEnerg ch.val 0x10 (0x30 + ch.val / 8)
  else if (bget s.th (grpTh (hsGroup ch))).hot then (.admitted, s.hsLatch ch 4)
  else if s.heldOff || s.safeOff ch.val then (.admitted, s)
  else if h.next.getD h.act = c then (.admitted, s.undefer ch.val)
  else
    let ck := s.hsCharge ch c
    if ck.risesOver (s.charged ch.val) || h.act = .off then
      if s.adm.inh.getLsbD ch.val then (.admitted, s)
      else if reserved && s.isReserved ch.val then (.admitted, ((s.recharge ck).undefer ch.val).hsCarry ch c)
      else match s.energise ck c.value false with
        | (.admitted, s1) => (.admitted, s1.hsCarry ch c)
        | r => r
    else (.admitted, ((s.recharge ck).undefer ch.val).hsCarry ch c)

/-- A channel follows what it should (R113, R470): after a rule, an INHIBIT, a shed or a hold-off changed. -/
def State.hsFollow (s : State) (ch : Fin 72) : State :=
  if (bget s.hs ch).lcause != 0 then s
  else (s.hsApply ch (s.hsWant ch) (s.byRule ch.val)).2

/-- The command state of a channel is replaced by a firmware command: it ends the policy and replaces the last edge action; in a KEEP or
POLICY safe state that is what SREL returns to (R144, R491). -/
def State.hsSetCmd (s : State) (ch : Fin 72) (c : HsCmd) : State :=
  if (bget s.hs ch).base.isSome then
    s.onHs ch fun h => { h with base := some { cmd := c, policy := .none, rsp := false, edge := none, edgeB := none } }
  else (s.onHs ch fun h => { h with cmd := c, policy := .none, rsp := false }).onAdm fun a =>
    { a with edge := bset a.edge (tgtFin ch.val) none }

/-- A firmware command at a channel (R113, R124, R144, R491): it ends the policy and replaces the last edge action; a refused
energisation leaves the command state as it was (R103). -/
def State.hsCommand (s : State) (ch : Fin 72) (c : HsCmd) : Code × State :=
  let s1 := s.hsSetCmd ch c
  if (bget s.adm.level (tgtFin ch.val)).isSome || (s.safeOf ch.val).isSome then
    if c = .off && (bget s.adm.level (tgtFin ch.val)).isNone then (okc, s1.undefer ch.val) else (okc, s1)
  else match s1.hsApply ch c false with
    | (.refused reason blk, s2) =>
      (Verdict.code (.refused reason blk), { s2 with hs := s.hs, adm := { s2.adm with edge := s.adm.edge } })
    | (v, s2) => (v.code, s2)

/-- A clear (R132): OFF command state, which is also what SREL returns to, latch and LCAUSE cleared; refused for LCAUSE 4 at 150 °C or more. -/
def State.hsClear (s : State) (ch : Fin 72) : Code × State :=
  let h := bget s.hs ch
  if h.lcause = 4 && 2400 ≤ bget s.sup.tj (grpTh (hsGroup ch)) then ((0x07, 0), s)
  else
    let off : SafeBase HsCmd HsPolicy := { cmd := .off, policy := .none, rsp := false, edge := none, edgeB := none }
    (okc, ((s.hsOff ch).onHs ch fun c =>
      { c with lcause := 0, cmd := .off, policy := .none, rsp := false, offAt := if h.lcause = 0 then c.offAt else none, base := c.base.map fun _ => off }).onAdm fun a =>
    { a with edge := bset a.edge (tgtFin ch.val) none })

/-- Does f for every channel of a group named in a mask, in ascending c (R124). -/
def forMask {n : Nat} (m : BitVec n) (f : Fin n → State → State) (s : State) : State :=
  (allFin n).foldl (fun st c => if m.getLsbD c.val then f c st else st) s

/-- A command word reaches the IOP part of a load block only while IOP is released (R27). -/
def State.iop (s : State) : Bool := s.up 4

/-- A group command by word or by object: each channel named takes the code's action (R122, R124). -/
def hsEach (v : Via) (g : Fin 9) (mask : BitVec 8) (sub : Nat) (val : Val) (f : Fin 72 → State → Code × State) (s : State) : State :=
  match v with
  | .word => if s.iop then forMask mask (fun c st => (f (hsOf g c) st).2) s else s
  | .object r => forMask mask (fun c st => st.objCmd r (hsIdx (hsOf g c)) sub val (f (hsOf g c))) s

/-! The commands -/

/-- HS_NOP (R122): OP 0x0 does nothing. -/
def execHsNop (_g : Fin 9) (_mask : BitVec 8) (s : State) : Host.Outcome State Fault Refusal := .next s

/-- HS_OFF (R124). -/
def execHsOff (v : Via) (g : Fin 9) (mask : BitVec 8) (s : State) : Host.Outcome State Fault Refusal :=
  .next (hsEach v g mask 2 [0] (fun ch st => st.hsCommand ch .off) s)

/-- HS_ON (R124). -/
def execHsOn (v : Via) (g : Fin 9) (mask : BitVec 8) (s : State) : Host.Outcome State Fault Refusal :=
  .next (hsEach v g mask 2 [1] (fun ch st => st.hsCommand ch .on) s)

/-- HS_PWM (R124). -/
def execHsPwm (v : Via) (g : Fin 9) (mask : BitVec 8) (s : State) : Host.Outcome State Fault Refusal :=
  .next (hsEach v g mask 2 [2] (fun ch st => st.hsCommand ch .pwm) s)

/-- HS_DUTY (R119, R124): command word OP 0x4. -/
def execHsDuty (g : Fin 9) (mask : BitVec 8) (d : BitVec 16) (s : State) : Host.Outcome State Fault Refusal :=
  .next (hsEach .word g mask 2 [] (fun ch st => st.hsCommand ch (.duty d)) s)

/-- HS_CLEAR_LATCH (R132): CLR = 1 or OP 0x5. -/
def execHsClearLatch (v : Via) (g : Fin 9) (mask : BitVec 8) (s : State) : Host.Outcome State Fault Refusal :=
  .next (hsEach v g mask 3 [1] (fun ch st => st.hsClear ch) s)

/-- A high-side command word is valid: OP 0x0 to 0x5, reserved bits zero, DUTY zero but for OP 0x4 (R122). -/
def hsWordOk (w : Word) : Bool :=
  fld w 35 32 ≤ 5 && fld w 23 16 = 0 && (fld w 35 32 = 4 || fld w 15 0 = 0)

/-- Acts on one command word of a group's queue (R122 to R124). -/
def hsWord (g : Fin 9) (w : Word) (s : State) : State :=
  let m : BitVec 8 := BitVec.ofNat 8 (fld w 31 24)
  if !s.iop then s
  else if !hsWordOk w then s.raise (0x30 + g.val) 28
  else match fld w 35 32 with
    | 1 => hsEach .word g m 2 [] (fun ch st => st.hsCommand ch .off) s
    | 2 => hsEach .word g m 2 [] (fun ch st => st.hsCommand ch .on) s
    | 3 => hsEach .word g m 2 [] (fun ch st => st.hsCommand ch .pwm) s
    | 4 => hsEach .word g m 2 [] (fun ch st => st.hsCommand ch (.duty (BitVec.ofNat 16 (fld w 15 0)))) s
    | 5 => hsEach .word g m 3 [] (fun ch st => st.hsClear ch) s
    | _ => s

/-- HS_MALFORMED_WORD (R123): the word is discarded whole and kind 28 is raised. -/
def execHsMalformedWord (g : Fin 9) (w : Word) (s : State) : Host.Outcome State Fault Refusal :=
  .next (if hsWordOk w then s else hsWord g w s)

/-! The period grid -/

/-- The first time after `t` with time ≡ phase (mod period), in ticks. -/
def gridAfter (period phase t : Nat) : Nat :=
  if period = 0 then t + 1 else t + (period - (t + period - phase % period) % period)

/-- The first grid time at or after `t`. -/
def gridFrom (period phase t : Nat) : Nat := if t = 0 then (if period = 0 then 0 else phase % period) else gridAfter period phase (t - 1)

/-- The next boundary of a channel's grid that has not been handled (R120, R121). -/
def State.hsNextBnd (s : State) (c : HsChannel) : Nat :=
  let t := match c.lastBnd with
    | some b => Nat.max (b + 1) s.now
    | none => s.now
  match c.trans with
  | some e => Nat.max e s.now
  | none => gridFrom (c.period * 1000) (c.phase * 1000) t

/-- A pending PERIOD, PHASE takes effect: the channel runs one transition period, to the first boundary of the new grid at least half a
new period later (R121). -/
def State.hsRegrid (s : State) (ch : Fin 72) : State :=
  let p := s.cfg (hsIdx ch) 7
  let ph := s.cfg (hsIdx ch) 9
  s.onHs ch fun c =>
    if c.period = p ∧ c.phase = ph then { c with trans := none }
    else { c with period := p, phase := ph, trans := some (gridFrom (p * 1000) (ph * 1000) (s.now + p * 500)) }

/-- An on-phase starts at a boundary (R120, R121, R127, R128): unless the on-time is 0, the channel is latched, suppressed, frozen by an
uncounted trip or in the ladder's off-time. -/
def State.hsPhase (s : State) (ch : Fin 72) : State :=
  let c := bget s.hs ch
  let onT := s.hsOnTime ch c.act
  let blocked := c.lcause != 0 || c.supp || s.heldOff || s.safeOff ch.val || c.paused
  if !c.act.isPwm then s
  else if onT = 0 || blocked then s.onHs ch (hsDark s.now)
  else
    let s1 := s.hsLight ch
    s1.onHs ch fun h => if h.out then { h with onEnds := if onT < h.period then some (s.now + onT * 1000) else none } else h

/-- HS_PERIOD_BOUNDARY (R61, R120, R121, R124): a pending commit of the channel's bundle and a pending change of PWM or DUTY take
effect, and the on-phase starts. -/
def execHsPeriodBoundary (ch : Fin 72) (s : State) : Host.Outcome State Fault Refusal :=
  let b := s.hsNextBnd (bget s.hs ch)
  let s1 := (s.at b).onHs ch fun c => { c with lastBnd := some b }
  let s2 := (s1.applyOwned (hsIdx ch)).hsRegrid ch
  let s3 := s2.onHs ch fun c => match c.next with
    | some n => { c with act := n, next := none }
    | none => c
  let a := (bget s3.hs ch).act
  let s4 := if s3.adm.charges.any (·.code == ch.val) then s3.recharge (s3.hsCharge ch a) else s3
  .next (s4.hsPhase ch)

/-- HS_ONTIME_END (R120): the output turns off until the next boundary. -/
def execHsOntimeEnd (ch : Fin 72) (s : State) : Host.Outcome State Fault Refusal :=
  match (bget s.hs ch).onEnds with
  | none => .next s
  | some t => .next ((s.at t).onHs ch (hsDark (Nat.max t s.now)))

/-! The inrush ladder -/

/-- LADDER of group g runs on sequencer g (R129). -/
def State.ladderRuns (s : State) (g : Fin 9) : Bool := s.libRuns ⟨g.val, by omega⟩

/-- A latch of R127, R129 or R131 opens or extends the group's quiet window, and freezes the windows of its other channels (R134). -/
def State.openQuiet (s : State) (ch : Fin 72) : State :=
  let g := hsGroup ch
  let s1 := (s.freezeTimers g.val).onTh (grpTh g) fun t => { t with quiet := some (s.now + usT 200) }
  { s1 with hs := ball s1.hs fun i c =>
      if hsGroup i = g ∧ i ≠ ch then
        { c with win := c.win.map fun w => if w.frozen.isNone then { w with frozen := some s.now } else w }
      else c }

/-- A trip's latch: LCAUSE, fault kind, quiet window (R127, R129, R131, R134). -/
def State.hsTripLatch (s : State) (ch : Fin 72) (cause : BitVec 3) : State :=
  (((s.hsLatch ch cause).raiseHs ch ((if cause = 1 then 0 else 8) + ch.val % 8))).openQuiet ch

/-- HS_INRUSH_TRIP (R127, R129, R134). -/
def execHsInrushTrip (ch : Fin 72) (s : State) : Host.Outcome State Fault Refusal :=
  let c := bget s.hs ch
  match c.win with
  | none => .next s
  | some w =>
    if !c.out then .next s
    else
      let s1 := s.onHs ch fun h => { hsDark s.now h with trips := satInc h.trips }
      if w.frozen.isSome then .next (s1.onHs ch fun h => { h with win := some { w with missed := true } })
      else if !s.ladderRuns (hsGroup ch) then .next (s1.hsTripLatch ch 3)
      else if s.cfg (hsIdx ch) 0x0E ≤ w.retry then .next (s1.hsTripLatch ch 2)
      else .next (s1.onHs ch fun h =>
        { h with win := some { w with retry := w.retry + 1 }, offEnds := some (s.now + s.cfg (hsIdx ch) 0x0D * usT 50) })

/-- The grid calls for the output to be on now (R128). -/
def State.hsCalls (s : State) (ch : Fin 72) : Bool :=
  let c := bget s.hs ch
  match c.act with
  | .off => false
  | .on => true
  | a => match c.lastBnd with
    | some b => s.now < b + s.hsOnTime ch a * 1000
    | none => false

/-- The output turns on again after an interruption, unless command state or grid call for off (R127, R128, R134). -/
def State.hsResume (s : State) (ch : Fin 72) : State :=
  if s.hsCalls ch then
    let s1 := s.hsLight ch
    s1.onHs ch fun h =>
      if h.out && h.act.isPwm then
        { h with onEnds := h.lastBnd.bind fun b =>
            if s.hsOnTime ch h.act < h.period then some (b + s.hsOnTime ch h.act * 1000) else none }
      else h
  else s

/-- An on-phase that an uncounted trip ended restarts from its beginning (R134). -/
def State.hsRestart (s : State) (ch : Fin 72) : State :=
  let c := bget s.hs ch
  let onT := s.hsOnTime ch c.act
  if c.act = .off || (c.act.isPwm && onT = 0) then s
  else (s.hsLight ch).onHs ch fun h => if h.out && h.act.isPwm && onT < h.period then { h with onEnds := some (s.now + onT * 1000) } else h

/-- HS_LADDER_OFFTIME_END (R127, R128): the off-time's timer stands still while the channel is frozen. -/
def execHsLadderOfftimeEnd (ch : Fin 72) (s : State) : Host.Outcome State Fault Refusal :=
  let c := bget s.hs ch
  match c.offEnds, c.win.any (·.frozen.isSome) with
  | some t, false => .next (((s.at t).onHs ch fun h => { h with offEnds := none }).hsResume ch)
  | _, _ => .next s

/-- HS_INRUSH_WINDOW_CLOSE (R127): LASTRY takes the count, RETRY is cleared; an off-time that runs goes on to its end. -/
def execHsInrushWindowClose (ch : Fin 72) (s : State) : Host.Outcome State Fault Refusal :=
  match (bget s.hs ch).win with
  | some w => .next (if w.frozen.isSome then s else (s.at w.ends).onHs ch fun h => { h with win := none, lastry := satByte w.retry })
  | none => .next s

/-- HS_OVERCURRENT_TRIP (R131). -/
def execHsOvercurrentTrip (ch : Fin 72) (s : State) : Host.Outcome State Fault Refusal :=
  let c := bget s.hs ch
  if !c.out || c.win.isSome then .next s
  else .next ((s.onHs ch fun h => { h with trips := satInc h.trips }).hsTripLatch ch 1)

/-- A frozen channel at the end of its quiet window (R134): checked against the group's headroom; its ladder resumes, or it is
deferred with the group's block and its window discarded. -/
def State.hsThaw (s : State) (ch : Fin 72) : State :=
  let c := bget s.hs ch
  match c.win with
  | none => s
  | some w =>
    match w.frozen with
    | none => s
    | some t0 =>
      let dt := s.now - t0
      let ck := s.hsCharge ch c.act
      let charges := setCharge s.adm.charges ck
      match fitGroup s (ch.val / 8) (s.classOf ch.val) (s.ledger charges) with
      | some s1 =>
        let w1 := { w with frozen := none, missed := false, ends := w.ends + dt }
        let s2 := (s1.onAdm fun a => { a with charges := charges }).onHs ch fun h => { h with win := some w1, offEnds := h.offEnds.map (· + dt) }
        if w.missed then s2.hsRestart ch else s2
      | none =>
        let blk := 0x30 + ch.val / 8
        let s1 := (s.hsOff ch).onHs ch fun h => { h with offAt := none }
        if s1.adm.defer.length < 16 then
          (s1.onAdm fun a => { a with defer := a.defer ++ [{ charge := ck, value := c.act.value, strobes := 0, blk := blk }] }).admEvent
            0x2 4 ch.val 0 0x0A blk
        else (s1.refuseEnerg ch.val 0x11 0x04).2

/-- QUIET_WINDOW_END (R134). -/
def execQuietWindowEnd (g : Fin 9) (s : State) : Host.Outcome State Fault Refusal :=
  match (bget s.th (grpTh g)).quiet with
  | none => .next s
  | some e =>
    let s1 := (s.at e).onTh (grpTh g) fun t => { t with quiet := none }
    .next ((allFin 8).foldl (fun st c => st.hsThaw (hsOf g c)) (s1.thawTimers g.val))

/-! Diagnostics -/

/-- Sense LSB in mA (R116). -/
def hsLsb (ch : Fin 72) : Nat := if ch.val < 12 then 20 else if ch.val < 48 then 8 else 2

/-- No on-phase that the grid foresees falls within a test of 200 µs from now, and the mode allows one (R135). -/
def State.hsTestFits (s : State) (ch : Fin 72) : Bool :=
  let c := bget s.hs ch
  let mode := s.cfg (hsIdx ch) 0x0F % 4
  let clear := decide (s.now + usT 200 ≤ s.hsNextBnd c)
  if c.out then false
  else match c.act with
    | .off => mode != 0 && (c.next.isNone || clear)
    | .on => false
    | a => mode = 2 && clear && usT 400 ≤ (c.period - s.hsOnTime ch a) * 1000

/-- A due test starts in an off interval long enough to hold it (R135). -/
def State.hsTryTest (s : State) (ch : Fin 72) : State :=
  if s.iop && s.hsTestFits ch then s.onHs ch fun c => { c with test := .phaseA (s.now + usT 100) }
  else s.onHs ch fun c => { c with test := .due }

/-- LOW_CURRENT_DETECT (R136): every sample for 20 ms below ULOW. -/
def execLowCurrentDetect (ch : Fin 72) (s : State) : Host.Outcome State Fault Refusal :=
  let c := bget s.hs ch
  match c.lowAt with
  | none => .next s
  | some t =>
    if !(c.out || c.offPhase) || s.cfg (hsIdx ch) 0x11 = 0 || c.lowi then .next s
    else .next (((s.at (t + msT 20)).onHs ch fun h => { h with lowi := true }).raiseHs ch (16 + ch.val % 8))

/-- One sense sample of a high-side channel (R136, R139).  In PWM and DUTY it was taken in the middle of an on-phase, and may be converted in the
off-phase after it; an on-time below 100 µs leaves the word as it is. -/
def State.hsSample (s : State) (ch : Fin 72) (code : BitVec 12) (checkOk : Bool) : State :=
  let c := bget s.hs ch
  let short := c.act.isPwm && s.hsOnTime ch c.act < 10
  if !s.iop || !s.isPlaced (.hs ch) || !(c.out || (c.offPhase && c.lastBnd.isSome)) || short then s
  else
    let cd : BitVec 12 := if 0xBFF < code.toNat then 0xBFF else code
    let n := c.samples + 1
    let bad := if n % 256 = 0 then !checkOk else c.chkBad
    let ulow := s.cfg (hsIdx ch) 0x11
    let low := ulow != 0 && cd.toNat * hsLsb ch < ulow
    let s1 := s.onHs ch fun h =>
      { h with code := cd, samples := n, chkBad := bad, lowi := h.lowi && low,
               lowAt := if low then (if h.lowAt.isNone then some s.now else h.lowAt) else none }
    s1.raiseIf (n % 256 = 0 && !checkOk) (0x30 + ch.val / 8) 27

/-- The sense word of a high-side channel (R137, R138). -/
def State.hsSense (s : State) (ch : Fin 72) : BitVec 12 :=
  let c := bget s.hs ch
  if c.lcause = 1 then 0xF01
  else if c.lcause = 2 || c.lcause = 3 then 0xF02
  else if c.lcause = 4 then 0xF03
  else if !c.out && c.ol then 0xF04
  else if !c.out && c.scb then 0xF05
  else if (bget s.th (grpTh (hsGroup ch))).sensf then 0xF06
  else if c.chkBad || s.adcFail (.hs ch) then 0xF07
  else if !s.isPlaced (.hs ch) then 0xF0F
  else if c.out || c.offPhase then c.code else 0

/-! Status -/

/-- STATE of STATUS (R147), the first that applies. -/
def State.hsStateCode (s : State) (ch : Fin 72) : Nat :=
  let c := bget s.hs ch
  if c.lcause != 0 then 4
  else if s.isDeferred ch.val then 7
  else match c.policy with
    | .hold _ _ => 5
    | .limp => 6
    | _ => if c.win.isSome then 3 else if c.act.isPwm then 2 else if c.act = .on then 1 else 0

/-- STATUS (obj 0x2000 + n.04). -/
def State.hsStatus (s : State) (ch : Fin 72) : Word :=
  let c := bget s.hs ch
  wd (s.hsStateCode ch * 2 ^ 20 + (c.win.map (·.retry)).getD 0 * 2 ^ 15 + c.lcause.toNat * 2 ^ 12 +
    b1 (c.win.any (·.frozen.isSome)) * 2 ^ 11 + b1 c.ol * 2 ^ 10 + b1 c.scb * 2 ^ 9 + b1 c.lowi * 2 ^ 8 +
    b1 (c.act.isPwm && s.factor ch.val != 255) * 2 ^ 7 + b1 (s.adm.inh.getLsbD ch.val) * 2 ^ 6 +
    b1 (bget s.adm.level (tgtFin ch.val)).isSome * 2 ^ 5 + b1 (s.isShed ch.val) * 2 ^ 4 +
    b1 (s.sout == some (.hs ch)) * 2 ^ 3 + b1 c.rsp * 2 ^ 2)

/-- CMD as read: the last firmware command, 3 after a DUTY word. -/
def HsCmd.code : HsCmd → Nat
  | .off => 0 | .on => 1 | .pwm => 2 | .duty _ => 3 | .spwDuty _ => 3

/-- A bit for each channel of a group. -/
def maskOf (f : Fin 8 → Bool) : Nat := (allFin 8).foldl (fun a c => a + b1 (f c) * 2 ^ c.val) 0

/-- GSTAT of group g (R148). -/
def State.gstat (s : State) (g : Fin 9) : Word :=
  let t := bget s.th (grpTh g)
  wd (maskOf (fun c => (bget s.hs (hsOf g c)).out) * 2 ^ 20 + maskOf (fun c => (bget s.hs (hsOf g c)).lcause != 0) * 2 ^ 12 +
    maskOf (fun c => (bget s.hs (hsOf g c)).win.isSome) * 2 ^ 4 + b1 (s.quiet g) * 8 + b1 t.twarn * 4 + b1 t.tsd * 2 + b1 t.sensf)

/-- A junction temperature as S36 in 1/16 °C. -/
def State.gtj (s : State) (g : ThermGrp) : Word := BitVec.ofInt 36 (bget s.sup.tj g)

/-- The window of block 0x30 + g (R148). -/
def State.hsWindowWord (s : State) (g : Fin 9) (off : Nat) : Word :=
  if off = 0 then s.gstat g
  else if off = 1 then s.gtj (grpTh g)
  else if 8 ≤ off ∧ off < 16 then (s.hsSense (hsOf g (Fin.ofNat 8 off))).zeroExtend 36
  else 0

/-! Reset policies -/

/-- The policy that a channel's POLICY sets (R142). -/
def State.hsPolicyOf (s : State) (ch : Fin 72) : HsPolicy :=
  match s.cfg (hsIdx ch) 0x13 with
  | 1 => .hold (bget s.hs ch).act (s.now + msT (100 * s.cfg (hsIdx ch) 0x14))
  | 2 => .limp
  | _ => .off

/-- A policy takes the place of the last firmware command or edge action (R142, R143); HOLD leaves the output as it was, with nothing pending. -/
def State.hsTakePolicy (s : State) (ch : Fin 72) (p : HsPolicy) : State :=
  let s1 := (s.onHs ch fun h => { h with policy := p, cmd := .off }).onAdm fun a => { a with edge := bset a.edge (tgtFin ch.val) none }
  match p with
  | .hold _ _ => (s1.onHs ch fun h => { h with next := none }).undefer ch.val
  | _ => s1.hsFollow ch

/-- What SUP sets when IOP is asserted (R142, R143). -/
def State.hsPolicy (s : State) (ch : Fin 72) : State :=
  let p := s.hsPolicyOf ch
  let keep (b : SafeBase HsCmd HsPolicy) : SafeBase HsCmd HsPolicy := { b with cmd := .off, policy := p, rsp := true, edge := none }
  (s.onHs ch fun h => { h with rsp := true, base := h.base.map keep }).hsTakePolicy ch p

/-- A channel enters a safe state (R490): OFF at once; KEEP and POLICY keep what SREL returns to. -/
def State.hsSafe (s : State) (ch : Fin 72) (mode : Nat) : State :=
  if mode = 0 then s.hsOff ch
  else
    let h := bget s.hs ch
    let b : SafeBase HsCmd HsPolicy := { cmd := h.cmd, policy := h.policy, rsp := h.rsp, edge := bget s.adm.edge (tgtFin ch.val), edgeB := none }
    let s1 := s.onHs ch fun c => { c with base := some b }
    if mode = 1 then (s1.onHs ch fun c => { c with cmd := c.act, policy := .none }).onAdm fun a => { a with edge := bset a.edge (tgtFin ch.val) none }
    else s1.hsTakePolicy ch (s.hsPolicyOf ch)

/-- SREL: the channel takes its command state as it stands (R492). -/
def State.hsUnsafe (s : State) (ch : Fin 72) : State :=
  match (bget s.hs ch).base with
  | none => s.hsFollow ch
  | some b =>
    let p : HsPolicy := match b.policy with | .hold w e => if e ≤ s.now then .off else .hold w e | q => q
    ((s.onHs ch fun c => { c with cmd := b.cmd, policy := p, rsp := b.rsp, base := none }).onAdm fun a =>
      { a with edge := bset a.edge (tgtFin ch.val) b.edge }).hsFollow ch

/-- The end of a HOLD (R142). -/
def State.hsHoldEnd (s : State) (ch : Fin 72) : State :=
  match (bget s.hs ch).policy with
  | .hold _ e => (((s.at e).onHs ch fun h => { h with policy := .off }).hsFollow ch)
  | _ => s

/-- The channel sheds (R469, R130). -/
def State.hsShed (s : State) (ch : Fin 72) : State := s.hsOff ch

/-- A deferred energisation of a channel is carried out (R101). -/
def State.hsUndefer (s : State) (ch : Fin 72) (v : Nat) : State := s.hsCarry ch (hsCmdOf v)

/-- At a release of SUP each channel runs on the grid of its applied PERIOD and PHASE (R120). -/
def State.hsGrids (s : State) : State :=
  (allFin 72).foldl (fun st ch => st.onHs ch fun c => { c with period := st.cfg (hsIdx ch) 7, phase := st.cfg (hsIdx ch) 9 }) s

end Sys2Proof.Machine
end

