-- ==== Sys2Proof/Machine/Bridges.lean ====
section
/-!
DEFINITION. Half-bridges and pairs: commands, the motion generator, position, kinks, anti-pinch, protection and policies
(R152 to R190).
-/
namespace Sys2Proof.Machine

/-- The object index of pair k, of leg n. -/
def pairIdx (k : Fin 8) : Nat := 0x2110 + k.val
def legIdx (n : Fin 16) : Nat := 0x2100 + n.val

/-- The legs of a pair (R153), and the pair of a leg. -/
def legA (k : Fin 8) : Fin 16 := ⟨2 * k.val, by omega⟩
def legB (k : Fin 8) : Fin 16 := ⟨2 * k.val + 1, by omega⟩
def pairOf (n : Fin 16) : Fin 8 := ⟨n.val / 2, by omega⟩

/-- Pair k of group g (R153). -/
def pairIn (g : Fin 2) (k : Fin 4) : Fin 8 := ⟨4 * g.val + k.val, by omega⟩

/-- The junction sensor of a pair's group. -/
def pairTh (k : Fin 8) : ThermGrp := ⟨9 + k.val / 4, by omega⟩

/-- The load code of a pair in MODE 1, that of leg A; of a leg. -/
def pairCode (k : Fin 8) : Nat := 0x48 + 2 * k.val
def legCode (n : Fin 16) : Nat := 0x48 + n.val

def State.onPair (s : State) (k : Fin 8) (f : Pair → Pair) : State := { s with pairs := bmod s.pairs k f }
def State.onLeg (s : State) (n : Fin 16) (f : Leg → Leg) : State := { s with legs := bmod s.legs n f }

/-- Raises a kind of a pair's group block. -/
def State.raisePair (s : State) (k : Fin 8) (base : Nat) : State := s.raise (0x39 + k.val / 4) (base + k.val % 4)

/-- The pair is used as a motor, MODE 1 (R153). -/
def State.motor (s : State) (k : Fin 8) : Bool := s.cfg (pairIdx k) 1 = 1

/-- Position, ends and zone width (R166, R169). -/
def State.pos (s : State) (k : Fin 8) : Int := s.cfgI (pairIdx k) 6
def State.endN (s : State) (k : Fin 8) : Int := s.cfgI (pairIdx k) 0x10
def State.endP (s : State) (k : Fin 8) : Int := s.cfgI (pairIdx k) 0x11
def State.endZ (s : State) (k : Fin 8) : Int := s.cfg (pairIdx k) 0x12

/-- POS set to a value. -/
def State.setPos (s : State) (k : Fin 8) (p : Int) : State := s.keepObj (pairIdx k) 6 [BitVec.ofInt 36 p]

/-- An input operand reports active (R111, R110): codes 0x00 to 0x4F. -/
def State.operandIn (s : State) (code : Nat) : Bool := code ≤ 0x4F && s.adm.swRep.getLsbD code

/-- Either leg is latched. -/
def State.pairLatched (s : State) (k : Fin 8) : Bool :=
  (bget s.legs (legA k)).lcause != 0 || (bget s.legs (legB k)).lcause != 0

/-- An INHIBIT is true for either leg of the pair (R162). -/
def State.pairInh (s : State) (k : Fin 8) : Bool :=
  s.adm.inh.getLsbD (pairCode k) || s.adm.inh.getLsbD (pairCode k + 1)

/-- The duty ceiling in force (R161, R175, R477). -/
def State.ceiling (s : State) (k : Fin 8) : Nat :=
  let base := if (bget s.pairs k).low || s.isShed (pairCode k) && s.cfg (pairIdx k) 0x1F = 2 then s.cfg (pairIdx k) 0x20 else 65535
  base * s.factor (pairCode k) / 255

/-- What a pair is charged (R161, R475): ILOAD² × f × 36 mΩ, with f its duty ceiling. -/
def State.pairCharge (s : State) (k : Fin 8) : Charge :=
  let i := s.cfg (pairIdx k) 7
  let f := if s.isShed (pairCode k) && s.cfg (pairIdx k) 0x1F = 2 then s.cfg (pairIdx k) 0x20 else 65535
  { code := pairCode k, na := i * f * 1000000 / 65535, nw := i * i * 36 * f / 65535, derat := true }

/-- What a leg in MODE 0 is charged (R475). -/
def State.legCharge (s : State) (n : Fin 16) (c : LegCmd) : Charge :=
  let i := s.cfg (legIdx n) 5
  let f := match c with
    | .off => 0
    | .pwm => s.cfg (legIdx n) 0x0A
    | _ => 65535
  { code := legCode n, na := i * f * 1000000 / 65535, nw := i * i * 18 * f / 65535, derat := c == .pwm }

/-- A signed duty in a direction. -/
def signed (dir : Bool) (d : Nat) : Int := if dir then -(d * 1000 : Int) else (d * 1000 : Int)

/-- PDUTY. -/
def State.pduty (s : State) (k : Fin 8) : Nat := s.cfg (pairIdx k) 0x1E

/-- The set point that a motion calls for (R159). -/
def State.targetOf (s : State) (k : Fin 8) : PairCmd → Int
  | .run dir d => signed dir d.toNat
  | .move t => if t = s.pos k then 0 else signed (t < s.pos k) (s.pduty k)
  | .pulse dir _ => signed dir (s.pduty k)
  | .park dir => signed dir (s.pduty k)
  | _ => 0

/-- A command that moves the motor. -/
def PairCmd.isMotion : PairCmd → Bool
  | .run _ _ | .move _ | .pulse _ _ | .park _ => true
  | _ => false

/-- The command of a word (R158). -/
def pairCmdOf (w : Word) : PairCmd :=
  let dir := w.getLsbD 27
  match fld w 35 32 with
  | 1 => .free
  | 2 => .stop
  | 3 => .run dir (BitVec.ofNat 16 (fld w 15 0))
  | 4 => .move (BitVec.ofNat 24 (fld w 23 0)).toInt
  | 5 => .pulse dir (fld w 15 0)
  | 6 => .park dir
  | _ => .free

/-- A half-bridge command word from its fields (R158), PMASK zero. -/
def pairWord (op : Nat) (dir : Bool) (arg : Nat) : Word := wd (op * 2 ^ 32 + b1 dir * 2 ^ 27 + arg)

/-- The word of a command (R158), PMASK zero; a speedwell BRAKE has none. -/
def PairCmd.word : PairCmd → Word
  | .free => pairWord 1 false 0
  | .stop => pairWord 2 false 0
  | .brake => pairWord 2 false 0
  | .run dir d => pairWord 3 dir d.toNat
  | .move t => pairWord 4 false (BitVec.ofInt 24 t).toNat
  | .pulse dir ms => pairWord 5 dir ms
  | .park dir => pairWord 6 dir 0

/-- The fields of a word are valid, its pairs apart (R158, R159). -/
def hbFieldsOk (w : Word) : Bool :=
  let op := fld w 35 32
  op ≤ 7 && fld w 26 24 = 0 && (op = 3 || op = 5 || op = 6 || fld w 27 27 = 0) &&
    (if op = 3 then fld w 23 16 = 0 else if op = 4 then true
     else if op = 5 then fld w 23 16 = 0 && 1 ≤ fld w 15 0 && fld w 15 0 ≤ 5000 else fld w 23 0 = 0)

/-- A word is acceptable to a pair it names: MODE 1, and POSOK for a MOVE (R159). -/
def State.pairTakes (s : State) (w : Word) (k : Fin 8) : Bool :=
  s.motor k && (fld w 35 32 != 4 || (bget s.pairs k).posok)

/-! Drive -/

/-- All four switches off (R159 FREE, R130): the charge, a deferral and a reversal end; the time of a dwell runs on (R164, log 36). -/
def State.pairOff (s : State) (k : Fin 8) : State :=
  let s1 := s.onPair k fun p =>
    { p with act := .free, stage := .free, dwellAt := match p.stage with | .dwell e => e | _ => p.dwellAt, u := 0, ustar := 0, pulse := none, park := none, rev := none, fAt := none, low := false }
  (s1.uncharge (pairCode k)).undefer (pairCode k)

/-- Both low sides on (R159, R164 stage 2): the set point is zero; zero speed is awaited. -/
def State.pairBrake (s : State) (k : Fin 8) : State :=
  s.onPair k fun p =>
    { p with u := 0, pulse := none, park := none, fAt := none, brakeAt := s.now,
             stage := match p.stage with | .dwell e => .dwell e | .held => .held | _ => .braking }

/-- Brakes and drops the motion. -/
def State.pairHalt (s : State) (k : Fin 8) : State :=
  (s.onPair k fun p => { p with act := .stop, ustar := 0, rev := none }).pairBrake k

/-- Brakes, and the command in force has come to its end: a target reached, a kink, a park input, the end of a PULSE (R160, R169, R174). -/
def State.pairEnd (s : State) (k : Fin 8) : State := (s.pairHalt k).onPair k fun p => { p with done := true }

/-- RIPPLE and KINK of a pair's group run, on sequencer 9 or 10 (R166, R169, R340). -/
def State.programRuns (s : State) (k : Fin 8) : Bool :=
  let n : Fin 16 := ⟨9 + k.val / 4, by omega⟩
  s.libRuns n && (bget s.seqs n).stopped = 0

/-- The position source counts (R166, R168). -/
def State.counting (s : State) (k : Fin 8) : Bool :=
  match s.cfg (pairIdx k) 0x0D with
  | 0 => false
  | 1 => s.programRuns k
  | _ => s.iop

/-- The drive starts toward u* (R159, R164 stage 5): a PULSE, and after a dwell a PARK, starts at PDUTY at once. -/
def State.pairStart (s : State) (k : Fin 8) (afterDwell : Bool) : State :=
  ((s.onLeg (legA k) fun l => { l with supp := false }).onLeg (legB k) fun l => { l with supp := false }).onPair k fun p =>
    let jump := match p.act with | .pulse _ _ => true | .park _ => afterDwell | _ => false
    { p with stage := .drive, startAt := s.now, stepAt := s.now, dir := decide (p.ustar < 0), runs := satInc p.runs,
             u := if jump then p.ustar else 0, countAt := none, countIv := 0, iwin := [], fAt := none, zones := [], dirty := false,
             endn := false, endp := false, parked := false, zto := false, clim := false,
             posok := p.posok && s.counting k,
             pulse := match p.act with | .pulse _ ms => some (s.now + msT ms) | _ => none,
             park := match p.act with | .park _ => some (s.now + msT (s.cfg (pairIdx k) 0x1D)) | _ => none,
             test := match p.test with | .idle => .idle | _ => .due }

/-- An admitted motion is carried out (R163, R164): from rest it starts, after the dwell that FREE cut into; against the present direction it waits
for deceleration, zero speed and dwell; while braking in its own direction it starts again, unless an INHIBIT suppresses the start (R162). -/
def State.pairCarry (s : State) (k : Fin 8) (c : PairCmd) : State :=
  let t := s.targetOf k c
  let s1 := s.onPair k fun p => { p with act := c, ustar := t, pinch := false, stall := false, shedStop := false }
  let p := bget s1.pairs k
  let same := decide (t < 0) = p.dir
  match p.stage with
  | .free => if s.now < p.dwellAt then s1.onPair k fun q => { q with stage := .dwell p.dwellAt } else s1.pairStart k false
  | .held => s1.pairStart k false
  | .braking => if same && !s.pairInh k then s1.pairStart k false else s1
  | .dwell _ => s1
  | .drive =>
    let s2 := if p.u = 0 then s1.onPair k fun q => { q with dir := decide (t < 0) } else s1
    s2.onPair k fun q => match c with
      | .pulse _ ms => if p.u = 0 || same then { q with u := t, pulse := some (s.now + msT ms), park := none } else { q with pulse := none, park := none }
      | .park _ =>
        if p.u = 0 || same then { q with pulse := none, park := some (s.now + msT (s.cfg (pairIdx k) 0x1D)) } else { q with pulse := none, park := none }
      | _ => { q with pulse := none, park := none }

/-- The pair is at rest: no motion is under way (R161). -/
def Pair.atRest (p : Pair) : Bool :=
  match p.stage with | .free => true | .held => true | .braking => !p.act.isMotion | _ => false

/-- The group of a pair is in thermal shutdown (R133, R178). -/
def State.pairHot (s : State) (k : Fin 8) : Bool := (bget s.th (pairTh k)).hot

/-- Both legs of a pair in MODE 1 latch (R176, R178): the pair goes off; the first cause stands; under HOLD the policy goes on to its brake
(R182). -/
def State.pairLatch (s : State) (k : Fin 8) (cause : BitVec 3) : State :=
  let latch (l : Leg) : Leg := { l with act := .off, brake := false, lcause := if l.lcause = 0 then cause else l.lcause }
  (((s.onLeg (legA k) latch).onLeg (legB k) latch).pairOff k).onPair k fun p =>
    { p with done := true, policy := match p.policy with | .hold _ _ _ => .brake | q => q }

/-- A pair takes a command (R159 to R162, R172, R175, R178).  FREE and STOP are never refused; an on state in thermal shutdown latches the pair; under
LOW the class may be shed, and the decision is then on the ledgers alone. -/
def State.pairApply (s : State) (k : Fin 8) (c : PairCmd) : Verdict × State :=
  let p := bget s.pairs k
  let code := pairCode k
  let hot := s.pairHot k && !s.pairLatched k
  match c with
  | .free => (.admitted, s.pairOff k)
  | .brake => (.admitted, if hot then s.pairLatch k 4 else (s.pairHalt k).undefer code)
  | .stop =>
    let s1 := (s.onPair k fun q => { q with act := .stop, ustar := 0, rev := none, pulse := none, park := none }).undefer code
    (.admitted, if hot then s.pairLatch k 4 else if p.u = 0 then s1.pairBrake k else s1)
  | _ =>
    if s.isShed code && s.cfg (pairIdx k) 0x1F != 2 then s.refuseEnerg code 0x0F 0x03
    else if s.pairLatched k then s.refuseEnerg code 0x10 (0x39 + k.val / 4)
    else if hot then (.admitted, s.pairLatch k 4)
    else if p.rev.isSome then (.admitted, s)
    else if s.heldOff || s.safeOff code then (.admitted, s)
    else if (match c with | .park _ => s.operandIn (s.cfg (pairIdx k) 0x1C) | _ => false) then (.admitted, s.onPair k fun q => { q with done := true })
    else
      let go (st : State) : State := ((st.undefer code).pairCarry k c).onPair k fun q => { q with low := false }
      if p.atRest then
        if s.pairInh k then (.admitted, s.undefer code)
        else
          let ck := s.pairCharge k
          if ck.risesOver (s.charged code) then
            match s.decideEnerg ck c.word.toNat with
            | (.admitted, s1) => (.admitted, go s1)
            | r => r
          else (.admitted, go s)
      else (.admitted, s.pairCarry k c)

/-- A speedwell action at a pair (R162). -/
def pairSpw (a : Byte × Byte) : PairCmd := if a.1 = 4 then .brake else .free

/-- A level rule sets the pair (R113, R162): of the rules at its two legs, the lowest-numbered one. -/
def State.pairLevel (s : State) (k : Fin 8) : Option PairCmd :=
  let a := tgtFin (pairCode k)
  let b := tgtFin (pairCode k + 1)
  match bget s.adm.level a, bget s.adm.level b with
  | some x, some y => some (pairSpw (if bget s.adm.levelN a ≤ bget s.adm.levelN b then x else y))
  | x, y => (x.or y).map pairSpw

/-- The last edge action at either leg, of which one at most stands (R113, R162). -/
def State.pairEdge (s : State) (k : Fin 8) : Option PairCmd :=
  ((bget s.adm.edge (tgtFin (pairCode k))).or (bget s.adm.edge (tgtFin (pairCode k + 1)))).map pairSpw

/-- The drive that a reset policy sets (R182). -/
def State.pairPolicyDrive (s : State) (k : Fin 8) : State :=
  let p := bget s.pairs k
  match p.policy with
  | .none => s
  | .free => s.pairOff k
  | .brake => (s.pairApply k .brake).2
  | .hold u braked _ =>
    if u != 0 then (s.pairApply k (.run (u < 0) (BitVec.ofNat 16 (u.natAbs / 1000)))).2
    else if braked then (s.pairApply k .brake).2 else s.pairOff k
  | .park _ => if p.parked || s.operandIn (s.cfg (pairIdx k) 0x1C) then (s.pairApply k .brake).2 else (s.pairApply k (.park false)).2

/-- A pair follows R113: a true level rule, else the last edge action, else its reset policy, else the last firmware command, which is taken up
unless it is being carried out or has come to its end. -/
def State.pairFollow (s : State) (k : Fin 8) : State :=
  let p := bget s.pairs k
  match (s.pairLevel k).or (s.pairEdge k) with
  | some c => (s.pairApply k c).2
  | none =>
    if p.policy != .none then s.pairPolicyDrive k
    else if p.done || p.act = p.cmd then s
    else (s.pairApply k p.cmd).2

/-- The last edge actions at the two legs of a pair. -/
def Admission.pairEdges (a : Admission) (k : Fin 8) (e f : Option (Byte × Byte)) : Admission :=
  { a with edge := bset (bset a.edge (tgtFin (pairCode k)) e) (tgtFin (pairCode k + 1)) f }

/-- The command state of a pair is replaced by a firmware command (R144, R183); in a KEEP or POLICY safe state that is what SREL returns
to (R491). -/
def State.pairSetCmd (s : State) (k : Fin 8) (c : PairCmd) (w : Word) : State :=
  if (bget s.pairs k).base.isSome then
    s.onPair k fun p => { p with word := w, done := false, base := some { cmd := (c, w), policy := .none, rsp := false, edge := none, edgeB := none } }
  else (s.onPair k fun p => { p with cmd := c, word := w, done := false, policy := .none, rsp := false }).onAdm fun a => a.pairEdges k none none

/-- A firmware command at a pair (R113, R158, R159, R491); a motion command that arrives during a pinch reversal is discarded (R172). -/
def State.pairCommand (s : State) (k : Fin 8) (w : Word) : Code × State :=
  let c := pairCmdOf w
  if !s.pairTakes w k then ((0x07, 0), s)
  else if (bget s.pairs k).rev.isSome && c.isMotion then (okc, s)
  else
    let s1 := s.pairSetCmd k c w
    if (s.pairLevel k).isSome || (s.safeOf (pairCode k)).isSome then
      (okc, if c.isMotion then s1 else s1.undefer (pairCode k))
    else match s1.pairApply k c with
      | (.refused r b, s2) => (Verdict.code (.refused r b), { s2 with pairs := s.pairs, adm := { s2.adm with edge := s.adm.edge } })
      | (v, s2) => (v.code, s2)

/-- A clear (R177): FREE, which is also what SREL returns to, and both latches cleared; refused for LCAUSE 4 at 150 °C or more. -/
def State.pairClear (s : State) (k : Fin 8) : Code × State :=
  let hot := ((bget s.legs (legA k)).lcause = 4 || (bget s.legs (legB k)).lcause = 4) && 2400 ≤ bget s.sup.tj (pairTh k)
  if hot then ((0x07, 0), s)
  else
    let legOff : SafeBase LegCmd Unit := { cmd := .off, policy := (), rsp := false, edge := none, edgeB := none }
    let pairFree : SafeBase (PairCmd × Word) PairPolicy :=
      { cmd := (.free, pairWord 1 false 0), policy := .none, rsp := false, edge := none, edgeB := none }
    let free (n : Fin 16) (st : State) : State := ((st.onLeg n fun l =>
      { l with lcause := 0, cmd := .off, act := .off, brake := false, rsp := false, base := l.base.map fun _ => legOff }).uncharge (legCode n)).undefer (legCode n)
    let s1 := (free (legB k) (free (legA k) s)).onAdm fun a => a.pairEdges k none none
    (okc, if s.motor k then (s1.pairOff k).onPair k fun p =>
      { p with cmd := .free, done := false, policy := .none, rsp := false, base := p.base.map fun _ => pairFree } else s1)

/-- A clear by a command word, which CMD then reads (R177, obj 0x2110 + k.02). -/
def State.pairClearWord (s : State) (k : Fin 8) (w : Word) : Code × State :=
  match s.pairClear k with
  | (c, t) => (c, if c.1 = 0 then t.onPair k fun p => { p with word := w } else t)

/-- A write of CMD of a pair object (R158, R159): refused with 0x07 where a command word that names the pair is discarded. -/
def State.pairWordWrite (s : State) (k : Fin 8) (w : Word) : Code × State :=
  if !hbFieldsOk w || fld w 31 28 != 0 || !s.pairTakes w k then ((0x07, 0), s)
  else match fld w 35 32 with
    | 0 => (okc, s.onPair k fun p => { p with word := w })
    | 7 => s.pairClearWord k w
    | _ => s.pairCommand k w

/-- A pair command by word or by object (R158, R159). -/
def hbEach (v : Via) (g : Fin 2) (pmask : BitVec 4) (w : Word) (f : Fin 8 → State → Code × State) (s : State) : State :=
  match v with
  | .word =>
    if !s.iop then s
    else if !hbFieldsOk w || (allFin 4).any (fun k => pmask.getLsbD k.val && !s.pairTakes w (pairIn g k)) then s.raise (0x39 + g.val) 28
    else forMask pmask (fun k st => (f (pairIn g k) st).2) s
  | .object r => forMask pmask (fun k st => st.objCmd r (pairIdx (pairIn g k)) 2 [w] fun t => t.pairWordWrite (pairIn g k) w) s

/-! The commands -/

/-- HB_NOP (R158, R159): OP 0x0 does nothing, but that a word that names a pair in MODE 0 is discarded with its kind. -/
def execHbNop (g : Fin 2) (pmask : BitVec 4) (s : State) : Host.Outcome State Fault Refusal :=
  .next (hbEach .word g pmask (pairWord 0 false 0) (fun _ st => (okc, st)) s)

/-- A motion or stop command word (R159). -/
def hbCommand (v : Via) (g : Fin 2) (pmask : BitVec 4) (w : Word) (s : State) : State :=
  hbEach v g pmask w (fun k st => st.pairCommand k w) s

/-- HB_FREE (R159). -/
def execHbFree (v : Via) (g : Fin 2) (pmask : BitVec 4) (s : State) : Host.Outcome State Fault Refusal :=
  .next (hbCommand v g pmask (pairWord 1 false 0) s)

/-- HB_STOP (R159). -/
def execHbStop (v : Via) (g : Fin 2) (pmask : BitVec 4) (s : State) : Host.Outcome State Fault Refusal :=
  .next (hbCommand v g pmask (pairWord 2 false 0) s)

/-- HB_RUN (R159, R163, R164). -/
def execHbRun (v : Via) (g : Fin 2) (pmask : BitVec 4) (dir : Bool) (duty : BitVec 16) (s : State) : Host.Outcome State Fault Refusal :=
  .next (hbCommand v g pmask (pairWord 3 dir duty.toNat) s)

/-- HB_MOVE (R159, R160). -/
def execHbMove (v : Via) (g : Fin 2) (pmask : BitVec 4) (target : BitVec 24) (s : State) : Host.Outcome State Fault Refusal :=
  .next (hbCommand v g pmask (pairWord 4 false target.toNat) s)

/-- HB_PULSE (R159, R174). -/
def execHbPulse (v : Via) (g : Fin 2) (pmask : BitVec 4) (dir : Bool) (ms : BitVec 16) (s : State) : Host.Outcome State Fault Refusal :=
  .next (hbCommand v g pmask (pairWord 5 dir ms.toNat) s)

/-- HB_PARK (R174). -/
def execHbPark (v : Via) (g : Fin 2) (pmask : BitVec 4) (dir : Bool) (s : State) : Host.Outcome State Fault Refusal :=
  .next (hbCommand v g pmask (pairWord 6 dir 0) s)

/-- HB_CLEAR_LATCH (R177). -/
def execHbClearLatch (v : Via) (g : Fin 2) (pmask : BitVec 4) (s : State) : Host.Outcome State Fault Refusal :=
  .next (hbEach v g pmask (pairWord 7 false 0) (fun k st => st.pairClearWord k (pairWord 7 false 0)) s)

/-- Acts on one word of a half-bridge group's command queue (R158, R159). -/
def hbWord (g : Fin 2) (w : Word) (s : State) : State :=
  let m : BitVec 4 := BitVec.ofNat 4 (fld w 31 28)
  let w0 := wd (w.toNat - fld w 31 28 * 2 ^ 28)
  match fld w 35 32 with
  | 7 => hbEach .word g m w0 (fun k st => st.pairClearWord k w0) s
  | 0 => hbEach .word g m w0 (fun _ st => (okc, st)) s
  | _ => hbCommand .word g m w0 s

/-- HB_MALFORMED_WORD (R159): an invalid word is discarded whole and raises kind 28. -/
def execHbMalformedWord (g : Fin 2) (w : Word) (s : State) : Host.Outcome State Fault Refusal :=
  let bad := !hbFieldsOk w || (allFin 4).any fun k => w.getLsbD (28 + k.val) && !s.pairTakes w (pairIn g k)
  .next (if bad then hbWord g w s else s)

/-! Legs in MODE 0 -/

/-- A leg goes off. -/
def State.legOff (s : State) (n : Fin 16) : State :=
  ((s.onLeg n fun l => { l with act := .off, brake := false }).uncharge (legCode n)).undefer (legCode n)

/-- A leg's command as a deferred value. -/
def LegCmd.value : LegCmd → Nat
  | .off => 0 | .highOn => 1 | .lowOn => 2 | .pwm => 3

def legCmdOf (v : Nat) : LegCmd := if v = 1 then .highOn else if v = 2 then .lowOn else if v = 3 then .pwm else .off

/-- A leg in MODE 0 latches (R176, R178); the first cause stands. -/
def State.legLatch0 (s : State) (n : Fin 16) (cause : BitVec 3) : State :=
  (s.legOff n).onLeg n fun l => if l.lcause = 0 then { l with lcause := cause } else l

/-- A leg in MODE 0 takes a command (R99, R113, R152, R162, R178). -/
def State.legApply (s : State) (n : Fin 16) (c : LegCmd) (reserved : Bool) : Verdict × State :=
  let l := bget s.legs n
  let code := legCode n
  if c = .off then (.admitted, s.legOff n)
  else if s.isShed code then s.refuseEnerg code 0x0F 0x03
  else if l.lcause != 0 then s.refuseEnerg code 0x10 (loadBlock code)
  else if s.pairHot (pairOf n) then (.admitted, s.legLatch0 n 4)
  else if s.heldOff || s.safeOff code then (.admitted, s)
  else if l.act = c && !l.brake then (.admitted, s.undefer code)
  else
    let ck := s.legCharge n c
    let go (st : State) : State := (st.undefer code).onLeg n fun l => { l with act := c, brake := false, supp := l.supp && l.act != .off }
    if ck.risesOver (s.charged code) || l.act = .off then
      if s.adm.inh.getLsbD code then (.admitted, s)
      else if reserved && s.isReserved code then (.admitted, go (s.recharge ck))
      else match s.energise ck c.value false with
        | (.admitted, s1) => (.admitted, go s1)
        | r => r
    else (.admitted, go (s.recharge ck))

/-- What speedwell calls for at a leg in MODE 0: OFF, or BRAKE as low side on (R162). -/
def legSpw (a : Byte × Byte) : LegCmd := if a.1 = 4 then .lowOn else .off

/-- What a leg in MODE 0 follows (R113). -/
def State.legWant (s : State) (n : Fin 16) : LegCmd :=
  match (bget s.adm.level (tgtFin (legCode n))).or (bget s.adm.edge (tgtFin (legCode n))) with
  | some a => legSpw a
  | none => (bget s.legs n).cmd

/-- A leg in MODE 0 follows what it should (R113). -/
def State.legFollow (s : State) (n : Fin 16) : State :=
  if (bget s.legs n).lcause != 0 then s else (s.legApply n (s.legWant n) (s.byRule (legCode n))).2

/-- A firmware command at a leg: refused with 0x07 in MODE 1 (obj 0x2100 + n.01). -/
def State.legCommand (s : State) (n : Fin 16) (c : LegCmd) : Code × State :=
  if s.motor (pairOf n) then ((0x07, 0), s)
  else
    let s1 := if (bget s.legs n).base.isSome then
        s.onLeg n fun l => { l with base := some { cmd := c, policy := (), rsp := false, edge := none, edgeB := none } }
      else (s.onLeg n fun l => { l with cmd := c, rsp := false }).onAdm fun a => { a with edge := bset a.edge (tgtFin (legCode n)) none }
    if (bget s.adm.level (tgtFin (legCode n))).isSome || (s.safeOf (legCode n)).isSome then (okc, s1)
    else match s1.legApply n c false with
      | (.refused r b, s2) => (Verdict.code (.refused r b), { s2 with legs := s.legs, adm := { s2.adm with edge := s.adm.edge } })
      | (v, s2) => (v.code, s2)

/-- LEG_OFF (R152, obj 0x2100 + n.01). -/
def execLegOff (r : Requester) (leg : Fin 16) (s : State) : Host.Outcome State Fault Refusal :=
  .next (s.objCmd r (legIdx leg) 1 [0] fun t => t.legCommand leg .off)

/-- LEG_HIGH_ON. -/
def execLegHighOn (r : Requester) (leg : Fin 16) (s : State) : Host.Outcome State Fault Refusal :=
  .next (s.objCmd r (legIdx leg) 1 [1] fun t => t.legCommand leg .highOn)

/-- LEG_LOW_ON. -/
def execLegLowOn (r : Requester) (leg : Fin 16) (s : State) : Host.Outcome State Fault Refusal :=
  .next (s.objCmd r (legIdx leg) 1 [2] fun t => t.legCommand leg .lowOn)

/-- LEG_PWM. -/
def execLegPwm (r : Requester) (leg : Fin 16) (s : State) : Host.Outcome State Fault Refusal :=
  .next (s.objCmd r (legIdx leg) 1 [3] fun t => t.legCommand leg .pwm)

/-! The motion generator -/

/-- Moves a value toward a target by at most a step. -/
def toward (u t : Int) (step : Nat) : Int :=
  if u ≤ t then min (u + step) t else max (u - step) t

/-- The travel that a MOVE has left in the direction of its drive, while it drives toward its target (R160). -/
def State.remaining (s : State) (k : Fin 8) : Option Int :=
  let p := bget s.pairs k
  match p.act with
  | .move t => if p.ustar != 0 && decide (p.ustar < 0) = p.dir then some (if p.dir then s.pos k - t else t - s.pos k) else none
  | _ => none

/-- The remaining distance calls for deceleration (R160): it is at most r × t_dn ÷ 2, with r one count in `countIv` ticks. -/
def State.mustSlow (s : State) (k : Fin 8) : Bool :=
  let p := bget s.pairs k
  let tdn := p.u.natAbs * msT (s.cfg (pairIdx k) 0x0B) / 65535000
  (s.remaining k).any fun rem => p.countIv != 0 && decide (rem * 2 * p.countIv ≤ (tdn : Int))

/-- What the set point moves to: u*, under the ceiling, and zero while a MOVE decelerates (R160, R161). -/
def State.motionTarget (s : State) (k : Fin 8) : Int :=
  let ceil : Int := s.ceiling k * 1000
  max (-ceil) (min ceil (if s.mustSlow k then 0 else (bget s.pairs k).ustar))

/-- Two set points have opposite signs. -/
def opposed (a b : Int) : Bool := (0 < a && b < 0) || (a < 0 && 0 < b)

/-- One limiter step of a driven pair (R160, R163, R164): where the set point comes to zero the pair brakes; a MOVE that is then within ENDZ of its
target has arrived. -/
def State.limit (s : State) (k : Fin 8) : State :=
  let p := bget s.pairs k
  let tgt := s.motionTarget k
  let up := 6553500 / s.cfg (pairIdx k) 0x0A
  let dn := 6553500 / s.cfg (pairIdx k) 0x0B
  let turn := opposed p.u tgt
  let u1 := if turn then toward p.u 0 dn
    else if p.u.natAbs ≤ tgt.natAbs then toward p.u tgt up else toward p.u tgt dn
  let s1 := s.onPair k fun q => { q with u := u1 }
  if u1 = 0 ∧ (p.u ≠ 0 ∧ (turn ∨ tgt = 0) ∨ p.u = 0 ∧ tgt = 0 ∧ p.ustar = 0) then
    if (s.remaining k).any fun rem => decide (rem ≤ s.endZ k) then s1.pairEnd k else s1.pairBrake k
  else s1

/-- LIMITER_STEP (R163): every 100 µs. -/
def execLimiterStep (k : Fin 8) (s : State) : Host.Outcome State Fault Refusal :=
  let p := bget s.pairs k
  if p.stage ≠ .drive then .next s
  else
    let s1 := (s.at (p.stepAt + usT 100)).onPair k fun q => { q with stepAt := Nat.max (p.stepAt + usT 100) s.now }
    .next (s1.limit k)

/-- Zero speed, seen or timed out (R164, R165): with a motion or a pinch reversal to come the dwell begins, else the brake is held and
the charge ends. -/
def State.zeroSpeed (s : State) (k : Fin 8) : State :=
  let p := bget s.pairs k
  if p.rev.isSome || p.ustar != 0 then
    s.onPair k fun q => { q with stage := .dwell (s.now + msT (s.cfg (pairIdx k) 0x0C)) }
  else (s.onPair k fun q => { q with stage := .held }).uncharge (pairCode k)

/-- ZERO_SPEED_DETECT (R165). -/
def execZeroSpeedDetect (k : Fin 8) (s : State) : Host.Outcome State Fault Refusal :=
  let p := bget s.pairs k
  if p.stage ≠ .braking then .next s
  else
    let t := match p.countAt with
      | some c => if s.cfg (pairIdx k) 0x0D = 0 then s.now else c + msT 5
      | none => s.now
    .next ((s.at t).zeroSpeed k)

/-- ZERO_SPEED_TIMEOUT (R165): 500 ms after braking began. -/
def execZeroSpeedTimeout (k : Fin 8) (s : State) : Host.Outcome State Fault Refusal :=
  let p := bget s.pairs k
  if p.stage ≠ .braking then .next s
  else .next (((s.at (p.brakeAt + msT 500)).onPair k fun q => { q with zto := true }).raisePair k 20 |>.zeroSpeed k)

/-- DWELL_END (R164, R172): the drive starts toward u*, a pinch reversal at its duty; an INHIBIT suppresses the restart but no pinch
reversal (R162). -/
def execDwellEnd (k : Fin 8) (s : State) : Host.Outcome State Fault Refusal :=
  let p := bget s.pairs k
  match p.stage with
  | .dwell e =>
    let s1 := s.at e
    match p.rev with
    | some r =>
      .next ((s1.onPair k fun q => { q with act := .run r.dir (BitVec.ofNat 16 r.duty), ustar := signed r.dir r.duty }).pairStart k true)
    | none =>
      if p.ustar = 0 || s.pairInh k then
        .next ((s1.onPair k fun q => { q with stage := .held, act := .stop, ustar := 0 }).uncharge (pairCode k))
      else .next (s1.pairStart k true)
  | _ => .next s

/-! Position -/

/-- The zone of a position (R170): 0 to 31. -/
def State.zone (s : State) (k : Fin 8) : Nat :=
  let w := s.endP k - s.endN k
  if w ≤ 0 then 0 else (min 31 (max 0 ((s.pos k - s.endN k) * 32 / w))).toNat

/-- A zone entered at its border after BLANK counts as traversed wholly (R173). -/
def State.enterZone (s : State) (k : Fin 8) : State :=
  let z := s.zone k
  s.onPair k fun p =>
    match p.zones.getLast? with
    | some l => if l.z = z then p
        else { p with zones := p.zones ++ [{ z := z, sum := 0, n := 0, whole := decide (p.startAt + msT (s.cfg (pairIdx k) 0x1B) < s.now) }] }
    | none => { p with zones := [{ z := z, sum := 0, n := 0, whole := false }] }

/-- Position counts arrive (R160, R166, R172): POS, the interval, then the target of a MOVE and the travel of a reversal. -/
def State.count (s : State) (k : Fin 8) (d : Int) : State :=
  let p := bget s.pairs k
  let s1 := (s.setPos k (s.pos k + d)).onPair k fun q =>
    { q with countIv := match p.countAt with | some t => s.now - t | none => 0, countAt := some s.now }
  let s2 := s1.enterZone k
  let q := bget s2.pairs k
  if q.stage ≠ .drive then s2
  else match q.rev with
    | some r =>
      let left := r.left - d.natAbs
      let atEnd := if r.dir then s2.pos k ≤ s2.endN k else s2.endP k ≤ s2.pos k
      if left = 0 || atEnd then s2.pairEnd k else s2.onPair k fun x => { x with rev := some { r with left := left } }
    | none => if (s2.remaining k).any fun rem => decide (rem ≤ 0) then s2.pairEnd k else s2

/-- POSITION_COUNT (R166, R167). -/
def execPositionCount (k : Fin 8) (ev : CountEvent) (s : State) : Host.Outcome State Fault Refusal :=
  let p := bget s.pairs k
  let one : Int := if p.dir then -1 else 1
  let src := s.cfg (pairIdx k) 0x0D
  if !s.motor k || !s.counting k then .next s
  else match ev with
    | .ripple iv ex =>
      if src ≠ 1 then .next s
      else
        let fix (t : State) : State := t.onPair k fun q => { q with estim := some (s.now + msT 100) }
        if 3 * ex < 2 * iv then .next (fix (s.count k (2 * one)))
        else if 2 * iv < ex then .next (fix s)
        else .next (s.count k one)
    | .hall => if src ≠ 2 then .next s else .next (s.count k one)
    | .quad up => if src ≠ 3 then .next s else .next (s.count k (if up then 1 else -1))
    | .phaseError =>
      if src ≠ 3 then .next s else .next ((s.onPair k fun q => { q with posok := false }).raisePair k 20)

/-- POS written (R168): refused with 0x07 while the pair moves. -/
def State.writePos (s : State) (k : Fin 8) (v : Word) : Code × State :=
  if (bget s.pairs k).u != 0 then ((0x07, 0), s)
  else (okc, (s.keepObj (pairIdx k) 6 [v]).onPair k fun p => { p with posok := true })

/-- POS_WRITE (R168). -/
def execPosWrite (r : Requester) (k : Fin 8) (v : Word) (s : State) : Host.Outcome State Fault Refusal :=
  .next (s.objCmd r (pairIdx k) 6 [v] fun t => t.writePos k v)

/-! Kinks, pinch, park, pulse -/

/-- I_ref learns from a closing run (R173). -/
def State.learn (s : State) (k : Fin 8) : State :=
  let p := bget s.pairs k
  let closing := p.dir == (s.cfg (pairIdx k) 0x15 / 2 % 2 == 1)
  if s.cfgB (pairIdx k) 0x24 && closing && !p.dirty then
    let tab := p.zones.foldl (fun t z =>
      if z.whole && z.n != 0 then
        let i : Int := (t.getD z.z 0).toNat
        let mean : Int := z.sum / z.n
        t.set z.z (BitVec.ofInt 36 (i + (mean - i + 4) / 8))
      else t) (s.obj (pairIdx k) 0x23)
    s.keepObj (pairIdx k) 0x23 tab
  else s

/-- A kink (R169): the pair brakes; within ENDZ of the end in the direction of travel it is an end stop, else a stall. -/
def State.kink (s : State) (k : Fin 8) : State :=
  let p := bget s.pairs k
  let near (e : Int) : Bool := decide ((s.pos k - e).natAbs ≤ s.endZ k)
  if p.dir && near (s.endN k) then
    (((s.learn k).pairEnd k).setPos k (s.endN k)).onPair k fun q => { q with posok := true, endn := true }
  else if !p.dir && near (s.endP k) then
    (((s.learn k).pairEnd k).setPos k (s.endP k)).onPair k fun q => { q with posok := true, endp := true }
  else
    ((s.pairEnd k).onPair k fun q => { q with stall := true, stalls := satInc q.stalls, dirty := true }).raisePair k 8

/-- A pair is driven and its reactions run: u is not zero and no policy drives it (R183). -/
def State.moving (s : State) (k : Fin 8) : Bool :=
  let p := bget s.pairs k
  p.stage == .drive && p.u != 0 && p.policy == .none

/-- KINK_DETECT (R169): reported by the vendor program, which runs beside RIPPLE. -/
def execKinkDetect (k : Fin 8) (s : State) : Host.Outcome State Fault Refusal :=
  .next (if s.moving k && s.programRuns k then s.kink k else s)

/-- STALL_TIMEOUT (R169): no count for STALLT ms while u ≠ 0, whatever the position source. -/
def execStallTimeout (k : Fin 8) (s : State) : Host.Outcome State Fault Refusal :=
  let p := bget s.pairs k
  if s.moving k then
    .next ((s.at (p.countAt.getD p.startAt + msT (s.cfg (pairIdx k) 0x13))).kink k)
  else .next s

/-- The conditions of a pinch besides its force (R171). -/
def State.pinchZone (s : State) (k : Fin 8) : Bool :=
  let p := bget s.pairs k
  let ap := s.cfg (pairIdx k) 0x15
  let apdir := ap / 2 % 2 == 1
  ap % 2 == 1 && s.moving k && p.rev.isNone && p.dir == apdir && decide (p.startAt + msT (s.cfg (pairIdx k) 0x1B) < s.now) &&
    (!p.posok || (if apdir then decide (s.endN k + s.endZ k ≤ s.pos k) && decide (s.pos k ≤ s.cfgI (pairIdx k) 0x19)
      else decide (s.cfgI (pairIdx k) 0x19 ≤ s.pos k) && decide (s.pos k ≤ s.endP k - s.endZ k)))

/-- PINCH_DETECT (R171, R172): F̂ has exceeded FPINCH for PINCHT ms. -/
def execPinchDetect (k : Fin 8) (s : State) : Host.Outcome State Fault Refusal :=
  let p := bget s.pairs k
  match p.fAt with
  | none => .next s
  | some t =>
    let s1 := s.at (t + msT (s.cfg (pairIdx k) 0x18))
    if s1.pinchZone k then
      let r : PinchRev := { dir := !p.dir, duty := p.u.natAbs / 1000, left := s.cfg (pairIdx k) 0x1A }
      .next (((s1.pairBrake k).onPair k fun q =>
        { q with act := .stop, done := true, ustar := 0, rev := some r, pinch := true, pinches := satInc q.pinches, dirty := true }).raisePair k 12)
    else .next s

/-- PARK_INPUT_ACTIVE (R174, R182). -/
def execParkInputActive (k : Fin 8) (s : State) : Host.Outcome State Fault Refusal :=
  let p := bget s.pairs k
  let parking := match p.act with | .park _ => true | _ => false
  if parking && p.stage == .drive && s.operandIn (s.cfg (pairIdx k) 0x1C) then
    .next ((s.pairEnd k).onPair k fun q => { q with parked := true })
  else .next s

/-- PARK_TIMEOUT (R174). -/
def execParkTimeout (k : Fin 8) (s : State) : Host.Outcome State Fault Refusal :=
  match (bget s.pairs k).park with
  | none => .next s
  | some t => .next (((s.at t).pairEnd k).raisePair k 8)

/-- PULSE_END (R174). -/
def execPulseEnd (k : Fin 8) (s : State) : Host.Outcome State Fault Refusal :=
  match (bget s.pairs k).pulse with
  | none => .next s
  | some t => .next ((s.at t).pairEnd k)

/-- CURRENT_LIMIT_ACT (R156): CLIM is set for the period. -/
def execCurrentLimitAct (k : Fin 8) (s : State) : Host.Outcome State Fault Refusal :=
  let p := bget s.pairs k
  if s.cfg (pairIdx k) 9 != 0 && p.stage == .drive then .next (s.onPair k fun q => { q with clim := true, dirty := true }) else .next s

/-- A charge follows the applied settings of a load that is charged. -/
def State.refresh (s : State) (c : Charge) : State := if s.adm.charges.any (·.code == c.code) then s.recharge c else s

/-- Bundles of a pair and its legs have applied (R186): with a new MODE the pair starts from FREE and its legs from off. -/
def State.pairBundle (s old : State) (k : Fin 8) : State :=
  if s.motor k != old.motor k then
    let free (n : Fin 16) (st : State) : State := (st.legOff n).onLeg n fun l => { l with cmd := .off, brake := false }
    (free (legB k) (free (legA k) (s.pairOff k))).pairSetCmd k .free (pairWord 1 false 0)
  else if s.motor k then s.refresh (s.pairCharge k)
  else [legA k, legB k].foldl (fun st n => st.refresh (st.legCharge n (bget st.legs n).act)) s

/-- PAIR_PWM_PERIOD_BOUNDARY (R61, R154, R186): CLIM is renewed and a committed bundle takes effect. -/
def execPairPwmPeriodBoundary (k : Fin 8) (s : State) : Host.Outcome State Fault Refusal :=
  let s1 := s.onPair k fun q => { q with clim := false }
  .next ([pairIdx k, legIdx (legA k), legIdx (legB k)].foldl State.applyOwned s1 |>.pairBundle s k)

/-! Protection -/

/-- Latches a leg (R176, R155, R178): in MODE 1 the pair goes off; the first cause stands. -/
def State.legLatch (s : State) (n : Fin 16) (cause : BitVec 3) : State :=
  let s1 := s.legLatch0 n cause
  let k := pairOf n
  if s.motor k then (s1.pairOff k).onPair k fun p =>
    { p with done := true, policy := match p.policy with | .hold _ _ _ => .brake | q => q } else s1

/-- The other leg of a pair. -/
def otherLeg (n : Fin 16) : Fin 16 := if n.val % 2 = 0 then legB (pairOf n) else legA (pairOf n)

/-- HB_OVERCURRENT_TRIP (R176). -/
def execHbOvercurrentTrip (leg : Fin 16) (high : Bool) (s : State) : Host.Outcome State Fault Refusal :=
  let cause : BitVec 3 := if high then 1 else 2
  let s1 := (s.onLeg leg fun l => { l with trips := satInc l.trips }).legLatch leg cause
  let s2 := if s.motor (pairOf leg) then s1.legLatch (otherLeg leg) cause else s1
  .next (s2.raise (0x39 + leg.val / 8) (leg.val % 8))

/-- CROSS_CONDUCTION (R155): both sides off, latched with LCAUSE 3. -/
def execCrossConduction (leg : Fin 16) (s : State) : Host.Outcome State Fault Refusal :=
  .next ((s.legLatch leg 3).raise (0x39 + leg.val / 8) 30)

/-- A pair in MODE 1 is in an on command state: it is not FREE, or a motion it is commanded to waits. -/
def State.pairOn (s : State) (k : Fin 8) : Bool :=
  let p := bget s.pairs k
  p.stage != .free || s.isDeferred (pairCode k) || (p.policy == .none && p.cmd.isMotion && !p.done)

/-- The legs of a group in an on command state latch in a thermal shutdown (R133, R178). -/
def State.hbShutdown (s : State) (g : Fin 2) : State :=
  (allFin 4).foldl (fun st j =>
    let k := pairIn g j
    let one (n : Fin 16) (u : State) : State :=
      if (bget u.legs n).lcause = 0 && ((bget u.legs n).act != .off || (bget u.legs n).brake || u.legWant n != .off) then u.legLatch n 4 else u
    if st.motor k then (if !st.pairLatched k && st.pairOn k then st.pairLatch k 4 else st) else one (legB k) (one (legA k) st)) s

/-- The high and the low side of a leg that the command state calls for (R153, R154). -/
def State.legCalls (s : State) (n : Fin 16) : Bool × Bool :=
  let l := bget s.legs n
  if l.lcause != 0 then (false, false)
  else if s.motor (pairOf n) then
    let p := bget s.pairs (pairOf n)
    match p.stage with
    | .free => (false, false)
    | .drive =>
      if p.u = 0 then (false, true)
      else if (n.val % 2 = 0) = !p.dir then (true, true) else (false, true)
    | _ => (false, true)
  else match l.act with
    | .off => (false, l.brake)
    | .highOn => (true, false)
    | .lowOn => (false, true)
    | .pwm => (true, true)

/-- The high and the low side of a leg conduct (R153, R154, R335). -/
def State.conducts (s : State) (n : Fin 16) : Bool × Bool := if (bget s.legs n).supp then (false, false) else s.legCalls n

/-! Sense words -/

/-- The latch part of a half-bridge sense word (R180). -/
def latchCode (c : BitVec 3) : Option (BitVec 12) :=
  if c = 1 || c = 2 then some 0xF01 else if c = 3 then some 0xF02 else if c = 4 then some 0xF03 else none

/-- The sense word of a leg (R180). -/
def State.legSense (s : State) (n : Fin 16) : BitVec 12 :=
  let l := bget s.legs n
  match latchCode l.lcause with
  | some c => c
  | none =>
    if (bget s.th (pairTh (pairOf n))).sensf then 0xF06
    else if l.chkBad || s.adcFail (.leg n) then 0xF07
    else if !s.isPlaced (.leg n) then 0xF0F
    else let c := s.conducts n; if c.1 || c.2 then l.code else 0

/-- The sense word of a pair (R180). -/
def State.pairSense (s : State) (k : Fin 8) : BitVec 12 :=
  let p := bget s.pairs k
  match latchCode (bget s.legs (legA k)).lcause, latchCode (bget s.legs (legB k)).lcause with
  | some a, some b => if a ≤ b then a else b
  | some a, none => a
  | none, some b => b
  | none, none =>
    if (bget s.th (pairTh k)).sensf then 0xF06
    else if p.chkBad || s.adcFail (.pair k) then 0xF07
    else if p.stage == .free && p.scb then 0xF05
    else if p.stage == .free && p.scg then 0xF08
    else if p.stage == .free && p.ol then 0xF04
    else if !s.isPlaced (.pair k) then 0xF0F
    else if p.stage == .free then 0 else p.code

/-- A code clipped at 0xBFF. -/
def clipCode (c : BitVec 12) : BitVec 12 := if 0xBFF < c.toNat then 0xBFF else c

/-- One sense sample of a leg (R180). -/
def State.legSample (s : State) (n : Fin 16) (code : BitVec 12) (checkOk : Bool) : State :=
  let l := bget s.legs n
  if !s.iop || !s.isPlaced (.leg n) then s
  else
    let bad := if (l.samples + 1) % 256 = 0 then !checkOk else l.chkBad
    let s1 := s.onLeg n fun l => { l with code := clipCode code, samples := l.samples + 1, chkBad := bad }
    s1.raiseIf ((l.samples + 1) % 256 = 0 && !checkOk) (0x39 + n.val / 8) 27

/-- F̂ exceeds FPINCH (R170): KF × (Ī − I_ref[z]), Ī the mean of the last 1 ms. -/
def State.pinchForce (s : State) (k : Fin 8) : Bool :=
  let p := bget s.pairs k
  let tab := (s.obj (pairIdx k) 0x23).map (·.toNat)
  let iref := if p.posok then tab.getD (s.zone k) 0 else tab.foldl min 65535
  let n := p.iwin.length
  let sum := (p.iwin.map (·.2)).sum
  decide ((s.cfg (pairIdx k) 0x17 * 65536000 * n : Int) < s.cfg (pairIdx k) 0x16 * ((sum : Int) - iref * n))

/-- One sense sample of a pair (R154, R170, R173, R180). -/
def State.pairSample (s : State) (k : Fin 8) (code : BitVec 12) (checkOk : Bool) : State :=
  let p := bget s.pairs k
  if !s.iop || !s.isPlaced (.pair k) || p.stage == .free then s
  else
    let bad := if (p.samples + 1) % 256 = 0 then !checkOk else p.chkBad
    let ma := (clipCode code).toNat * 16
    let s1 := s.onPair k fun q =>
      { q with code := clipCode code, samples := q.samples + 1, chkBad := bad,
               iwin := (q.iwin.filter fun e => decide (s.now < e.1 + msT 1)) ++ [(s.now, ma)],
               zones := match q.zones.getLast? with
                 | some z => q.zones.dropLast ++ [{ z with sum := z.sum + ma, n := z.n + 1 }]
                 | none => q.zones }
    let above := s1.pinchForce k && s1.pinchZone k
    let s2 := s1.onPair k fun q => { q with fAt := if above then (if q.fAt.isNone then some s.now else q.fAt) else none }
    s2.raiseIf ((p.samples + 1) % 256 = 0 && !checkOk) (0x39 + k.val / 4) 27

/-! Status -/

/-- STATUS of a leg (R185); in MODE 1 it shows what its pair does with it. -/
def State.legStatus (s : State) (n : Fin 16) : Word :=
  let l := bget s.legs n
  let code := legCode n
  let k := pairOf n
  let p := bget s.pairs k
  let motor := s.motor k
  let own := if motor then pairCode k else code
  let held := if motor then p.policy != .none else l.rsp
  let st := if l.lcause != 0 then 4 else if s.isDeferred own then 6 else if held then 5
    else match s.legCalls n with | (true, true) => 3 | (true, false) => 1 | (false, true) => 2 | (false, false) => 0
  let derated := (motor || l.act == .pwm) && s.factor own != 255
  let inh := if motor then s.pairInh k else s.adm.inh.getLsbD code
  let spw := if motor then (s.pairLevel k).isSome else (bget s.adm.level (tgtFin code)).isSome
  wd (st * 2 ^ 20 + l.lcause.toNat * 2 ^ 17 + b1 derated * 2 ^ 16 + b1 inh * 2 ^ 15 + b1 spw * 2 ^ 14 + b1 (s.isShed own) * 2 ^ 13 +
    b1 (s.sout == some (.leg n)) * 2 ^ 12 + b1 (if motor then p.rsp else l.rsp) * 2 ^ 11)

/-- The motion part of STATE (R187). -/
def State.motionCode (s : State) (k : Fin 8) : Nat :=
  let p := bget s.pairs k
  match p.stage with
  | .free => 0
  | .braking => 1
  | .held => 1
  | .dwell _ => 5
  | .drive =>
    match p.act with
    | .park _ => 6
    | _ =>
      let t := s.motionTarget k
      if p.u = t then 3 else if p.u.natAbs < t.natAbs && !opposed p.u t then 2 else 4

/-- STATUS of a pair (R187). -/
def State.pairStatus (s : State) (k : Fin 8) : Word :=
  let p := bget s.pairs k
  let st := if s.pairLatched k then 8 else if s.isDeferred (pairCode k) then 10 else if p.policy != .none then 9
    else if p.rev.isSome then 7 else if p.shedStop then 11 else s.motionCode k
  wd (st * 2 ^ 20 + b1 p.dir * 2 ^ 19 + b1 (p.u != p.ustar) * 2 ^ 18 + b1 p.clim * 2 ^ 17 + b1 p.posok * 2 ^ 16 + b1 p.endn * 2 ^ 15 +
    b1 p.endp * 2 ^ 14 + b1 p.stall * 2 ^ 13 + b1 p.pinch * 2 ^ 12 + b1 (p.estim.any fun e => decide (s.now < e)) * 2 ^ 11 + b1 p.ol * 2 ^ 10 +
    b1 p.scb * 2 ^ 9 + b1 p.scg * 2 ^ 8 + b1 (s.factor (pairCode k) != 255) * 2 ^ 7 + b1 (s.pairInh k) * 2 ^ 6 + b1 (s.pairLevel k).isSome * 2 ^ 5 +
    b1 (s.isShed (pairCode k)) * 2 ^ 4 + b1 p.rsp * 2 ^ 3 + b1 p.parked * 2 ^ 2 + b1 p.zto * 2)

/-- The window of block 0x39 + g (R188). -/
def State.hbWindowWord (s : State) (g : Fin 2) (off : Nat) : Word :=
  let leg (c : Fin 8) : Fin 16 := ⟨8 * g.val + c.val, by omega⟩
  let t := bget s.th ⟨9 + g.val, by omega⟩
  if off = 0 then
    wd (maskOf (fun c => (s.conducts (leg c)).1 || (s.conducts (leg c)).2) * 2 ^ 20 + maskOf (fun c => (bget s.legs (leg c)).lcause != 0) * 2 ^ 12 +
      (allFin 4).foldl (fun a k => a + b1 ((bget s.pairs (pairIn g k)).u != 0) * 2 ^ (8 + k.val)) 0 +
      b1 ((allFin 4).any fun k => (bget s.pairs (pairIn g k)).clim) * 8 + b1 t.twarn * 4 + b1 t.tsd * 2 + b1 t.sensf)
  else if off = 1 then s.gtj ⟨9 + g.val, by omega⟩
  else if 4 ≤ off ∧ off < 8 then BitVec.ofInt 36 (s.pos (pairIn g (Fin.ofNat 4 off)))
  else if 8 ≤ off ∧ off < 16 then (s.legSense (leg (Fin.ofNat 8 off))).zeroExtend 36
  else if 0x80 ≤ off ∧ off < 0x100 then (s.obj (pairIdx (pairIn g (Fin.ofNat 4 ((off - 0x80) / 32)))) 0x23).getD (off % 32) 0
  else 0

/-! Shed, reset policies, deferrals -/

/-- A pair sheds, or a leg in MODE 0 (R175). -/
def State.pairShed (s : State) (k : Fin 8) : State :=
  if s.motor k then
    let p := bget s.pairs k
    if p.rev.isSome then s
    else match s.cfg (pairIdx k) 0x1F with
      | 0 =>
        let s1 := (s.onPair k fun q =>
          { q with act := .stop, done := true, ustar := 0, pulse := none, park := none, shedStop := q.act.isMotion }).undefer (pairCode k)
        if p.stage == .drive && p.u = 0 then s1.pairBrake k else s1
      | 1 => ((s.pairEnd k).undefer (pairCode k)).onPair k fun q => { q with shedStop := p.act.isMotion }
      | _ => if p.stage == .drive then (s.recharge (s.pairCharge k)).onPair k fun q => { q with low := true } else s
  else s

/-- A leg in MODE 0 sheds (R469). -/
def State.legShed (s : State) (n : Fin 16) : State := if s.motor (pairOf n) then s else s.legOff n

/-- A leg in MODE 0 takes OFF in place of its last command or edge action (R182); a true level rule acts over it (R143). -/
def State.legTakeOff (s : State) (n : Fin 16) : State :=
  ((s.onLeg n fun l => { l with cmd := .off }).onAdm fun a => { a with edge := bset a.edge (tgtFin (legCode n)) none }).legFollow n

/-- A pair's POLICY takes the place of its last command or edge action (R182, R183); a true level rule acts over it (R143). -/
def State.pairTakePolicy (s : State) (k : Fin 8) : State :=
  let idx := pairIdx k
  let q := bget s.pairs k
  let driven := q.stage == .drive && q.u != 0
  let pol : PairPolicy := match s.cfg idx 0x21 with
    | 0 => .free
    | 1 => .brake
    | 2 => .hold (if driven then q.u else 0) (q.stage != .free) (s.now + msT (100 * s.cfg idx 0x22))
    | _ => .park (s.now + msT (s.cfg idx 0x1D))
  let s1 := (((s.onPair k fun p => { p with cmd := .free, done := true, rev := none, pulse := none, park := none, policy := pol }).undefer
    (pairCode k)).onAdm fun a => a.pairEdges k none none)
  if (s1.pairLevel k).isSome then s1
  else match pol with
    | .hold _ _ _ =>
      if driven then s1.onPair k fun p => { p with act := .run p.dir (BitVec.ofNat 16 (p.u.natAbs / 1000)), ustar := p.u, posok := false }
      else if q.stage == .drive then s1.pairHalt k
      else s1.onPair k fun p => { p with act := if p.stage == .free then .free else .stop, ustar := 0 }
    | _ =>
      let s2 := s1.pairPolicyDrive k
      if (bget s2.pairs k).stage == .drive then s2.onPair k fun p => { p with posok := false } else s2

/-- What SUP sets when IOP is asserted (R182, R183): a pair; a leg in MODE 0 takes OFF. -/
def State.pairPolicy (s : State) (k : Fin 8) : State :=
  if !s.motor k then
    let keep (b : SafeBase LegCmd Unit) : SafeBase LegCmd Unit := { b with cmd := .off, rsp := true, edge := none }
    let off (st : State) (n : Fin 16) : State := (st.legTakeOff n).onLeg n fun l => { l with rsp := true, base := l.base.map keep }
    off (off s (legA k)) (legB k)
  else
    let s1 := (s.onPair k fun p => { p with rsp := true, word := wd 0x200000000 }).pairTakePolicy k
    let pol := (bget s1.pairs k).policy
    let keep (b : SafeBase (PairCmd × Word) PairPolicy) : SafeBase (PairCmd × Word) PairPolicy :=
      { b with cmd := (.free, b.cmd.2), policy := pol, rsp := true, edge := none, edgeB := none }
    s1.onPair k fun p => { p with base := p.base.map keep }

/-- A pair enters a safe state (R490): OFF is FREE. -/
def State.pairSafe (s : State) (k : Fin 8) (mode : Nat) : State :=
  if mode = 0 then s.pairOff k
  else
    let p := bget s.pairs k
    let b : SafeBase (PairCmd × Word) PairPolicy :=
      { cmd := (p.cmd, p.word), policy := p.policy, rsp := p.rsp, edge := bget s.adm.edge (tgtFin (pairCode k))
        edgeB := bget s.adm.edge (tgtFin (pairCode k + 1)) }
    let s1 := s.onPair k fun q => { q with base := some b }
    if mode = 1 then (s1.onPair k fun q => { q with cmd := q.act, policy := .none }).onAdm fun a => a.pairEdges k none none
    else s1.pairTakePolicy k

/-- A leg in MODE 0 enters a safe state. -/
def State.legSafe (s : State) (n : Fin 16) (mode : Nat) : State :=
  if mode = 0 then s.legOff n
  else
    let l := bget s.legs n
    let b : SafeBase LegCmd Unit := { cmd := l.cmd, policy := (), rsp := l.rsp, edge := bget s.adm.edge (tgtFin (legCode n)), edgeB := none }
    let s1 := s.onLeg n fun q => { q with base := some b }
    if mode = 1 then (s1.onLeg n fun q => { q with cmd := q.act }).onAdm fun a => { a with edge := bset a.edge (tgtFin (legCode n)) none }
    else s1.legTakeOff n

/-- A pair takes its command state again after a hold-off (R482, R492). -/
def State.pairResume (s : State) (k : Fin 8) : State := s.pairFollow k

/-- A pair's class is restored (R175): under LOW a motion that still runs goes on to its target, as an energisation. -/
def State.pairRestore (s : State) (k : Fin 8) : State :=
  let p := bget s.pairs k
  if !p.low then s
  else if p.stage != .drive then s.onPair k fun q => { q with low := false }
  else match s.energise (s.pairCharge k) (2 ^ 36) false with
    | (.admitted, s1) => s1.onPair k fun q => { q with low := false }
    | (_, s1) => s1

/-- SREL at a pair (R492): it takes its command state as it stands; a motion is started again. -/
def State.pairUnsafe (s : State) (k : Fin 8) : State :=
  let s1 := match (bget s.pairs k).base with
    | none => s
    | some b =>
      let pol : PairPolicy := match b.policy with | .hold u h e => if e ≤ s.now then .brake else .hold u h e | q => q
      (s.onPair k fun p => { p with cmd := b.cmd.1, word := b.cmd.2, policy := pol, rsp := b.rsp, base := none }).onAdm fun a =>
        a.pairEdges k b.edge b.edgeB
  s1.pairResume k

/-- SREL at a leg in MODE 0. -/
def State.legUnsafe (s : State) (n : Fin 16) : State :=
  let s1 := match (bget s.legs n).base with
    | none => s
    | some b => (s.onLeg n fun l => { l with cmd := b.cmd, rsp := b.rsp, base := none }).onAdm fun a =>
        { a with edge := bset a.edge (tgtFin (legCode n)) b.edge }
  s1.legFollow n

/-- The end of a HOLD of a pair (R182): it brakes. -/
def State.pairHoldEnd (s : State) (k : Fin 8) : State :=
  match (bget s.pairs k).policy with
  | .hold _ _ e =>
    let s1 := (s.at e).onPair k fun p => { p with policy := .brake }
    if (s1.pairLevel k).isSome then s1 else s1.pairHalt k
  | _ => s

/-- A deferred motion is carried out (R101). -/
def State.pairUndefer (s : State) (k : Fin 8) (v : Nat) : State :=
  (if v < 2 ^ 36 then s.pairCarry k (pairCmdOf (wd v)) else s).onPair k fun q => { q with low := false }

/-- A deferred leg command is carried out. -/
def State.legUndefer (s : State) (n : Fin 16) (v : Nat) : State := s.onLeg n fun l => { l with act := legCmdOf v, brake := false }

/-- RIPPLE or KINK stopped: a moving pair with POSSRC 1 brakes, POSOK is cleared, the position-fault kind is raised (R168). -/
def State.pairProgramLost (s : State) (k : Fin 8) : State :=
  if s.motor k && s.cfg (pairIdx k) 0x0D = 1 && (bget s.pairs k).stage == .drive then
    ((s.pairEnd k).onPair k fun p => { p with posok := false }).raisePair k 20
  else s

/-- The pairs whose programs ran before and run no longer. -/
def State.programsLost (s old : State) : State :=
  (allFin 8).foldl (fun st k => if old.programRuns k && !s.programRuns k then st.pairProgramLost k else st) s

end Sys2Proof.Machine
end

