-- ==== Sys2Proof/Machine/Valves.lean ====
section
/-!
DEFINITION. Valve drivers, banks, the boost switch arbiter, the boost converter and energy recovery (R191 to R223).
-/
namespace Sys2Proof.Machine

def valveIdx (n : Fin 12) : Nat := 0x2200 + n.val
def bankIdx (b : Fin 4) : Nat := 0x2210 + b.val
def boostIdx : Nat := 0x2220

/-- The bank of a channel, and channel c of a bank (R191). -/
def bankOf (n : Fin 12) : Fin 4 := ⟨n.val / 3, by omega⟩
def valveIn (b : Fin 4) (c : Fin 3) : Fin 12 := ⟨3 * b.val + c.val, by omega⟩

/-- The load code of a channel (R466), the valve stage's junction sensor and that of the boost converter. -/
def valveCode (n : Fin 12) : Nat := 0x58 + n.val
def valveTh : ThermGrp := 11
def boostTh : ThermGrp := 12

def State.onVd (s : State) (n : Fin 12) (f : Valve → Valve) : State := { s with vd := bmod s.vd n f }
def State.onVb (s : State) (b : Fin 4) (f : ValveBank → ValveBank) : State := { s with vb := bmod s.vb b f }
def State.onBoost (s : State) (f : Boost → Boost) : State := { s with boost := f s.boost }

/-- Kind 12 + n of block 0x3B (R222). -/
def State.raiseValve (s : State) (n : Fin 12) : State := s.raise 0x3B (12 + n.val)

/-- PEAKHOLD runs for a bank, on sequencer 11 or 12; else the fallback generator does (R199). -/
def State.peakHold (s : State) (b : Fin 4) : Bool := s.libRuns ⟨11 + b.val / 2, by omega⟩

/-- The bank's ENABLE. -/
def State.bankOn (s : State) (b : Fin 4) : Bool := s.cfgB (bankIdx b) 1

/-- The applied settings of a channel, on which a new activation runs. -/
def State.valveCfg (s : State) (n : Fin 12) : ValveSet :=
  let i := valveIdx n
  { ihold := s.cfg i 6, pkmax := s.cfg i 7, pkext := s.cfg i 8, pidet := s.cfgB i 9, epk := s.cfg i 0x0B, relt := s.cfg i 0x0E
    dwin := s.cfg i 0x0C, dlim := s.cfg i 0x0D, pol := s.cfg i 0x12, holdt := s.cfg i 0x13 }

/-- The settings a channel runs on: those its activation began with, else the applied ones (R221). -/
def State.valveSet (s : State) (n : Fin 12) : ValveSet := (bget s.vd n).set.getD (s.valveCfg n)

/-- The settings of the activation that a channel's place in the queue stands for. -/
def State.queuedSet (s : State) (n : Fin 12) : ValveSet := ((bget s.vd n).again.map (·.1)).getD (s.valveSet n)

/-- 100 µs units as ticks. -/
def hundredUs (n : Nat) : Nat := n * 10000

/-- What a channel in hold is charged (R212, R475). -/
def State.valveCharge (s : State) (n : Fin 12) : Charge :=
  let i := s.cfg (valveIdx n) 6
  { code := valveCode n, na := i * 1000000, nw := i * i * 120, derat := false }

/-- The channel's low-side switch works: peak, the fall to hold, hold. -/
def ValveStage.conducts : ValveStage → Bool
  | .peak _ | .fall | .hold => true
  | _ => false

def ValveStage.isPeak : ValveStage → Bool
  | .peak _ => true
  | _ => false

/-- The channel is queued, in peak or in hold: what a further ON leaves as it is (R204).  A channel may be queued anew while its decay runs. -/
def Valve.on (v : Valve) : Bool := v.stage.conducts || v.stage = .queued || v.again.isSome

/-- An activation is under way. -/
def ValveStage.active : ValveStage → Bool
  | .off => false
  | _ => true

/-- Places an entry in the valve event queue (R220); the queue lies in IOP. -/
def State.valveEvent (s : State) (type : Nat) (n : Fin 12) (ends : Nat) (bat fb : Bool) (time epk erec : Nat) : State :=
  if s.iop then
    { s with vq := s.vq.push 64 [wd (type * 2 ^ 32 + n.val * 2 ^ 28 + ends * 2 ^ 26 + b1 bat * 2 ^ 25 + b1 fb * 2 ^ 24 + time % 2 ^ 16),
        s.stamp, wd (epk % 2 ^ 16 * 2 ^ 20 + erec % 2 ^ 16 * 2 ^ 4)] }
  else s

/-! The duty window (R210) -/

/-- Ticks of an interval that lie in [lo, hi]. -/
def overlap (lo hi : Nat) (iv : Nat × Nat) : Nat := Nat.min hi iv.2 - Nat.max lo iv.1

/-- Where the sliding window that ends at t begins: DWIN s of 10 ms slots, the current one included. -/
def dutyFrom (dwin t : Nat) : Nat := (t / msT 10 + 1 - dwin * 100) * msT 10

/-- On-time in the window at time t, given that the channel stays as it is. -/
def Valve.onTime (v : Valve) (dwin t : Nat) : Nat :=
  let lo := dutyFrom dwin t
  (v.onLog.map (overlap lo t)).sum + (match v.onFrom with | some f => overlap lo t (f, t) | none => 0)

/-- DLIM % of DWIN, in ticks. -/
def ValveSet.dutyLimit (e : ValveSet) : Nat := e.dwin * e.dlim * 1000000

/-- The time at which a channel that stays on reaches its limit. -/
def dutyReach (v : Valve) (dwin limit : Nat) : Nat → Nat → Option Nat
  | 0, _ => none
  | k + 1, t =>
    let o := v.onTime dwin t
    if limit ≤ o then some t else dutyReach v dwin limit k (t + (limit - o))

/-- The time from t on at which the windowed on-time of a channel that is off lies below half its limit. -/
def dutyCool (v : Valve) (dwin limit : Nat) : Nat → Nat → Option Nat
  | 0, _ => none
  | k + 1, t => if 2 * v.onTime dwin t < limit then some t else dutyCool v dwin limit k ((t / msT 10 + 1) * msT 10)

/-- The on-time ends; what no window of 60 s can reach any more is forgotten. -/
def Valve.clockOut (v : Valve) (now : Nat) : Valve :=
  match v.onFrom with
  | none => v
  | some f => { v with onFrom := none, onLog := (f, now) :: v.onLog.filter fun iv => dutyFrom 60 now < iv.2 }

/-! The boost switch (R200 to R205) -/

/-- The channel of a bank that is in its peak. -/
def State.bankOwner (s : State) (b : Fin 4) : Option (Fin 12) :=
  ((allFin 3).map (valveIn b)).find? fun n => (bget s.vd n).stage.isPeak

/-- The predicted start delay of R202, in ticks. -/
def State.startDelay (s : State) (b : Fin 4) : Nat :=
  let run := match s.bankOwner b with
    | none => 0
    | some n => match (bget s.vd n).stage with
      | .peak t => hundredUs (s.valveSet n).pkmax - (s.now - t)
      | _ => 0
  run + ((bget s.vb b).queue.map fun n => hundredUs (s.queuedSet n).pkmax).sum

/-- A peak runs from the battery switch (R205). -/
def State.batteryPeak (s : State) (n : Fin 12) : State :=
  ((s.onVd n fun v => { v with bat := true, batpk := true }).onVb (bankOf n) fun k => { k with batpks := satInc k.batpks }).raise 0x3C 3

/-- The activation ends: its old set is given up (R221).  A channel queued anew waits on. -/
def Valve.rest (v : Valve) : Valve :=
  match v.again with
  | none => { v with stage := .off, set := none, pulseMs := 0, pulse := none }
  | some (e, ms) => { v with stage := .queued, set := some e, pulseMs := ms, pulse := none, again := none }

/-- The release entry of an activation (R198, R219, R220). -/
def State.released (s : State) (n : Fin 12) (trel : BitVec 16) : State :=
  let v := bget s.vd n
  ((s.valveEvent 2 n 0 v.bat v.fb trel.toNat v.epkl.toNat v.erecl.toNat).onVd n fun v => { v.rest with trel := trel })

/-- RFRAC (R198). -/
def rfracOf (epk erec : Nat) : Nat := if epk = 0 then 0 else Nat.min 1000 (erec * 1000 / epk)

/-- The current of a decay is zero: the energies of the activation are known (R198, R219). -/
def State.currentZero (s : State) (n : Fin 12) (erec : Nat) : State :=
  let v := bget s.vd n
  let un := v.unseen || !s.iop
  let e := if un || v.bat then 0 else Nat.min erec 0xFFFF
  let p := if un then 0 else v.epk
  let s1 := s.onVd n fun v =>
    { v with unseen := un, epkl := BitVec.ofNat 16 p, erecl := BitVec.ofNat 16 e, rfrac := BitVec.ofNat 16 (rfracOf p e),
             stage := .decay (some s.now) }
  s1.onBoost fun u => { u with erect := wd (Nat.min (2 ^ 36 - 1) (u.erect.toNat + e)) }

/-- A new peak ends a decay that still runs: the activation is released without a release found; what its recovery path returned by then is a
measurement that the command does not carry, a free value (log 7). -/
def State.cutDecay (s : State) (n : Fin 12) : State :=
  match (bget s.vd n).stage with
  | .decay none => let (k, s1) := s.draw; (s1.currentZero n (Config.freeWord k).toNat).released n 0xFFFF
  | .decay (some _) => s.released n 0xFFFF
  | _ => s

/-- A peak begins (R194, R200, R205). -/
def State.peakStart (s0 : State) (n : Fin 12) : State :=
  let s := s0.cutDecay n
  let s1 := s.onVd n fun v =>
    { v with stage := .peak s.now, supp := false, pulled := none, bat := false, batpk := false, epk := 0, fb := !s.peakHold (bankOf n),
             unseen := !s.iop, acts := satInc v.acts, onFrom := some s.now,
             pulse := if v.pulseMs = 0 then none else some (s.now + msT v.pulseMs) }
  let s2 := s1.onVb (bankOf n) fun k => { k with peaks := satInc k.peaks }
  if s.boost.vout < 100 * s.cfg boostIdx 3 then s2.batteryPeak n else s2

/-- A queued channel that one cause turns off together with others of its bank begins no peak meanwhile: a bank that is off or latched, a hold-off, a
shed, a thermal shutdown. -/
def State.mayPeak (s : State) (n : Fin 12) : Bool :=
  s.bankOn (bankOf n) && !(bget s.vb (bankOf n)).latch && !s.heldOff && !s.isShed (valveCode n) && !s.safeOff (valveCode n) &&
    !(bget s.th valveTh).hot

/-- The boost switch is handed on: the head of the queue begins its peak (R200). -/
def State.handOn (s : State) (b : Fin 4) : State :=
  match (bget s.vb b).queue.filter s.mayPeak with
  | [] => s.onVb b fun k => { k with queue := [] }
  | n :: r => (s.onVb b fun k => { k with queue := r }).peakStart n

/-- An admitted ON reaches the arbiter (R202): refused by its predicted delay, started or queued. -/
def State.arbiter (s : State) (n : Fin 12) (pulseMs : Nat) : Verdict × State :=
  let b := bankOf n
  let startmax := s.cfg (valveIdx n) 0x0A
  if startmax != 0 && msT startmax < s.startDelay b then
    ((s.uncharge (valveCode n)).onVb b fun k => { k with refused := satInc k.refused }).refuseEnerg (valveCode n) 0x0E 0x3B
  else
    let s1 := s.onVd n fun v =>
      let w := { v with again := some (s.valveCfg n, pulseMs), test := match v.test with | .idle => .idle | _ => .due }
      if v.stage = .off then w.rest else w
    if (s.bankOwner b).isSome then (.admitted, s1.onVb b fun k => { k with queue := k.queue ++ [n] })
    else (.admitted, s1.peakStart n)

/-! Ends of the phases -/

/-- What a peak's end leaves on the channel and in the totals (R194, R198): END is the code of R220. -/
def State.peakEnds (s : State) (n : Fin 12) (ends energy : Nat) : State :=
  let v := bget s.vd n
  let fb := v.fb || !s.peakHold (bankOf n)
  let unseen := v.unseen || !s.iop
  let nop := ends = 1 && !fb && (s.valveSet n).pidet && v.pulled.isNone
  let e := if unseen then 0 else energy
  let s1 := s.onVd n fun v =>
    { v with fb := fb, unseen := unseen, epk := e, nopull := nop, elim := ends = 2, nopulls := if nop then satInc v.nopulls else v.nopulls }
  let s2 := s1.onBoost fun u => { u with edraw := wd (Nat.min (2 ^ 36 - 1) (u.edraw.toNat + e)) }
  let s3 := s2.raiseIf (nop || ends = 2) 0x3B (12 + n.val)
  s3.valveEvent 1 n ends v.bat fb v.tpi.toNat 0 0

/-- Off (R197, R204): a queued request is removed, a peak ends and the boost switch is handed on, the current decays.  The energy of a
peak cut short is a measurement that the command does not carry: a free value below EPK (log 7). -/
def State.valveOff (s : State) (n : Fin 12) : State :=
  let b := bankOf n
  let s0 := (s.uncharge (valveCode n)).undefer (valveCode n)
  let decay (st : State) : State :=
    st.onVd n fun v => { v.clockOut s.now with stage := .decay none, offAt := s.now, pulse := none, pulseMs := 0 }
  match (bget s.vd n).stage with
  | .off => s0
  | .decay _ => (s0.onVb b fun k => { k with queue := k.queue.filter (· != n) }).onVd n fun v => { v with again := none }
  | .queued => (s0.onVb b fun k => { k with queue := k.queue.filter (· != n) }).onVd n Valve.rest
  | .peak _ =>
    let (k, s1) := s0.draw
    (decay (s1.peakEnds n 3 ((Config.freeWord k).toNat % (s.valveSet n).epk))).handOn b
  | _ => decay s0

/-- A latch (R132, R215): off; the first cause stands. -/
def State.valveLatch (s : State) (n : Fin 12) (cause : BitVec 3) : State :=
  (s.valveOff n).onVd n fun v => { v with lcause := if v.lcause = 0 then cause else v.lcause }

/-! Commands -/

/-- A channel takes ON, with the PULSE time or 0, or OFF (R99, R202, R204, R212, R491). -/
def State.valveApply (s : State) (n : Fin 12) (on : Bool) (pulseMs : Nat) (reserved : Bool) : Verdict × State :=
  let v := bget s.vd n
  if !on then (.admitted, s.valveOff n)
  else if s.isShed (valveCode n) then s.refuseEnerg (valveCode n) 0x0F 0x03
  else if v.lcause != 0 || (bget s.vb (bankOf n)).latch then s.refuseEnerg (valveCode n) 0x10 0x3B
  else if (bget s.th valveTh).hot then (.admitted, s.valveLatch n 3)
  else if s.heldOff || s.safeOff (valveCode n) || !s.bankOn (bankOf n) then (.admitted, s)
  else if v.on then (.admitted, s)
  else if s.adm.inh.getLsbD (valveCode n) then (.admitted, s.undefer (valveCode n))
  else if reserved && s.isReserved (valveCode n) then (s.recharge (s.valveCharge n)).arbiter n pulseMs
  else
    match s.energise (s.valveCharge n) (1 + pulseMs) false with
      | (.admitted, s1) => s1.arbiter n pulseMs
      | r => r

/-- A deferred ON joins the arbiter's queue (R212). -/
def State.valveUndefer (s : State) (n : Fin 12) (value : Nat) : State :=
  if (bget s.vd n).on then s else (s.arbiter n (value - 1)).2

/-- What a speedwell action calls for at a valve: ON, or OFF (R111). -/
def spwOn (a : Byte × Byte) : Bool := a.1 = 0

/-- The state that a reset policy sets (R218). -/
def Valve.stands (v : Valve) : Bool :=
  match v.policy with
  | .none => v.cmd
  | .off => false
  | .hold was _ => was

/-- The command state a channel follows (R113, R212, R219). -/
def State.valveWant (s : State) (n : Fin 12) : Bool :=
  match bget s.adm.level (tgtFin (valveCode n)) with
  | some a => spwOn a
  | none => match bget s.adm.edge (tgtFin (valveCode n)) with
    | some a => spwOn a
    | none => (bget s.vd n).stands

/-- A channel follows what it should (R113, R470). -/
def State.valveFollow (s : State) (n : Fin 12) : State :=
  let v := bget s.vd n
  if v.lcause != 0 then s
  else
    let s1 := (s.valveApply n (s.valveWant n) 0 (s.byRule (valveCode n))).2
    if !s.iop && !v.on && (bget s1.vd n).on then s1.onVd n fun v => { v with spwReset := true } else s1

/-- A firmware command at a channel (R103, R113, R212): an ON of a disabled bank is refused with 0x07 (obj 0x2210 + b.01). -/
def State.valveCommand (s : State) (n : Fin 12) (on : Bool) (pulseMs : Nat) : Code × State :=
  let t := tgtFin (valveCode n)
  let s1 := if (bget s.vd n).base.isSome then
      s.onVd n fun v => { v with base := some { cmd := on, policy := .none, rsp := false, edge := none, edgeB := none } }
    else (s.onVd n fun v => { v with cmd := on, policy := .none, rsp := false }).onAdm fun a => { a with edge := bset a.edge t none }
  if on && !s.bankOn (bankOf n) then ((0x07, 0), s)
  else if (bget s.adm.level t).isSome || (s.safeOf (valveCode n)).isSome then
    (okc, if on then s1 else s1.undefer (valveCode n))
  else match s1.valveApply n on pulseMs false with
    | (.refused r b, s2) =>
      (Verdict.code (.refused r b), { s2 with vd := s.vd, adm := { s2.adm with edge := s.adm.edge } })
    | (v, s2) => (v.code, s2)

/-- A clear (R215): OFF, latch cleared; refused for LCAUSE 3 at 150 °C or more. -/
def State.valveClear (s : State) (n : Fin 12) : Code × State :=
  let v := bget s.vd n
  if v.lcause = 0 then (okc, s)
  else if v.lcause = 3 && 2400 ≤ bget s.sup.tj valveTh then ((0x07, 0), s)
  else
    let off : SafeBase Bool ValvePolicy := { cmd := false, policy := .none, rsp := false, edge := none, edgeB := none }
    (okc, (s.onVd n fun v => { v with lcause := 0, cmd := false, policy := .none, rsp := false, base := v.base.map fun _ => off }).onAdm fun a =>
    { a with edge := bset a.edge (tgtFin (valveCode n)) none })

/-- A valve command by word or by object, in ascending n (R214). -/
def valveEach (v : Via) (mask : BitVec 12) (sub : Nat) (val : Val) (f : Fin 12 → State → Code × State) (s : State) : State :=
  match v with
  | .word => if !s.iop then s else forMask mask (fun n st => (f n st).2) s
  | .object r => forMask mask (fun n st => st.objCmd r (valveIdx n) sub val (f n)) s

/-- VALVE_NOP (R213): OP 0x0 does nothing. -/
def execValveNop (_mask : BitVec 12) (s : State) : Host.Outcome State Fault Refusal := .next s

/-- VALVE_OFF (R197, R204). -/
def execValveOff (v : Via) (mask : BitVec 12) (s : State) : Host.Outcome State Fault Refusal :=
  .next (valveEach v mask 1 [0] (fun n st => st.valveCommand n false 0) s)

/-- VALVE_ON (R202, R204, R212). -/
def execValveOn (v : Via) (mask : BitVec 12) (s : State) : Host.Outcome State Fault Refusal :=
  .next (valveEach v mask 1 [1] (fun n st => st.valveCommand n true 0) s)

/-- A valve command word is valid (R213, R214). -/
def valveWordOk (w : Word) : Bool :=
  fld w 35 32 ≤ 4 && fld w 19 16 = 0 &&
    (if fld w 35 32 = 3 then 1 ≤ fld w 15 0 && fld w 15 0 ≤ 60000 else fld w 15 0 = 0)

/-- Acts on one command word of the queue of block 0x3B (R213, R214). -/
def valveWord (w : Word) (s : State) : State :=
  let m : BitVec 12 := BitVec.ofNat 12 (fld w 31 20)
  if !s.iop then s
  else if !valveWordOk w then s.raise 0x3B 31
  else match fld w 35 32 with
    | 1 => valveEach .word m 1 [0] (fun n st => st.valveCommand n false 0) s
    | 2 => valveEach .word m 1 [1] (fun n st => st.valveCommand n true 0) s
    | 3 => valveEach .word m 1 [1] (fun n st => st.valveCommand n true (fld w 15 0)) s
    | 4 => valveEach .word m 2 [1] (fun n st => st.valveClear n) s
    | _ => s

/-- VALVE_PULSE (R213): a word of OP 0x3. -/
def execValvePulse (mask : BitVec 12) (ms : BitVec 16) (s : State) : Host.Outcome State Fault Refusal :=
  .next (valveWord (wd (3 * 2 ^ 32 + mask.toNat * 2 ^ 20 + ms.toNat)) s)

/-- VALVE_CLEAR_LATCH (R215). -/
def execValveClearLatch (v : Via) (mask : BitVec 12) (s : State) : Host.Outcome State Fault Refusal :=
  .next (valveEach v mask 2 [1] (fun n st => st.valveClear n) s)

/-- VALVE_MALFORMED_WORD (R214): discarded whole, kind 31 is raised. -/
def execValveMalformedWord (w : Word) (s : State) : Host.Outcome State Fault Refusal :=
  .next (if valveWordOk w then s else valveWord w s)

/-! Events of an activation -/

/-- PULL_IN_DETECT (R195, R199): the dip's lowest point lies `dip` × 10 µs after the start of the peak. -/
def execPullInDetect (n : Fin 12) (dip : Nat) (s : State) : Host.Outcome State Fault Refusal :=
  let v := bget s.vd n
  match v.stage, v.pulled with
  | .peak t, none =>
    let at_ := t + usT (10 * dip)
    if !s.peakHold (bankOf n) || t + hundredUs (s.valveSet n).pkmax < at_ || at_ < s.now then .next s
    else .next ((s.at at_).onVd n fun v => { v with pulled := some at_, tpi := BitVec.ofNat 16 (Nat.min dip 0xFFFF) })
  | _, _ => .next s

/-- When the peak of a channel ends by PKEXT after pull-in (R194). -/
def State.pullEnd (s : State) (n : Fin 12) : Option Nat :=
  let set := s.valveSet n
  if set.pidet && s.peakHold (bankOf n) then (bget s.vd n).pulled.map (· + hundredUs set.pkext) else none

/-- The peak gives way to the hold phase and the boost switch is handed on (R194, R196, R200). -/
def State.peakToHold (s : State) (n : Fin 12) (ends energy : Nat) : State :=
  ((s.peakEnds n ends energy).onVd n fun v => { v with stage := .fall }).handOn (bankOf n)

/-- VALVE_PEAK_END (R194, R199, R211): by the first of its three reasons. -/
def execValvePeakEnd (n : Fin 12) (why : PeakEnd) (energy : Nat) (s : State) : Host.Outcome State Fault Refusal :=
  match (bget s.vd n).stage with
  | .peak t =>
    let last := t + hundredUs (s.valveSet n).pkmax
    match why with
    | .pullIn => match s.pullEnd n with
      | some e => if e ≤ last && energy ≤ (s.valveSet n).epk then .next ((s.at e).peakToHold n 0 energy) else .next s
      | none => .next s
    | .pkMax =>
      if (match s.pullEnd n with | some e => decide (e ≤ last) | none => false) || (s.valveSet n).epk < energy then .next s
      else .next ((s.at last).peakToHold n 1 energy)
    | .energy => if energy < (s.valveSet n).epk then .next s else .next (s.peakToHold n 2 energy)
  | _ => .next s

/-- VALVE_HOLD_START (R196). -/
def execValveHoldStart (n : Fin 12) (s : State) : Host.Outcome State Fault Refusal :=
  if (bget s.vd n).stage = .fall then .next (s.onVd n fun v => { v with stage := .hold }) else .next s

/-- VALVE_DECAY_END (R197, R198): the energies of the activation are known; the release window opens, or the release entry follows. -/
def execValveDecayEnd (n : Fin 12) (erec : Nat) (s : State) : Host.Outcome State Fault Refusal :=
  if (bget s.vd n).stage = .decay none then
    let s2 := s.currentZero n erec
    .next (if (s.valveSet n).relt = 0 || !s.peakHold (bankOf n) then s2.released n 0xFFFF else s2)
  else .next s

/-- RELEASE_DETECT (R197): within the window; TREL counts from switch-off in 10 µs. -/
def execReleaseDetect (n : Fin 12) (s : State) : Host.Outcome State Fault Refusal :=
  let v := bget s.vd n
  match v.stage with
  | .decay (some z) =>
    if s.now ≤ z + msT (s.valveSet n).relt && s.peakHold (bankOf n) then
      .next ((s.onVd n fun v => { v with norel := false }).released n (BitVec.ofNat 16 (Nat.min 0xFFFE ((s.now - v.offAt) / 1000))))
    else .next s
  | _ => .next s

/-- RELEASE_TIMEOUT (R197, R199): NOREL is not raised in fallback. -/
def execReleaseTimeout (n : Fin 12) (s : State) : Host.Outcome State Fault Refusal :=
  match (bget s.vd n).stage with
  | .decay (some z) =>
    let s1 := s.at (z + msT (s.valveSet n).relt)
    if s.peakHold (bankOf n) then .next (((s1.onVd n fun v => { v with norel := true }).raiseValve n).released n 0xFFFF)
    else .next (s1.released n 0xFFFF)
  | _ => .next s

/-- VALVE_PULSE_END (R213). -/
def execValvePulseEnd (n : Fin 12) (s : State) : Host.Outcome State Fault Refusal :=
  match (bget s.vd n).pulse with
  | some e => .next (((s.at e).onVd n fun v => { v with cmd := false }).valveOff n)
  | none => .next s

/-- DUTY_LIMIT_REACHED (R210). -/
def execDutyLimitReached (n : Fin 12) (s : State) : Host.Outcome State Fault Refusal :=
  let v := bget s.vd n
  let e := s.valveSet n
  if v.onFrom.isNone || e.dlim = 100 then .next s
  else match dutyReach v e.dwin e.dutyLimit 6002 s.now with
    | some t => .next (((s.at t).valveLatch n 4).raiseValve n)
    | none => .next s

/-- DUTY_LATCH_SELF_CLEAR (R210). -/
def execDutyLatchSelfClear (n : Fin 12) (s : State) : Host.Outcome State Fault Refusal :=
  let v := bget s.vd n
  if v.lcause != 4 then .next s
  else match dutyCool v (s.valveSet n).dwin (s.valveSet n).dutyLimit 6002 s.now with
    | some t => .next (((s.at t).valveClear n).2)
    | none => .next s

/-! Protection (R215) -/

/-- VALVE_OVERCURRENT_TRIP. -/
def execValveOvercurrentTrip (n : Fin 12) (s : State) : Host.Outcome State Fault Refusal :=
  if (bget s.vd n).stage.conducts then
    .next (((s.valveLatch n 1).onVd n fun v => { v with trips := satInc v.trips }).raise 0x3B n.val)
  else .next s

/-- BANK_SWITCH_TRIP: both bank switches and all three channels go off. -/
def execBankSwitchTrip (b : Fin 4) (s : State) : Host.Outcome State Fault Refusal :=
  if !s.bankOn b || (bget s.vb b).latch then .next s
  else
    let s1 := (allFin 3).foldl (fun st c => st.valveLatch (valveIn b c) 2) (s.onVb b fun k => { k with latch := true })
    .next (s1.raise 0x3B (24 + b.val))

/-- A bank clear (R132, R215): the bank latch, and LCAUSE 2 of its channels. -/
def State.bankClear (s : State) (b : Fin 4) : State :=
  (allFin 3).foldl (fun st c => if (bget st.vd (valveIn b c)).lcause = 2 then (st.valveClear (valveIn b c)).2 else st)
    (s.onVb b fun k => { k with latch := false })

/-- BANK_CLEAR: a write of 1 to BCLR of obj 0x2210 + b. -/
def execBankClear (r : Requester) (b : Fin 4) (s : State) : Host.Outcome State Fault Refusal :=
  .next (s.objCmd r (bankIdx b) 3 [1] fun t => (okc, t.bankClear b))

/-- The valve stage reaches thermal shutdown (R133, R215): every channel in an on command state, one that is shed, deferred or held off too, is turned
off and latched. -/
def State.valveShutdown (s : State) : State :=
  (allFin 12).foldl (fun st n =>
    let v := bget st.vd n
    if v.lcause = 0 && (v.on || st.valveWant n) then st.valveLatch n 3 else st) s

/-! The boost converter -/

/-- VNOM (R475). -/
def State.vnom (s : State) : Nat := if s.cfg 0x1010 1 = 24 then 28 else 14

/-- What the converter is charged (R206, R475). -/
def State.boostCharge (s : State) : Charge :=
  let i := s.cfg boostIdx 5
  { code := 0xAB, na := i * 1000000, nw := i * s.vnom * 100000, derat := false }

/-- A BCHT window starts: the converter charges (R206). -/
def State.boostCharging (s : State) : State :=
  s.onBoost fun u => { u with reached := false, chFrom := s.now, chVout := u.vout, chEnds := some (s.now + msT (s.cfg boostIdx 6)) }

/-- The converter stops and its charge ends (R99, R206, R209, R471, R482). -/
def State.boostStop (s : State) : State :=
  ((s.onBoost fun u => { u with run := false, reached := false, chEnds := none }).uncharge 0xAB).undefer 0xAB

/-- An admitted enable is carried out. -/
def State.boostStart (s : State) : State := (s.onBoost fun u => { u with run := true, halted := false }).boostCharging

/-- A thermal shutdown or a charge timeout latches the converter (R206). -/
def State.boostLatch (s : State) : State := s.boostStop.onBoost fun u => { u with latched := true }

/-- The device is parked, or not yet back in RUN (R206, R209). -/
def State.asleep (s : State) : Bool :=
  match s.pwr.mode with
  | .park | .deep | .returning => true
  | _ => false

/-- The converter follows ENABLE and what stops it (R206, R209, R471, R482). -/
def State.boostFollow (s : State) : State :=
  if s.boost.latched then s
  else if !s.cfgB boostIdx 1 then s.boostStop.onBoost fun u => { u with halted := false }
  else if s.heldOff || s.sup.crank || s.asleep then s.boostStop.onBoost fun u => { u with halted := true }
  else if (bget s.th boostTh).hot then s.boostLatch
  else if s.boost.run then s.recharge s.boostCharge
  else match s.energise s.boostCharge 1 false with
    | (.admitted, s1) => s1.boostStart
    | (_, s1) => s1

/-- The sink of R209 discharges the rail. -/
def State.boostSink (s : State) : Bool := !s.cfgB boostIdx 1 || s.asleep || !s.up 1

/-- BSTAT (obj 0x2220.09). -/
def State.bstat (s : State) : Nat :=
  if s.boostSink && 500 ≤ s.boost.vout then 4
  else if s.boost.latched then 3
  else if s.boost.run then (if s.boost.reached then 2 else 1)
  else 0

/-- The rail is found at `vout`, in 10 mV (R205, R206).  A fall below VBMIN turns every running peak into a battery peak and begins a new BCHT window. -/
def State.railAt (s : State) (vout : Nat) : State :=
  let low (v : Nat) : Bool := decide (v < 100 * s.cfg boostIdx 3)
  let s1 := s.onBoost fun u => { u with vout := vout }
  if !low vout then s1
  else
    let s2 := (allFin 4).foldl (fun st b => match st.bankOwner b with
      | some n => if (bget st.vd n).bat then st else st.batteryPeak n
      | none => st) s1
    if s.boost.run && !low s.boost.vout then s2.boostCharging else s2

/-- BOOST_SETPOINT_REACHED (R206, R208): `vout` in 10 mV.  CEST follows from the rise of VOUT, the time it took, BILIM and VBAT, by an estimate that
the spec does not give: an open function of these (log 7). -/
def execBoostSetpointReached (vout : Nat) (s : State) : Host.Outcome State Fault Refusal :=
  if s.boost.run && !s.boost.reached && 98 * s.cfg boostIdx 2 ≤ vout then
    let u := s.boost
    let c := Config.capEstimate u.chVout vout (s.now - u.chFrom) (s.cfg boostIdx 5) s.sup.vbat
    let cap := s.cfg boostIdx 4
    .next (((s.railAt vout).onBoost fun u => { u with reached := true, chEnds := none, cest := c }).raiseIf
      (c.toNat * 100 < 70 * cap || 130 * cap < c.toNat * 100) 0x3C 6)
  else .next s

/-- BOOST_CHARGE_TIMEOUT (R206). -/
def execBoostChargeTimeout (s : State) : Host.Outcome State Fault Refusal :=
  match s.boost.run, s.boost.chEnds with
  | true, some e => .next (((s.at e).boostLatch).raise 0x3C 1)
  | _, _ => .next s

/-- A clear of the converter restarts the charge (R206). -/
def State.boostClear (s : State) : State :=
  if s.boost.latched then (s.onBoost fun u => { u with latched := false }).boostFollow else s

/-- BOOST_CLEAR: a write of 1 to BCLR of obj 0x2220. -/
def execBoostClear (r : Requester) (s : State) : Host.Outcome State Fault Refusal :=
  .next (s.objCmd r boostIdx 0x0A [1] fun t => (okc, t.boostClear))

/-- BOOST_OVERVOLTAGE (R207): above VSET + 3 V switching stops, above 68 V the clamp engages and kind 0 is raised. -/
def execBoostOvervoltage (vout : Nat) (s : State) : Host.Outcome State Fault Refusal :=
  if 100 * (s.cfg boostIdx 2 + 3) < vout then .next ((s.railAt vout).raiseIf (6800 < vout) 0x3C 0)
  else .next s

/-- BOOST_DISCHARGED (R209): the rail lies below 5 V, at a value the command does not carry, a free value (log 7). -/
def execBoostDischarged (s : State) : Host.Outcome State Fault Refusal :=
  if s.boostSink && 500 ≤ s.boost.vout then
    let (k, s1) := s.draw
    .next (s1.onBoost fun u => { u with vout := (Config.freeWord k).toNat % 500 })
  else .next s

/-- BOOST_RAIL_TOO_LOW (R205, R206): the rail is one, so it falls for the peaks of every bank; the bank names where the comparator saw it. -/
def execBoostRailTooLow (_b : Fin 4) (vout : Nat) (s : State) : Host.Outcome State Fault Refusal :=
  .next (if vout < 100 * s.cfg boostIdx 3 then s.railAt vout else s)

/-- BOOST_SWITCH_OVERCURRENT (R222). -/
def execBoostSwitchOvercurrent (s : State) : Host.Outcome State Fault Refusal :=
  .next (s.raiseIf s.boost.run 0x3C 2)

/-! Sense and status -/

/-- The sense word of a channel (R217). -/
def State.valveSense (s : State) (n : Fin 12) : BitVec 12 :=
  let v := bget s.vd n
  let off := !v.stage.conducts || v.supp
  if v.lcause = 1 then 0xF01
  else if v.lcause = 2 then 0xF02
  else if v.lcause = 3 then 0xF03
  else if (bget s.th valveTh).sensf then 0xF06
  else if v.chkBad || s.adcFail (.valve n) then 0xF07
  else if off && v.scg then 0xF08
  else if off && v.ol then 0xF04
  else if v.lcause = 4 then 0xF09
  else if !s.isPlaced (.valve n) then 0xF0F
  else if off then 0 else v.code

/-- One sense sample of a channel (R217, R139). -/
def State.valveSample (s : State) (n : Fin 12) (code : BitVec 12) (checkOk : Bool) : State :=
  let v := bget s.vd n
  if !s.iop || !s.isPlaced (.valve n) || !v.stage.conducts || v.supp then s
  else
    let k := v.samples + 1
    let bad := if k % 256 = 0 then !checkOk else v.chkBad
    let s1 := s.onVd n fun v => { v with code := clipCode code, samples := k, chkBad := bad }
    s1.raiseIf (k % 256 = 0 && !checkOk) 0x3B 30

/-- STATE of STATUS (R221), the first that applies. -/
def State.valveState (s : State) (n : Fin 12) : Nat :=
  let v := bget s.vd n
  if v.lcause != 0 then 5
  else if s.isDeferred (valveCode n) then 7
  else match v.policy, v.stage with
    | .hold _ _, .peak _ => 6
    | .hold _ _, .fall => 6
    | .hold _ _, .hold => 6
    | .hold _ _, .queued => 6
    | _, .decay _ => 4
    | _, .hold => 3
    | _, .fall => 3
    | _, .peak _ => 2
    | _, .queued => 1
    | _, .off => 0

/-- STATUS (obj 0x2200 + n.03). -/
def State.valveStatus (s : State) (n : Fin 12) : Word :=
  let v := bget s.vd n
  wd (s.valveState n * 2 ^ 20 + v.lcause.toNat * 2 ^ 17 + b1 v.nopull * 2 ^ 16 + b1 v.norel * 2 ^ 15 + b1 v.elim * 2 ^ 14 +
    b1 v.batpk * 2 ^ 13 + b1 (!s.peakHold (bankOf n)) * 2 ^ 12 + b1 v.ol * 2 ^ 11 + b1 v.scg * 2 ^ 10 +
    b1 (s.adm.inh.getLsbD (valveCode n)) * 2 ^ 9 + b1 (bget s.adm.level (tgtFin (valveCode n))).isSome * 2 ^ 8 +
    b1 (s.isShed (valveCode n)) * 2 ^ 7 + b1 (s.sout == some (.valve n)) * 2 ^ 6 + b1 v.rsp * 2 ^ 5)

/-- The boost switch and the battery switch of a bank (R192, R205, R215). -/
def State.bankSwitches (s : State) (b : Fin 4) : Bool × Bool :=
  if !s.bankOn b || (bget s.vb b).latch || s.heldOff then (false, false)
  else match s.bankOwner b with
    | some n => if (bget s.vd n).bat then (false, true) else (true, false)
    | none => (false, true)

/-- Place c of a channel in its bank. -/
def inBank (n : Fin 12) : Nat := n.val % 3

/-- BSTATUS (obj 0x2210 + b.02). -/
def State.bankStatus (s : State) (b : Fin 4) : Word :=
  let k := bget s.vb b
  let q (i : Nat) : Nat := (k.queue[i]?.map inBank).getD 0
  let (bsw, bat) := s.bankSwitches b
  wd (((s.bankOwner b).map inBank).getD 0xF * 2 ^ 12 + k.queue.length * 2 ^ 10 + q 0 * 2 ^ 8 + q 1 * 2 ^ 6 + b1 bsw * 2 ^ 5 +
    b1 bat * 2 ^ 4 + b1 k.latch * 2 ^ 3 + b1 ((s.bankOwner b).any fun n => (bget s.vd n).bat) * 2 ^ 2)

/-! What other chapters call -/

/-- A shed of the channel's class switches it off (R212, R469). -/
def State.valveShed (s : State) (n : Fin 12) : State := s.valveOff n

/-- A channel's POLICY takes the place of its last command or edge action (R218, R219). -/
def State.valveTakePolicy (s : State) (n : Fin 12) : State :=
  let t := tgtFin (valveCode n)
  let e := s.valveSet n
  let s0 := (s.onAdm fun a => { a with edge := bset a.edge t none }).undefer (valveCode n)
  if e.pol = 1 then
    s0.onVd n fun v => { v with policy := .hold v.on (s.now + msT (100 * e.holdt)), cmd := false }
  else
    let s1 := s0.onVd n fun v => { v with policy := .off, cmd := false }
    if (bget s.adm.level t).isSome || !(bget s.vd n).stage.active then s1 else s1.valveOff n

/-- What SUP sets when IOP is asserted (R218); activations under way are no longer measured (R219). -/
def State.valvePolicy (s : State) (n : Fin 12) : State :=
  let s1 := (s.onVd n fun v => { v with rsp := true, unseen := v.unseen || v.stage.active }).valveTakePolicy n
  let pol := (bget s1.vd n).policy
  let keep (b : SafeBase Bool ValvePolicy) : SafeBase Bool ValvePolicy := { b with cmd := false, policy := pol, rsp := true, edge := none }
  s1.onVd n fun v => { v with base := v.base.map keep }

/-- A channel enters a safe state (R490): OFF switches it off under R197. -/
def State.valveSafe (s : State) (n : Fin 12) (mode : Nat) : State :=
  if mode = 0 then s.valveOff n
  else
    let v := bget s.vd n
    let t := tgtFin (valveCode n)
    let b : SafeBase Bool ValvePolicy := { cmd := v.cmd, policy := v.policy, rsp := v.rsp, edge := bget s.adm.edge t, edgeB := none }
    let s1 := s.onVd n fun q => { q with base := some b }
    if mode = 1 then (s1.onVd n fun q => { q with cmd := q.on, policy := .none }).onAdm fun a =>
      { a with edge := bset a.edge t none }
    else s1.valveTakePolicy n

/-- SREL at a channel (R492). -/
def State.valveUnsafe (s : State) (n : Fin 12) : State :=
  match (bget s.vd n).base with
  | none => s.valveFollow n
  | some b =>
    let p : ValvePolicy := match b.policy with | .hold w e => if e ≤ s.now then .off else .hold w e | q => q
    ((s.onVd n fun v => { v with cmd := b.cmd, policy := p, rsp := b.rsp, base := none }).onAdm fun a =>
      { a with edge := bset a.edge (tgtFin (valveCode n)) b.edge }).valveFollow n

/-- The end of a HOLD (R218). -/
def State.valveHoldEnd (s : State) (n : Fin 12) : State :=
  match (bget s.vd n).policy with
  | .hold _ e => ((s.at e).onVd n fun v => { v with policy := .off }).valveFollow n
  | _ => s

/-- The release of IOP reports a channel that its policy holds, or that speedwell started meanwhile (R219). -/
def State.valveReport (s : State) (n : Fin 12) : State :=
  let v := bget s.vd n
  let held := match v.policy with | .hold _ _ => v.on | _ => false
  (if held || v.spwReset then s.valveEvent 3 n 0 false v.fb (s.valveSet n).pol 0 0 else s).onVd n fun v => { v with spwReset := false }

/-- A bank that a commit disables switches its channels off (obj 0x2210 + b.01). -/
def State.bankFollow (s : State) (b : Fin 4) : State :=
  if s.bankOn b then (allFin 3).foldl (fun st c => st.valveFollow (valveIn b c)) s
  else (allFin 3).foldl (fun st c => st.valveOff (valveIn b c)) s

end Sys2Proof.Machine
end

