-- ==== Sys2Proof/Machine/Light.lean ====
section
/-!
DEFINITION. LED sinks, the driver chain and the matrix (R224 to R252).
-/
namespace Sys2Proof.Machine

def sinkIdx (n : Fin 24) : Nat := 0x2400 + n.val
def chainIdx : Nat := 0x2420
def matrixIdx : Nat := 0x2430
def sinkCode (n : Fin 24) : Nat := 0x80 + n.val

def State.onSink (s : State) (n : Fin 24) (f : Sink → Sink) : State := { s with sinks := bmod s.sinks n f }
def State.onChain (s : State) (f : Chain → Chain) : State := { s with chain := f s.chain }
def State.onMatrix (s : State) (f : Matrix → Matrix) : State := { s with matrix := f s.matrix }

/-! From level to light (R226 to R228) -/

/-- a ÷ b rounded to the nearest integer. -/
def roundDiv (a : Int) (b : Nat) : Int :=
  if (2 * a + b) % (2 * b) = 0 && Config.tieDown a b then (2 * a + b) / (2 * b) - 1 else (2 * a + b) / (2 * b)

/-- n lies at or below 65 535 × 2^(−16 k ÷ 65 535) + 1/2, in whole numbers. -/
def logBelow (k n : Nat) : Bool := decide ((2 * n - 1) ^ 65535 * 2 ^ (16 * k) ≤ 131070 ^ 65535)

/-- The largest n with `logBelow k n`, by its bits from the top. -/
def logSearch (k : Nat) : Nat → Nat → Nat
  | 0, acc => acc
  | b + 1, acc => if logBelow k (acc + 2 ^ b) then logSearch k b (acc + 2 ^ b) else logSearch k b acc

/-- The logarithmic curve of R226. -/
def logCurve (x : Nat) : Nat := if x = 0 then 0 else logSearch (65535 - x) 16 0

/-- The gamma curve of R227 over a table. -/
def gammaCurve (t : List Word) (x : Nat) : Nat :=
  let i := x * 63 / 65535
  let g (j : Nat) : Nat := (t.getD j 0).toNat % 65536
  if i = 63 then g 63 else g i + (g (i + 1) - g i) * (63 * x - 65535 * i) / 65535

/-- The curve of a sink or of the chain. -/
def curveOf (sel : Nat) (table : List Word) (x : Nat) : Nat :=
  if sel = 0 then x else if sel = 1 then logCurve x else gammaCurve table x

/-- L of a level, before derating. -/
def State.sinkL (s : State) (n : Fin 24) (x : Nat) : Nat := curveOf (s.cfg (sinkIdx n) 8) (s.obj (sinkIdx n) 0x0E) x

/-- L in force (R228, R230, R477). -/
def State.sinkDuty (s : State) (n : Fin 24) : Nat := s.sinkL n (bget s.sinks n).x * s.factor (sinkCode n) / 255

/-- The dimming period in ticks (R228). -/
def State.sinkPeriod (s : State) (n : Fin 24) : Nat := 100000000 / Nat.max 1 (s.cfg (sinkIdx n) 7)

/-- What an L is charged (R230, R475). -/
def State.sinkCharge (s : State) (n : Fin 24) (l : Nat) : Charge :=
  let i := s.cfg (sinkIdx n) 6
  { code := sinkCode n, na := i * l * 1000000 / 65535, nw := i * s.cfg (sinkIdx n) 9 * 1000 * l / 65535, derat := true }

/-- What holds a sink off whatever its level: ground loss, PARK, over-voltage, an OFF safe state (R473, R482, R490). -/
def State.sinkHeld (s : State) (n : Fin 24) : Bool := s.heldOff || s.sup.ov || s.safeOff (sinkCode n)

/-- The sink conducts now. -/
def State.sinkLit (s : State) (n : Fin 24) : Bool :=
  let k := bget s.sinks n
  s.iop && k.lcause = 0 && !s.sinkHeld n && k.lastBnd.any fun b => s.now < b + k.onTicks

/-! Level commands -/

/-- A fade to a level over F ms (R229); the level in force becomes the start. -/
def State.sinkFade (s : State) (n : Fin 24) (goal ms : Nat) : State :=
  let freq := s.cfg (sinkIdx n) 7
  s.onSink n fun k => { k with x0 := k.x, goal := goal, k := 0, steps := Nat.max 1 ((ms * freq + 999) / 1000) }

/-- The sink is dark at level 0: the fade, the charge and a deferral end. -/
def State.sinkDark (s : State) (n : Fin 24) : State :=
  ((s.onSink n fun k => { k with x := 0, x0 := 0, goal := 0, k := 0, steps := 0, onTicks := 0 }).uncharge (sinkCode n)).undefer (sinkCode n)

/-- A sink takes a level (R229, R230, R235): a rise over the L in force, which derating lowers, is an energisation; a deferral stops the fade at the level in force. -/
def State.sinkApply (s : State) (n : Fin 24) (x ms : Nat) : Verdict × State :=
  let k := bget s.sinks n
  let l := s.sinkL n x
  if l ≤ s.sinkDuty n then
    let s1 := s.undefer (sinkCode n)
    (.admitted, (if l = 0 then s1.uncharge (sinkCode n) else s1.recharge (s1.sinkCharge n l)).sinkFade n x ms)
  else if s.isShed (sinkCode n) then s.refuseEnerg (sinkCode n) 0x0F 0x03
  else if k.lcause != 0 then s.refuseEnerg (sinkCode n) 0x10 (loadBlock (sinkCode n))
  else if s.sinkHeld n then (.admitted, s)
  else match s.energise (s.sinkCharge n l) (x + 65536 * ms) false with
    | (.admitted, s1) => (.admitted, s1.sinkFade n x ms)
    | (.deferred, s1) => (.deferred, s1.onSink n fun k => { k with goal := k.x, steps := 0 })
    | r => r

/-- A deferred rise is carried out (R101). -/
def State.sinkUndefer (s : State) (n : Fin 24) (v : Nat) : State := s.sinkFade n (v % 65536) (v / 65536)

/-- A LEVEL command (R229): a refused one leaves the last accepted x* as it was; in a KEEP safe state it does not act (R491). -/
def State.sinkCommand (s : State) (n : Fin 24) (x ms : Nat) : Code × State :=
  if s.safeOf (sinkCode n) = some 1 then (okc, s.onSink n fun k => { k with last := x })
  else match s.sinkApply n x ms with
  | (.refused r b, s1) => (Verdict.code (.refused r b), s1)
  | (v, s1) => (v.code, s1.onSink n fun k => { k with last := x })

/-- A clear (R233): level 0, latch cleared.  Under LCAUSE 2 it is refused while the sink is at or above 150 °C. -/
def State.sinkClear (s : State) (n : Fin 24) : Code × State :=
  let k := bget s.sinks n
  if k.lcause = 2 && k.hot then ((0x07, 0), s)
  else (okc, (s.sinkDark n).onSink n fun k => { k with lcause := 0, last := 0 })

/-- A sink command by word or by object (R231, R232). -/
def sinkDo (v : Via) (n : Fin 24) (sub : Nat) (val : Val) (f : State → Code × State) (s : State) : State :=
  match v with
  | .word => if s.iop then (f s).2 else s
  | .object r => s.objCmd r (sinkIdx n) sub val f

/-- LED_NOP (R231). -/
def execLedNop (_n : Fin 24) (s : State) : Host.Outcome State Fault Refusal := .next s

/-- A sink command word is valid (R231, R232). -/
def sinkWordOk (w : Word) : Bool :=
  let op := fld w 35 32
  op ≤ 2 && fld w 31 27 < 24 && (op = 1 || (fld w 26 16 = 0 && fld w 15 0 = 0))

/-- Acts on one command word of the queue of block 0x40 (R231, R232). -/
def sinkWord (w : Word) (s : State) : State :=
  if !s.iop then s
  else if !sinkWordOk w then s.raise 0x40 25
  else
    let n : Fin 24 := Fin.ofNat 24 (fld w 31 27)
    match fld w 35 32 with
    | 1 => sinkDo .word n 1 [] (fun st => st.sinkCommand n (fld w 15 0) (10 * fld w 26 16)) s
    | 2 => sinkDo .word n 3 [] (fun st => st.sinkClear n) s
    | _ => s

/-- LED_LEVEL (R229, R232): the fade of a word is in 10 ms; a write of LEVEL takes its fade from subindex 0x02. -/
def execLedLevel (v : Via) (n : Fin 24) (x fade : BitVec 16) (s : State) : Host.Outcome State Fault Refusal :=
  match v with
  | .word => .next (sinkWord (wd (2 ^ 32 + n.val * 2 ^ 27 + fade.toNat % 2048 * 2 ^ 16 + x.toNat)) s)
  | .object _ => .next (sinkDo v n 1 [wd x.toNat] (fun st => st.sinkCommand n x.toNat (st.cfg (sinkIdx n) 2)) s)

/-- LED_CLEAR_LATCH (R233). -/
def execLedClearLatch (v : Via) (n : Fin 24) (s : State) : Host.Outcome State Fault Refusal :=
  .next (sinkDo v n 3 [1] (fun st => st.sinkClear n) s)

/-- LED_MALFORMED_WORD (R232). -/
def execLedMalformedWord (w : Word) (s : State) : Host.Outcome State Fault Refusal :=
  .next (if sinkWordOk w then s else sinkWord w s)

/-- The level at the k-th boundary of a fade (R229). -/
def fadeLevel (x0 goal k n : Nat) : Nat := ((x0 : Int) + roundDiv (((goal : Int) - x0) * k) n).toNat

/-- LED_PERIOD_BOUNDARY (R61, R228, R229, R233, R237): an on-phase of the period before that reached the current ends OL; a pending commit of the
sink's bundle, the next fade step, and the on-time with its carried remainder. -/
def execLedPeriodBoundary (n : Fin 24) (s : State) (reached : Bool := true) : Host.Outcome State Fault Refusal :=
  let p := s.sinkPeriod n
  let t := match (bget s.sinks n).lastBnd with
    | some b => Nat.max (b + 1) s.now
    | none => s.now
  let b := gridFrom p (n.val * p / 24) t
  let shone := reached && s.iop && (bget s.sinks n).lcause = 0 && !s.sinkHeld n && (bget s.sinks n).onTicks != 0
  let s1 := ((s.at b).onSink n fun k => { k with ol := k.ol && !shone }).applyOwned (sinkIdx n)
  let s2 := s1.onSink n fun k =>
    if k.steps = 0 then { k with lastBnd := some b }
    else if k.k + 1 = k.steps then { k with lastBnd := some b, x := k.goal, x0 := k.goal, k := 0, steps := 0 }
    else { k with lastBnd := some b, k := k.k + 1, x := fadeLevel k.x0 k.goal (k.k + 1) k.steps }
  let p2 := s2.sinkPeriod n
  let on := p2 * s2.sinkDuty n + (bget s2.sinks n).rem
  .next (if s.iop then s2.onSink n fun k => { k with onTicks := on / 65535, rem := on % 65535 } else s1)

/-! Protection (R233) -/

/-- A sink latches: dark, the first cause stands, kind n is raised (R132, R233). -/
def State.sinkLatch (s : State) (n : Fin 24) (cause : BitVec 2) : State :=
  ((s.sinkDark n).onSink n fun k => { k with lcause := if k.lcause = 0 then cause else k.lcause }).raise 0x40 n.val

/-- LED_OPEN_STRING: the sink keeps running. -/
def execLedOpenString (n : Fin 24) (s : State) : Host.Outcome State Fault Refusal :=
  let k := bget s.sinks n
  if s.sinkLit n then .next ((s.onSink n fun k => { k with ol := true }).raiseIf (!k.ol) 0x40 n.val) else .next s

/-- LED_STRING_SHORT: on-phases shorter than 50 µs are never tested. -/
def execLedStringShort (n : Fin 24) (s : State) : Host.Outcome State Fault Refusal :=
  if s.sinkLit n && usT 50 ≤ (bget s.sinks n).onTicks then .next (s.sinkLatch n 1) else .next s

/-- LED_THERMAL_SHUTDOWN. -/
def execLedThermalShutdown (n : Fin 24) (s : State) : Host.Outcome State Fault Refusal :=
  if s.sinkLit n then .next ((s.sinkLatch n 2).onSink n fun k => { k with hot := true }) else .next s

/-- Which sinks are found at or above 150 °C. -/
def State.sinksHot (s : State) (m : BitVec 24) : State := { s with sinks := ball s.sinks fun n k => { k with hot := m.getLsbD n.val } }

/-! Shed classes (R235, R240, R249) -/

/-- A sink's class is shed: a level above SHEDLVL fades to it over 500 ms. -/
def State.sinkShed (s : State) (n : Fin 24) : State :=
  let lvl := s.cfg (sinkIdx n) 0x0B
  let s1 := (s.undefer (sinkCode n)).onSink n fun k => { k with shedAt := some s.now }
  if lvl < (bget s.sinks n).last && !s.sinkHeld n then
    (if (bget s.sinks n).x ≤ lvl then s1 else s1.recharge (s1.sinkCharge n (s1.sinkL n lvl))).sinkFade n (Nat.min lvl (bget s.sinks n).last) 500
  else s1

/-- A sink's class is restored: it fades back over 500 ms to the last x* it accepted, as an energisation. -/
def State.sinkFollow (s : State) (n : Fin 24) : State :=
  let s1 := s.onSink n fun k => { k with shedAt := none, shoff := false }
  if s.isShed (sinkCode n) then s
  else if (bget s1.sinks n).lcause != 0 then s1
  else (s1.sinkApply n (bget s1.sinks n).last 500).2

/-- What a SHED_OFF_TIMEOUT finds: the end of SHEDT, CSHEDT or MSHEDT. -/
def shedEnd (since : Option Nat) (off : Bool) (secs : Nat) : Option Nat := if off then none else since.map (· + secT secs)

/-- The earliest of some times. -/
def earliest (l : List (Option Nat)) : Option Nat :=
  l.foldl (fun a o => match a, o with | some x, some y => some (Nat.min x y) | none, o => o | a, none => a) none

/-- Block 0x40 stops (R236): sinks off, no latch; how long a class has been shed, and how hot a sink is, do not change by it. -/
def State.sinksStop (s : State) : State :=
  { s with sinks := ball s.sinks fun _ k => { Sink.reset with shedAt := k.shedAt, hot := k.hot } }

/-- Block 0x41 stops (R241, R249): the store is cleared, the external drivers keep what they last latched, scanning begins anew from buffer 0. -/
def State.chainStop (s : State) : State :=
  { s with chain := { Chain.reset with sent := s.chain.sent, shedAt := s.chain.shedAt }
           matrix := { Matrix.reset with shedAt := s.matrix.shedAt } }

/-- SHED_OFF_TIMEOUT. -/
def execShedOffTimeout (what : ShedLight) (s : State) : Host.Outcome State Fault Refusal :=
  match what with
  | .sinks cls =>
    let due (st : State) (n : Fin 24) : Option Nat :=
      if st.classOf (sinkCode n) = cls then shedEnd (bget st.sinks n).shedAt (bget st.sinks n).shoff (st.cfg (sinkIdx n) 0x0C) else none
    match earliest ((allFin 24).map (due s)) with
    | none => .next s
    | some t =>
      let s1 := s.at t
      .next ((allFin 24).foldl (fun st n => match due st n with
        | some e => if e ≤ st.now then ((st.uncharge (sinkCode n)).sinkFade n 0 500).onSink n fun k => { k with shoff := true } else st
        | none => st) s1)
  | .chain => match shedEnd s.chain.shedAt s.chain.shoff (s.cfg chainIdx 8) with
    | some t => .next ((s.at t).onChain fun c => { c with shoff := true })
    | none => .next s
  | .matrix => match shedEnd s.matrix.shedAt s.matrix.shoff (s.cfg matrixIdx 0x0E) with
    | some t => .next ((s.at t).onMatrix fun m => { m with shoff := true })
    | none => .next s

/-- The chain's or the matrix's class is shed, or restored. -/
def State.chainShed (s : State) : State := s.onChain fun c => { c with shedAt := some s.now }
def State.chainRestore (s : State) : State := s.onChain fun c => { c with shedAt := none, shoff := false }
def State.matrixShed (s : State) : State := s.onMatrix fun m => { m with shedAt := some s.now }
def State.matrixRestore (s : State) : State := s.onMatrix fun m => { m with shedAt := none, shoff := false }

/-! The driver chain (R238 to R243) -/

/-- The scale S of R240, or zeros under an OFF safe state (R490). -/
def State.chainScale (s : State) : Nat :=
  if s.chain.shoff || s.safeOff 0x98 then 0 else if s.isShed 0x98 then s.cfg chainIdx 7 else 255

/-- A word as it leaves the store (R240). -/
def State.chainOut (s : State) (v : BitVec 16) : BitVec 16 :=
  BitVec.ofNat 16 (curveOf (s.cfg chainIdx 6) (s.obj chainIdx 0x0B) v.toNat * s.chainScale / 255)

/-- Ticks of an LCHC period, in quarters (R238). -/
def lchcQuarters (cclk : Nat) : Nat := [400, 160, 80, 40, 16].getD cclk 80

/-- How long a refresh shifts: 256 clocks a driver, and the latch (R238, R243). -/
def State.chainTicks (s : State) : Nat := ((256 * s.cfg chainIdx 2 + 5) * lchcQuarters (s.cfg chainIdx 3) + 3) / 4

/-- A pin's level: driven low, driven high, or not driven. -/
inductive Pin where
  | low | high | float
  deriving DecidableEq, Repr

/-- A driven pin. -/
def Pin.drive (b : Bool) : Pin := if b then .high else .low

/-- LCHD, LCHC and LCHL (R238). -/
structure ChainPins where
  lchd : Pin
  lchc : Pin
  lchl : Pin
  deriving DecidableEq, Repr

/-- Bit i of a refresh: the words of channels 16 × CHN − 1 down to 0, each most significant bit first (R238). -/
def chainBit (sent : List (BitVec 16)) (i : Nat) : Bool := (sent.getD (sent.length - 1 - i / 16) 0).getLsbD (15 - i % 16)

/-- The chain's outputs now (R238, R241).  A bit stands from one falling edge of LCHC to the next, with the rising edge half-way (log 25); LCHL is
high for 4 periods from one period after the last rising edge; LCHC idles low; between refreshes LCHD is left open. -/
def State.chainPins (s : State) : ChainPins :=
  if !s.iop then { lchd := .float, lchc := .float, lchl := .float }
  else
    let c := s.chain
    let p := lchcQuarters (s.cfg chainIdx 3) / 4
    let bits := 16 * c.sent.length
    let t := s.now - (c.shiftEnds - s.chainTicks)
    if c.shiftEnds ≤ s.now || p = 0 then { lchd := .drive (Config.idleLevel 0 s.now), lchc := .low, lchl := .low }
    else
      { lchd := .drive (if t / p < bits then chainBit c.sent (t / p) else Config.idleLevel 0 s.now)
        lchc := .drive (t / p < bits && p ≤ 2 * (t % p))
        lchl := .drive ((2 * bits + 1) * p ≤ 2 * t && 2 * t < (2 * bits + 9) * p) }

/-- Requests an image copy at the next refresh (R239). -/
def State.chainGo (s : State) : State := s.onChain fun c => { c with cgo := true }

/-- A chain or matrix command by word or by object (R242). -/
def lightDo (v : Via) (idx sub : Nat) (val : Val) (f : State → State) (s : State) : State :=
  match v with
  | .word => if s.iop then f s else s
  | .object r => s.objCmd r idx sub val fun t => (okc, f t)

/-- CHAIN_SET_CGO (R239). -/
def execChainSetCgo (v : Via) (s : State) : Host.Outcome State Fault Refusal := .next (lightDo v chainIdx 9 [1] State.chainGo s)

/-- The image copy of a refresh start (R239); `ok` is false where it received a memory error. -/
def State.chainCopy (s : State) (ok : Bool) : State :=
  if !s.chain.cgo then s
  else if ok then
    let image := (memReadN s.mem (s.cfg chainIdx 5) (16 * s.cfg chainIdx 2)).map fun w => w.truncate 16
    s.onChain fun c => { c with cgo := false, cerr := false, store := some image }
  else (s.onChain fun c => { c with cerr := true }).raise 0x41 3

/-- CHAIN_REFRESH (R239, R241, R243): a pending commit of obj 0x2420 applies and sets CGO; a copy; the shift. -/
def execChainRefresh (ok : Bool) (s : State) : Host.Outcome State Fault Refusal :=
  let t := match s.chain.lastAt with
    | some b => Nat.max (b + 1) s.now
    | none => s.now
  let b := gridFrom (msT (s.cfg chainIdx 4)) 0 t
  let s1 := (s.at b).onChain fun c => { c with lastAt := some b }
  let pend := s1.srv.commits.any fun c => c.checked && c.strobed && c.indices.contains chainIdx
  let s2 := if pend then (s1.applyOwned chainIdx).chainGo else s1
  if !s.iop then .next s
  else if !s2.cfgB chainIdx 1 then .next s2
  else
    let s3 := s2.chainCopy ok
    .next (match s3.chain.store with
      | none => s3
      | some l => s3.onChain fun c => { c with sent := if s3.safeOf 0x98 = some 1 then c.sent else l.map s3.chainOut, shiftEnds := s3.now + s3.chainTicks, refresh := satInc c.refresh })

/-- CHAIN_NOP (R242). -/
def execChainNop (s : State) : Host.Outcome State Fault Refusal := .next s

/-- A chain and matrix command word is valid (R242). -/
def lightWordOk (w : Word) : Bool := fld w 35 32 ≤ 2 && fld w 31 1 = 0 && (fld w 35 32 = 2 || fld w 0 0 = 0)

/-- CSTAT (obj 0x2420.0C). -/
def State.cstat (s : State) : Word :=
  wd (b1 s.chain.cgo * 32 + b1 (s.now < s.chain.shiftEnds) * 16 + b1 (s.isShed 0x98) * 8 + b1 s.chain.shoff * 4 + b1 s.chain.cerr * 2)

/-! The matrix (R244 to R250) -/

/-- The buffer to show from the next frame start (R247). -/
def State.matrixShow (s : State) (b : Bool) : State :=
  (s.setObj matrixIdx 0x0F [wd (b1 b)]).onMatrix fun m => { m with pend := if b = m.shown then none else some b }

/-- MATRIX_SHOW (R242, R247): a buffer other than 0 or 1 is refused with 0x07; the word names it in one bit. -/
def execMatrixShow (v : Via) (buf : BitVec 8) (s : State) : Host.Outcome State Fault Refusal :=
  .next (lightDo v matrixIdx 0x0F [wd buf.toNat] (fun t => t.matrixShow (buf.getLsbD 0)) s)

/-- Acts on one command word of the queue of block 0x41 (R242). -/
def lightWord (w : Word) (s : State) : State :=
  if !s.iop then s
  else if !lightWordOk w then s.raise 0x41 4
  else match fld w 35 32 with
    | 1 => s.chainGo
    | 2 => s.matrixShow (fld w 0 0 = 1)
    | _ => s

/-- CHAIN_MALFORMED_WORD (R242). -/
def execChainMalformedWord (w : Word) (s : State) : Host.Outcome State Fault Refusal :=
  .next (if lightWordOk w then s else lightWord w s)

/-- The times of R246 in ticks. -/
structure MatrixTimes where
  lead : Nat                       -- t_sh + 0.2 µs
  row  : Nat                       -- t_row
  rows : Nat
  deriving DecidableEq, Repr

/-- An MCC period in ticks (obj 0x2430.05). -/
def mccTicks (clk : Nat) : Nat := [16, 8, 4].getD clk 4

/-- t_sh in ticks (R246). -/
def shiftTicks (cols clk : Nat) : Nat := (cols + 3) / 4 * mccTicks clk

/-- s_k in ticks (R246). -/
def slotTicks (tsh unit k : Nat) : Nat := Nat.max (2 ^ k * unit * 10) (tsh + 20)

/-- R246 over a set of settings: columns, bits, clock, unit, rows. -/
def matrixTimes (cols bits clk unit rows : Nat) : MatrixTimes :=
  let tsh := shiftTicks cols clk
  { lead := tsh + 20, row := ((List.range bits).map (slotTicks tsh unit)).sum + 100, rows := rows }

/-- t_f (R246). -/
def MatrixTimes.frame (t : MatrixTimes) : Nat := t.lead + t.rows * t.row

def State.mtimes (s : State) : MatrixTimes :=
  matrixTimes (s.cfg matrixIdx 3) (s.cfg matrixIdx 4) (s.cfg matrixIdx 5) (s.cfg matrixIdx 6) (s.cfg matrixIdx 2)

/-- MFP in ticks. -/
def State.mfp (s : State) : Nat := hundredUs (s.cfg matrixIdx 7)

/-- FSMODE.MODE. -/
def State.fsync (s : State) : Bool := s.cfg matrixIdx 0x0A % 2 = 1

/-- A frame starts now (R245, R247, R248, R250): a pending commit and MDIM take effect, a pending buffer is shown, bad rows are
blanked.  Where the commit ends the scanning, no frame follows. -/
def State.frameStart (s : State) (badRows : List Nat) : State :=
  let s1 := (s.applyOwned matrixIdx).applyPer matrixIdx
  if !s1.cfgB matrixIdx 1 then s1 else
  let bad := badRows.filter (· < s1.cfg matrixIdx 2)
  let keep := s1.safeOf 0x99 = some 1
  let s2 := s1.onMatrix fun m =>
    { m with shown := if keep then m.shown else m.pend.getD m.shown, pend := if keep then m.pend else none, start := some s.now, ends := s.now + s1.mtimes.frame, blank := bad,
             perr := m.perr || !bad.isEmpty, mdim := s1.cfg matrixIdx 0x0C, frames := satInc m.frames }
  s2.raiseIf (!bad.isEmpty) 0x41 2

/-- When the next frame starts on its grid (R248). -/
def State.nextFrame (s : State) : Option Nat :=
  let t := match s.matrix.start with
    | some b => Nat.max (b + 1) s.now
    | none => s.now
  if s.fsync then s.matrix.edge.map fun e => gridFrom s.mfp e t else some (gridFrom s.mfp 0 t)

/-- MATRIX_FRAME_START (R248). -/
def execMatrixFrameStart (badRows : List Nat) (s : State) : Host.Outcome State Fault Refusal :=
  if !s.iop || !s.cfgB matrixIdx 1 then .next s
  else match s.nextFrame with
    | some t => .next ((s.at t).frameStart badRows)
    | none => .next s

/-- The end of the row that is being scanned at time t (R246, R248). -/
def rowEnd (m : MatrixTimes) (start t : Nat) : Nat :=
  if t < start + m.lead then start + m.lead + m.row else start + m.lead + ((t - start - m.lead) / m.row + 1) * m.row

/-- FSYNC_EDGE (R248): idle, or within 1 µs of a scheduled start, a frame starts; in a scan the row in progress finishes, the rest is
abandoned and a new frame starts; `badRows` are its rows with parity errors. -/
def execFsyncEdge (s : State) (badRows : List Nat := []) : Host.Outcome State Fault Refusal :=
  if !s.iop || !s.cfgB matrixIdx 1 || !s.fsync then .next s
  else
    let s1 := s.onMatrix fun m => { m with edge := some s.now, watch := s.now, fslost := false }
    match s.matrix.start with
    | some b =>
      if s.now < b + usT 1 then .next s1
      else if s.now < s.matrix.ends then
        let s2 := s1.at (rowEnd s.mtimes b s.now)
        .next (((s2.onMatrix fun m => { m with slips := satInc m.slips }).raise 0x41 1).frameStart badRows)
      else .next (s1.frameStart badRows)
    | none => .next (s1.frameStart badRows)

/-- FSYNC_LOST (R248). -/
def execFsyncLost (s : State) : Host.Outcome State Fault Refusal :=
  if !s.iop || !s.cfgB matrixIdx 1 || !s.fsync || s.matrix.fslost then .next s
  else .next (((s.at (s.matrix.watch + msT (s.cfg matrixIdx 0x0B))).onMatrix fun m => { m with fslost := true }).raise 0x41 0)

/-- The brightness that acts (R249). -/
def State.mdim (s : State) : Nat := if s.isShed 0x99 then Nat.min s.matrix.mdim (s.cfg matrixIdx 0x0D) else s.matrix.mdim

/-- MOEN is held high: no scan, blanked by a shed, a safe state or a hold (R246, R249, R490). -/
def State.moenHigh (s : State) : Bool :=
  s.matrix.shoff || s.safeOff 0x99 || s.heldOff || !(s.now < s.matrix.ends)

/-- Words per row (R245). -/
def matrixWpr (bits cols : Nat) : Nat := if bits = 4 then (cols + 8) / 9 else (cols + 3) / 4

/-- Pixel j of row r of the buffer shown (R32, R245). -/
def State.pixel (s : State) (r j : Nat) : Nat :=
  let bits := s.cfg matrixIdx 4
  let row := s.cfg matrixIdx (if s.matrix.shown then 9 else 8) + r * matrixWpr bits (s.cfg matrixIdx 3)
  if bits = 4 then (memRead s.mem (row + j / 9)).toNat / 2 ^ (32 - 4 * (j % 9)) % 16
  else ((wordOcts (memRead s.mem (row + j / 4))).getD (j % 4) (false, 0)).2.toNat

/-- Lane l at clock m of the shift of plane k of row r (R244). -/
def State.laneBit (s : State) (r k m l : Nat) : Bool :=
  let cols := s.cfg matrixIdx 3
  let j := 4 * ((cols + 3) / 4 - 1 - m) + l
  j < cols && s.pixel r j / 2 ^ k % 2 = 1

/-- A slot of a scan: how long ago it began, the row and plane shown in it, if any, and the row and plane shifted in it, if any. -/
structure MatrixSlot where
  since : Nat
  shows : Option (Nat × Nat)
  loads : Option (Nat × Nat)
  deriving DecidableEq, Repr

/-- The slot of row r in which a time t into the row lies: planes from `k` − 1 down to 0, then the 1 µs blank (R246).  While a plane is shown the next
one is shifted, after plane 0 the first of the next row. -/
def rowSlot (tsh unit bits rows r : Nat) : Nat → Nat → MatrixSlot
  | 0, t => { since := t, shows := none, loads := none }
  | k + 1, t =>
    if t < slotTicks tsh unit k then
      { since := t, shows := some (r, k)
        loads := if 0 < k then some (r, k - 1) else if r + 1 < rows then some (r + 1, bits - 1) else none }
    else rowSlot tsh unit bits rows r k (t - slotTicks tsh unit k)

/-- Where the scan stands now; `none` outside a scan (R246). -/
def State.matrixSlot (s : State) : Option MatrixSlot :=
  match s.matrix.start with
  | none => none
  | some b =>
    let e := s.mtimes
    let bits := s.cfg matrixIdx 4
    if s.matrix.ends ≤ s.now then none
    else if s.now < b + e.lead then some { since := s.now - b, shows := none, loads := some (0, bits - 1) }
    else
      let t := s.now - b - e.lead
      some (rowSlot (shiftTicks (s.cfg matrixIdx 3) (s.cfg matrixIdx 5)) (s.cfg matrixIdx 6) bits e.rows (t / e.row) bits (t % e.row))

/-- MOEN is low: plane k is lit for floor(2^k × t_u × MDIM ÷ 255) from the start of its slot, in ticks; a row with a parity error is not (R245, R246). -/
def State.moenLow (s : State) : Bool :=
  !s.moenHigh && (match s.matrixSlot.bind fun x => x.shows.map fun p => (x.since, p) with
    | some (t, r, k) => t < 2 ^ k * s.cfg matrixIdx 6 * 10 * s.mdim / 255 && !s.matrix.blank.contains r
    | none => false)

/-- The row address: the row in progress, that of the next row from the middle of the blank on (R244, R252, log 25). -/
def State.rowAddress (s : State) : Option Nat :=
  match s.matrix.start with
  | none => none
  | some b =>
    let e := s.mtimes
    let t := s.now - b - e.lead
    if s.matrix.ends ≤ s.now then none
    else if s.now < b + e.lead then some 0
    else some (Nat.min (e.rows - 1) ((t + 50) / e.row))

/-- The matrix outputs (R244). -/
structure MatrixPins where
  mcd  : List Pin                  -- MCD0 to MCD3
  mcc  : Pin
  mcl  : Pin
  moen : Pin
  mra  : List Pin                  -- MRA0 to MRA6
  deriving DecidableEq, Repr

/-- The matrix outputs now (R244, R246, R249).  In a slot MCL pulses for one MCC period at its start, where a plane is shown; the shift of the next
plane takes the last t_sh of the least slot, from 0.2 µs after the slot began, with the rising edge of MCC half-way through each period (log 25).
What lanes and row outputs carry while nothing is shifted or scanned is left open. -/
def State.matrixPins (s : State) : MatrixPins :=
  if !s.iop then { mcd := List.replicate 4 .float, mcc := .float, mcl := .float, moen := .float, mra := List.replicate 7 .float }
  else
    let p := mccTicks (s.cfg matrixIdx 5)
    let n := (s.cfg matrixIdx 3 + 3) / 4
    let idle (l : Nat) : Pin := .drive (Config.idleLevel (1 + l) s.now)
    let shift : Option (Nat × Nat × Nat) := s.matrixSlot.bind fun x =>
      if 20 ≤ x.since && x.since - 20 < n * p then x.loads.map fun q => (x.since - 20, q) else none
    { mcd := (List.range 4).map fun l => match shift with
        | some (t, r, k) => .drive (s.laneBit r k (t / p) l)
        | none => idle l
      mcc := match shift with
        | some (t, _) => .drive (p ≤ 2 * (t % p))
        | none => .low
      mcl := .drive (s.matrixSlot.any fun x => x.shows.isSome && x.since < p)
      moen := .drive (!s.moenLow)
      mra := (List.range 7).map fun i => match s.rowAddress with
        | some r => .drive (r / 2 ^ i % 2 = 1)
        | none => idle (4 + i) }

/-- MSTAT (obj 0x2430.10). -/
def State.mstat (s : State) : Word :=
  let m := s.matrix
  wd (b1 m.shown * 128 + b1 m.pend.isSome * 64 + b1 (s.now < m.ends) * 32 + b1 m.fslost * 16 + b1 (s.isShed 0x99) * 8 + b1 m.shoff * 4 +
    b1 m.perr * 2)

/-! Sense and status of the sinks -/

/-- The sense word of a sink (R234). -/
def State.sinkSense (s : State) (n : Fin 24) : BitVec 12 :=
  let k := bget s.sinks n
  if k.lcause = 1 then 0xF01
  else if k.lcause = 2 then 0xF03
  else if k.chkBad || s.adcFail (.sink n) then 0xF07
  else if k.ol then 0xF04
  else if !s.isPlaced (.sink n) then 0xF0F
  else if s.sinkDuty n = 0 || s.sinkHeld n then 0 else k.code

/-- One sense sample of a sink (R233, R234): on-phases shorter than 20 µs keep the last value; a current of half ISET ends OL. -/
def State.sinkSample (s : State) (n : Fin 24) (code : BitVec 12) (checkOk : Bool) : State :=
  let k := bget s.sinks n
  if !s.isPlaced (.sink n) || !s.sinkLit n || k.onTicks < usT 20 then s
  else
    let c := k.samples + 1
    let bad := if c % 256 = 0 then !checkOk else k.chkBad
    let flows := s.cfg (sinkIdx n) 6 * 500 ≤ (clipCode code).toNat * 40
    let s1 := s.onSink n fun k => { k with code := clipCode code, samples := c, chkBad := bad, ol := k.ol && !flows }
    s1.raiseIf (c % 256 = 0 && !checkOk) 0x40 24

/-- STATE of STATUS: the highest condition that holds. -/
def State.sinkState (s : State) (n : Fin 24) : Nat :=
  let k := bget s.sinks n
  if k.lcause != 0 then 4
  else if s.isDeferred (sinkCode n) then 5
  else if k.steps != 0 then 3
  else if s.sinkDuty n = 0 || s.sinkHeld n then 0
  else if s.sinkDuty n = 65535 then 1 else 2

/-- STATUS (obj 0x2400 + n.04). -/
def State.sinkStatus (s : State) (n : Fin 24) : Word :=
  let k := bget s.sinks n
  wd (s.sinkState n * 2 ^ 20 + k.lcause.toNat * 2 ^ 18 + b1 k.ol * 2 ^ 17 + b1 (k.x != 0 && s.factor (sinkCode n) != 255) * 2 ^ 16 +
    b1 (s.isShed (sinkCode n)) * 2 ^ 15 + b1 k.shoff * 2 ^ 14 + b1 (s.sout == some (.sink n)) * 2 ^ 13)

end Sys2Proof.Machine
end

