-- ==== Sys2Proof/Machine/Inputs.lean ====
section
/-!
DEFINITION. Switch inputs, configurable pins, analog inputs and the ADC schedule (R348 to R373).
-/
namespace Sys2Proof.Machine

def ioIdx (n : Fin 16) : Nat := 0x2340 + n.val
def anIdx (n : Fin 16) : Nat := 0x2360 + n.val
def ioCode (n : Fin 16) : Nat := 0x9A + n.val

def State.onIn (s : State) (i : Fin 80) (f : Input → Input) : State := { s with inputs := bmod s.inputs i f }
def State.onIo (s : State) (n : Fin 16) (f : IoPin → IoPin) : State := { s with ios := bmod s.ios n f }
def State.onAn (s : State) (n : Fin 16) (f : Analog → Analog) : State := { s with ans := bmod s.ans n f }
def State.onAdc (s : State) (f : AdcState → AdcState) : State := { s with adc := f s.adc }

def pwrIdx : Nat := 0x1200
def State.onPwr (s : State) (f : Power → Power) : State := { s with pwr := f s.pwr }

/-- Wakes (R433 to R435): SRC codes of WCAUSE. -/
def wakeCode : WakeSrc → Byte
  | .input => 1 | .canWup => 2 | .canWuf => 3 | .lin => 4 | .t1s => 5 | .ring => 6 | .handle => 7 | .timer => 8

/-- A wake source is enabled in a target state (R434). -/
def State.wakeOn (s : State) (src : WakeSrc) (num : Nat) (deep : Bool) : Bool :=
  match src with
  | .input => num < 64 && (let w := s.cfg (0x2300 + num) 8 % 4; w = 2 || (w = 1 && !deep))
  | .canWup =>
    let w := s.cfg (0x3000 + num) 0x10
    num < 8 && (w % 4 = 2 || (w % 4 = 1 && !deep)) && (deep || !w.testBit 2)
  | .canWuf => let w := s.cfg (0x3000 + num) 0x10; num < 8 && !deep && w % 4 != 0 && w.testBit 2
  | .lin => num < 8 && !deep && (s.cfg (0x3100 + num) 6).testBit 0
  | .t1s => num < 2 && !deep && (s.cfg pwrIdx 0x0C).testBit num
  | .ring => !deep && s.cfgB 0x3300 6
  | .handle => !deep && (s.cfg 0x2900 2).testBit (if num = 4 then 1 else 0) && s.acs.lockEnd.isNone
  | .timer => s.pwr.wtimer != 0

/-- A wake that passes now. -/
def State.newWake (s : State) (src : WakeSrc) (num : Nat) : Wake :=
  { src := wakeCode src, num := BitVec.ofNat 8 num, stamp := s.stamp, replay := false, multi := false }

/-- Of an earlier wake and a later one, that with the earlier stamp is named, among equal stamps the lower code (R435). -/
def Wake.after (w o : Wake) : Wake :=
  if o.stamp = w.stamp && w.src.toNat < o.src.toNat then { w with replay := o.replay, multi := true } else { o with multi := true }

/-- A wake during an entry is latched (R433). -/
def State.latchWake (s : State) (w : Wake) : State :=
  s.onPwr fun p => { p with latched := some (match p.latched with | some o => w.after o | none => w) }

/-- A wake passes its filter (R433, R435): latched during an entry, a return from PARK, a further one during the return. -/
def State.wakePass (s : State) (src : WakeSrc) (num : Nat) : State :=
  let w := s.newWake src num
  let more (p : Power) : Power := { p with wake := p.wake.map w.after }
  let go (p : Power) : Power := { p with mode := .returning, start := s.now, wake := some w, next := 1 }
  if !s.wakeOn src num s.pwr.deep then s
  else
    match s.pwr.mode with
    | .entering => s.latchWake w
    | .park | .deep =>
      let s1 := s.onPwr go
      { s1 with inputs := ball s1.inputs fun i u => { u with wakec := src == .input && i.val = num }
                acs := { s1.acs with wakePoll := src == .handle } }
    | .returning => s.onPwr more
    | _ => s

/-- The object index of an input: SWn, or IOn. -/
def inIdx (i : Fin 80) : Nat := if i.val < 64 then 0x2300 + i.val else 0x2340 + (i.val - 64)

/-- MODE of an input; its members 0x01 to 0x07 have the same subindices in both blocks. -/
def State.inMode (s : State) (i : Fin 80) : Nat := s.cfg (inIdx i) 1

/-- In use as an input (R349, R362). -/
def State.inUse (s : State) (i : Fin 80) : Bool := s.inMode i = 1 || s.inMode i = 2

/-- EVEN. -/
def State.inEven (s : State) (i : Fin 80) : Bool := s.cfgB (inIdx i) (if i.val < 64 then 0x0A else 0x0B)

/-- The state code of a class (R349). -/
def InClass.code : InClass → Nat
  | .open_ => 0 | .inactive => 1 | .active => 2 | .short => 3

/-- The class of a voltage m in mV (R349). -/
def classify (four : Bool) (tact topen m : Nat) : InClass :=
  if m < 500 then (if four then .short else .active)
  else if m < tact then .active
  else if m < topen || !four then .inactive
  else .open_

/-- The class that an input gives a voltage. -/
def State.inClass (s : State) (i : Fin 80) (m : Nat) : InClass :=
  classify (s.cfgB (inIdx i) 2) (s.cfg (inIdx i) 6) (s.cfg (inIdx i) 7) m

/-! The leaf that survives a reset (R356) -/

/-- A rule of the applied table, in its two words. -/
def State.rule (s : State) (n : Nat) : Word × Word :=
  let t := s.obj 0x2700 1
  (t.getD (2 * n) 0, t.getD (2 * n + 1) 0)

/-- The operand codes of a rule (R111). -/
def ruleOps (r : Word × Word) : List Nat := [fld r.1 15 8, fld r.1 7 0, fld r.2 35 28, fld r.2 27 20]

/-- Rule n is enabled. -/
def ruleOn (r : Word × Word) : Bool := r.1.getLsbD 35

/-- An enabled rule names an operand. -/
def State.ruleNames (s : State) (code : Nat) : Bool :=
  (List.range 256).any fun n => ruleOn (s.rule n) && (ruleOps (s.rule n)).contains code

/-- An enabled binding of a user image names a switch input. -/
def State.bindNames (s : State) (i : Nat) : Bool :=
  (allFin 16).any fun n => (bget s.seqs n).src == .user && (bget s.seqs n).started &&
    (allFin 8).any fun b => s.binding n b == some (0x3D, i)

/-- A pair takes the input as a Hall input, or as its park input under POLICY 3. -/
def State.pairNames (s : State) (i : Nat) : Bool :=
  (allFin 8).any fun k =>
    let x := pairIdx k
    (2 ≤ s.cfg x 0x0D && (s.cfg x 0x0E = i || s.cfg x 0x0F = i)) || (s.cfg x 0x21 = 3 && s.cfg x 0x1C = i)

/-- Filtered in the AON leaf. -/
def State.inAon (s : State) (i : Fin 80) : Bool :=
  i.val < 64 && (s.ruleNames i.val || s.bindNames i.val || s.pairNames i.val)

/-- The input is being filtered: in use, and IOP released or the AON leaf at work (R356, R364). -/
def State.inRuns (s : State) (i : Fin 80) : Bool := s.inUse i && (s.iop || (s.inAon i && (bget s.dom 1).powered && !(bget s.dom 1).held))

/-! The input event queue (R357, R358) -/

/-- The admitted flow whose source is an endpoint. -/
def State.flowFrom (s : State) (src : Nat) : Option (Fin 256) :=
  (allFin 256).find? fun n => (bget s.adm.ct n).inForce && s.cfg (0x1100 + n.val) 1 = src

/-- Word 0 of an input entry. -/
def inWord (type : Nat) (i : Fin 80) (state prev : InClass) (flt loss wake parked : Bool) : Word :=
  wd (type * 2 ^ 32 + i.val * 2 ^ 25 + state.code * 2 ^ 23 + prev.code * 2 ^ 21 + b1 flt * 2 ^ 20 + b1 loss * 2 ^ 19 + b1 wake * 2 ^ 18 +
    b1 parked * 2 ^ 17)

/-- Places an input entry with its stamp, or hands it to the admitted flow; a full queue counts it as lost (R357). -/
def State.inputEntryAt (s : State) (stamp : Word) (type : Nat) (i : Fin 80) (state prev : InClass) (flt wake parked : Bool) : State :=
  if !s.iop || !s.inEven i then s
  else
    let w := inWord type i state prev flt s.inLoss wake parked
    if let some n := s.flowFrom 0x3D00 then { s.toFlow n [w, stamp] with inLoss := false }
    else if s.inq.full 512 then State.raise { s with inq := s.inq.push 512 [w, stamp], inLoss := true } 0x3D 0
    else { s with inq := s.inq.push 512 [w, stamp], inLoss := false }

/-- An entry for what happens now (R38). -/
def State.inputEntry (s : State) (type : Nat) (i : Fin 80) (state prev : InClass) (flt wake parked : Bool) : State :=
  s.inputEntryAt s.stamp type i state prev flt wake parked

/-- A class becomes the reported state (R352, R353): the entry, the operand of speedwell (R110), a wake during an
entry (R433), and the kind of an open or a short. -/
def State.report (s : State) (i : Fin 80) (c : InClass) (flt : Bool) : State :=
  let prev := (bget s.inputs i).rep
  let s1 := s.onIn i fun u => { u with rep := c, changes := satInc u.changes }
  let s2 := s1.onAdm fun a => { a with swRep := if c = .active then a.swRep ||| 1#80 <<< i.val else a.swRep &&& ~~~(1#80 <<< i.val) }
  let s3 := s2.inputEntry 1 i c prev flt false false
  let s4 := if i.val < 64 && s3.pwr.mode == .entering && s3.cfg (inIdx i) 8 % 4 != 0 then s3.latchWake (s3.newWake .input i.val) else s3
  s4.raiseIf (c = .open_ || c = .short) (if i.val < 64 then 0x3D else 0x3E) (if i.val < 64 then 4 else 17)

/-! Debounce, chatter and the filter (R352 to R355) -/

/-- K of the integrating filter at a time, the class standing still since kAt (R353). -/
def Input.kNow (u : Input) (deb t : Nat) : Nat :=
  let n := t / 100 - u.kAt / 100
  if u.cls = u.rep then u.k - n else Nat.min deb (u.k + n)

/-- INPUT_CLASS_CHANGE: the debounce timer restarts; a run shorter than DEB is chatter. -/
def execInputClassChange (i : Fin 80) (mV : Nat) (s : State) : Host.Outcome State Fault Refusal :=
  let c := s.inClass i mV
  if !s.inRuns i || (bget s.inputs i).cls = c then .next s
  else
    let deb := s.cfg (inIdx i) 4
    .next (s.onIn i fun u =>
      { u with cls := c, since := s.now, k := u.kNow deb s.now, kAt := s.now,
               chat := if s.now < u.since + usT deb then some (u.chat.getD u.since) else none })

/-- DEBOUNCE_ACCEPT (R352): the class has held for the whole of DEB. -/
def execDebounceAccept (i : Fin 80) (s : State) : Host.Outcome State Fault Refusal :=
  let u := bget s.inputs i
  if !s.inRuns i || u.fb || u.cls = u.rep then .next s
  else .next ((s.at (u.since + usT (s.cfg (inIdx i) 4))).report i u.cls false)

/-- CHATTER_FALLBACK (R353): chatter without a break for CHATT ms. -/
def execChatterFallback (i : Fin 80) (s : State) : Host.Outcome State Fault Refusal :=
  let u := bget s.inputs i
  let ms := s.cfg (inIdx i) 5
  match u.chat with
  | none => .next s
  | some c =>
    let t := c + msT ms
    if !s.inRuns i || u.fb || ms = 0 || u.since + usT (s.cfg (inIdx i) 4) ≤ t then .next s
    else
      let s1 := (s.at t).onIn i fun u => { u with fb := true, k := 0, kAt := Nat.max t s.now, fallbks := satInc u.fallbks }
      .next ((s1.inputEntry 2 i u.rep u.rep true false false).raise (if i.val < 64 then 0x3D else 0x3E) (if i.val < 64 then 1 else 16))

/-- FILTER_ACCEPT (R353): K reaches DEB. -/
def execFilterAccept (i : Fin 80) (s : State) : Host.Outcome State Fault Refusal :=
  let u := bget s.inputs i
  if !s.inRuns i || !u.fb || u.cls = u.rep then .next s
  else
    let s1 := s.at ((u.kAt / 100 + (s.cfg (inIdx i) 4 - u.k)) * 100)
    .next ((s1.onIn i fun u => { u with k := 0, kAt := s1.now }).report i u.cls true)

/-- FILTER_EXIT (R354): the class has not changed for CHATT ms. -/
def execFilterExit (i : Fin 80) (s : State) : Host.Outcome State Fault Refusal :=
  let u := bget s.inputs i
  if !s.inRuns i || !u.fb then .next s
  else
    let s1 := s.at (u.since + msT (s.cfg (inIdx i) 5))
    .next ((s1.onIn i fun u => { u with fb := false, chat := none, k := 0, kAt := s1.now, since := s1.now }).inputEntry 3 i u.rep u.rep
      false false false)

/-- OPEN_BAND_LOST (R350): a coded input cannot report open; kind 2 belongs to the switch inputs. -/
def execOpenBandLost (i : Fin 80) (s : State) : Host.Outcome State Fault Refusal :=
  if !s.inUse i || !s.cfgB (inIdx i) 2 || (bget s.inputs i).lowv then .next s
  else .next ((s.onIn i fun u => { u with lowv := true }).raiseIf (i.val < 64) 0x3D 2)

/-- OPEN_BAND_RESTORED (R350). -/
def execOpenBandRestored (i : Fin 80) (s : State) : Host.Outcome State Fault Refusal :=
  .next (s.onIn i fun u => { u with lowv := false })

/-- A committed change of an input's bundle (R355): the debounce timer restarts from the current class. -/
def State.inputFollow (s : State) (i : Fin 80) : State := s.onIn i fun u => { u with since := s.now, chat := none }

/-- The wetting charge of an input (R351), in nA and nW; nothing while it is not in use. -/
def wetCharge (vnom : Nat) (i : Fin 80) (inUse ten : Bool) : Option Charge :=
  let ma := if ten then 10 else 2
  if inUse then some { code := if i.val < 64 then 0xAC + i.val else 0x9A + (i.val - 64), na := ma * 1000000, nw := ma * vnom * 1000000, derat := false }
  else none

/-- The wetting charge at the applied settings is what the ledger holds (R351). -/
def State.wetFollow (s : State) (i : Fin 80) : State :=
  match wetCharge s.vnom i (s.inUse i) (s.cfgB (inIdx i) 3) with
  | some c => s.recharge c
  | none => if i.val < 64 then s.uncharge (0xAC + i.val) else s

/-- At IOP release each input in use reports a fresh picture (R356): inputs of the AON leaf keep their state, the others take their
first class. -/
def State.inputRelease (s : State) (i : Fin 80) : State :=
  if s.inUse i then
    let u := bget s.inputs i
    let c := if s.inAon i then u.rep else u.cls
    let s1 := s.onIn i fun u =>
      let w := { u with rep := c, changes := 0, fallbks := 0 }
      if s.inAon i then w else { w with since := s.now, fb := false, chat := none, k := 0, kAt := s.now }
    let s2 := s1.onAdm fun a => { a with swRep := if c = .active then a.swRep ||| 1#80 <<< i.val else a.swRep &&& ~~~(1#80 <<< i.val) }
    s2.inputEntry 4 i c c false false false
  else s.onIn i fun u => { u with changes := 0, fallbks := 0 }

/-- The return from a park (R358, R360): what the polls found, with PARKED; the input that caused the wake carries WAKE and the stamp of its
poll. -/
def State.inputReturn (s : State) (i : Fin 80) : State :=
  if !s.inUse i then s
  else
    let u := bget s.inputs i
    match u.poll with
    | none => s.inputRelease i
    | some p =>
      let s1 := s.onIn i fun u => { u with cls := p, rep := p, since := s.now, chat := none, poll := none, agree := 0 }
      let s2 := s1.onAdm fun a => { a with swRep := if p = .active then a.swRep ||| 1#80 <<< i.val else a.swRep &&& ~~~(1#80 <<< i.val) }
      if p = u.entry then s2.inputEntry 4 i p p false false false
      else s2.inputEntryAt (if u.wakec then (s.pwr.wake.map (·.stamp)).getD s.stamp else s.stamp) 1 i p u.entry false u.wakec true

/-- STATUS (obj 0x2300 + n.0C). -/
def State.swStatus (s : State) (i : Fin 80) : Word :=
  let u := bget s.inputs i
  let chat := u.chat.isSome && s.now < u.since + usT (s.cfg (inIdx i) 4)
  wd ((if s.inUse i then u.rep.code else 4) * 2 ^ 20 + b1 u.fb * 2 ^ 19 + b1 chat * 2 ^ 18 + b1 u.lowv * 2 ^ 17 + b1 (s.inAon i) * 2 ^ 16 +
    b1 u.wakec * 2 ^ 15)

/-- ST0 to ST3 of the window of block 0x3D (R357). -/
def State.inStates (s : State) (w : Nat) : Word :=
  wd ((List.range 16).foldl (fun a i => a + (bget s.inputs (Fin.ofNat 80 (16 * w + i))).rep.code * 2 ^ (2 * i)) 0)

/-! Configurable pins as outputs (R362 to R365) -/

/-- The pin is an output. -/
def State.ioOut (s : State) (n : Fin 16) : Bool := s.cfg (ioIdx n) 1 = 3 || s.cfg (ioIdx n) 1 = 4

/-- What an output is charged (R363). -/
def State.ioCharge (s : State) (n : Fin 16) : Charge :=
  let i := s.cfg (ioIdx n) 8
  { code := ioCode n, na := i * 1000000, nw := i * i * 1000, derat := false }

/-- The pin goes off: its charge and a deferral end. -/
def State.ioOff (s : State) (n : Fin 16) : State :=
  if s.ioOut n then ((s.onIo n fun p => { p with on := false }).uncharge (ioCode n)).undefer (ioCode n)
  else s.onIo n fun p => { p with on := false }

/-- The pin takes ON or OFF (R363, R99). -/
def State.ioApply (s : State) (n : Fin 16) (on : Bool) : Verdict × State :=
  let p := bget s.ios n
  if !on then (.admitted, s.ioOff n)
  else if p.on then (.admitted, s)
  else if s.isShed (ioCode n) then s.refuseEnerg (ioCode n) 0x0F 0x03
  else if p.lcause != 0 then s.refuseEnerg (ioCode n) 0x10 (loadBlock (ioCode n))
  else if s.heldOff || s.safeOff (ioCode n) then (.admitted, s)
  else match s.energise (s.ioCharge n) 1 false with
    | (.admitted, s1) => (.admitted, s1.onIo n fun p => { p with on := true })
    | r => r

/-- A deferred ON is carried out (R101). -/
def State.ioUndefer (s : State) (n : Fin 16) : State := s.onIo n fun p => { p with on := true }

/-- A write of CMD (R363): refused with 0x07 in modes 0 to 2. -/
def State.ioCommand (s : State) (n : Fin 16) (on : Bool) : Code × State :=
  if !s.ioOut n then ((0x07, 0), s)
  else if s.safeOf (ioCode n) = some 1 then (okc, s.onIo n fun p => { p with cmd := on })
  else match s.ioApply n on with
    | (.refused r b, s1) => (Verdict.code (.refused r b), s1)
    | (v, s1) => (v.code, s1.onIo n fun p => { p with cmd := on })

/-- The pin follows its command (R470, R482). -/
def State.ioFollow (s : State) (n : Fin 16) : State :=
  if (bget s.ios n).lcause != 0 || !s.ioOut n then s else (s.ioApply n (bget s.ios n).cmd).2

/-- A clear (R363) leaves the pin off.  Under LCAUSE 2 it is refused while the pin is at or above 150 °C. -/
def State.ioClear (s : State) (n : Fin 16) : Code × State :=
  let p := bget s.ios n
  if p.lcause = 2 && p.hot then ((0x07, 0), s)
  else (okc, (s.ioOff n).onIo n fun p => { p with lcause := 0, cmd := false })

/-- Which pins are at or above 150 °C, as the strobe measures them (R363). -/
def State.iosHot (s : State) (m : BitVec 16) : State := { s with ios := ball s.ios fun n p => { p with hot := m.getLsbD n.val } }

/-- IO_CMD_OFF. -/
def execIoCmdOff (r : Requester) (n : Fin 16) (s : State) : Host.Outcome State Fault Refusal :=
  .next (s.objCmd r (ioIdx n) 9 [0] fun t => t.ioCommand n false)

/-- IO_CMD_ON. -/
def execIoCmdOn (r : Requester) (n : Fin 16) (s : State) : Host.Outcome State Fault Refusal :=
  .next (s.objCmd r (ioIdx n) 9 [1] fun t => t.ioCommand n true)

/-- IO_CLEAR. -/
def execIoClear (r : Requester) (n : Fin 16) (s : State) : Host.Outcome State Fault Refusal :=
  .next (s.objCmd r (ioIdx n) 0x0A [1] fun t => t.ioClear n)

/-- A pin latches (R363, R132). -/
def State.ioLatch (s : State) (n : Fin 16) (cause : BitVec 2) : State :=
  ((s.ioOff n).onIo n fun p => { p with lcause := if p.lcause = 0 then cause else p.lcause, trips := satInc p.trips }).raise 0x3E n.val

/-- IO_OVERCURRENT. -/
def execIoOvercurrent (n : Fin 16) (s : State) : Host.Outcome State Fault Refusal :=
  if s.ioOut n && (bget s.ios n).on then .next (s.ioLatch n 1) else .next s

/-- IO_THERMAL. -/
def execIoThermal (n : Fin 16) (s : State) : Host.Outcome State Fault Refusal :=
  if s.ioOut n && (bget s.ios n).on then .next ((s.ioLatch n 2).onIo n fun p => { p with hot := true }) else .next s

/-- STATUS (obj 0x2340 + n.0D). -/
def State.ioStatus (s : State) (n : Fin 16) : Word :=
  let p := bget s.ios n
  let i : Fin 80 := ⟨64 + n.val, by omega⟩
  let u := bget s.inputs i
  let st := if s.ioOut n then
      (if p.lcause != 0 then 4 else if s.isDeferred (ioCode n) then 5 else if p.on then 3 else 2)
    else if s.inUse i then 1 else 0
  let chat := u.chat.isSome && s.now < u.since + usT (s.cfg (inIdx i) 4)
  wd (st * 2 ^ 20 + u.rep.code * 2 ^ 18 + p.lcause.toNat * 2 ^ 16 + b1 u.fb * 2 ^ 15 + b1 chat * 2 ^ 14 + b1 u.lowv * 2 ^ 13 +
    b1 (s.isShed (ioCode n)) * 2 ^ 12)

/-! The ADC schedule (R367, R368) -/

/-- The object index and the subindex of SRATE of a request. -/
def AdcReq.srate : AdcReq → Nat × Nat
  | .load (.hs ch) => (hsIdx ch, 0x12)
  | .load (.leg n) => (legIdx n, 9)
  | .load (.pair k) => (legIdx (legA k), 9)
  | .load (.valve n) => (valveIdx n, 0x11)
  | .load (.sink n) => (sinkIdx n, 0x0D)
  | .an n => (anIdx n, 2)

/-- NUM of an admission event that names a request (R108). -/
def AdcReq.num : AdcReq → Nat
  | .load (.hs ch) => ch.val
  | .load (.leg n) => legCode n
  | .load (.pair k) => pairCode k
  | .load (.valve n) => valveCode n
  | .load (.sink n) => sinkCode n
  | .an n => 0x100 + n.val

/-- The ADCs that a request is allowed, in the order they are tried. -/
def AdcReq.allowed : AdcReq → List Nat
  | .load _ => [0, 1, 2, 3, 7]
  | .an _ => [4, 5, 7]

/-- Two placements in one slot of one ADC collide. -/
def collides (p : AdcPlace) (phase period : Nat) : Bool :=
  let g := Nat.gcd p.period period
  p.phase % g = phase % g

/-- The first-fit placement of a request with period P among those that stand. -/
def findPlace (l : List AdcPlace) (r : AdcReq) (period : Nat) : Option AdcPlace :=
  r.allowed.findSome? fun a => (List.range 34).findSome? fun sl =>
    let here := l.filter fun p => p.adc == a && p.slot == sl
    ((List.range period).find? fun ph => !(here.any fun p => collides p ph period)).map fun ph =>
      { req := r, adc := a, slot := sl, phase := ph, period := period }

/-- The requests of the device in ascending object index (R88). -/
def State.adcRequests (s : State) : List AdcReq :=
  (allFin 72).map (fun c => .load (.hs c)) ++ (allFin 16).map (fun n => .load (.leg n)) ++ (allFin 12).map (fun n => .load (.valve n)) ++
    ((allFin 16).filter fun n => s.cfg (anIdx n) 1 != 0).map .an ++ (allFin 24).map fun n => .load (.sink n)

/-- The placements at a release of FAB (R368): a request that no longer fits is left out and raises its admission event. -/
def State.placeAll (s : State) : State :=
  s.adcRequests.foldl (fun st r =>
    match findPlace st.adc.places r (Nat.max 1 (st.cfg r.srate.1 r.srate.2)) with
    | some p => st.onAdc fun a => { a with places := a.places ++ [p] }
    | none => (st.admEvent 0x5 5 r.num 0 0x08 0x3F).raise 0x06 3) (s.onAdc fun a => { a with places := [], pend := [] })

/-- The placement that a commit of a request's bundle needs: none where it stands as it is (R97, R368). -/
def State.wantPlace (s : State) (r : AdcReq) (period : Nat) : Option (Option AdcPlace) :=
  match s.placeOf r with
  | some p => if p.period = period then none else some (findPlace (s.adc.places ++ s.adc.pend) r period)
  | none => some (findPlace (s.adc.places ++ s.adc.pend) r period)

/-! Analog inputs (R366, R369 to R371) -/

/-- VALUE (obj 0x2360 + n.05). -/
def State.anValue (s : State) (n : Fin 16) : Nat :=
  let w := (bget s.ans n).window.take (2 ^ s.cfg (anIdx n) 3)
  let c := if w.isEmpty then 0 else (roundDiv ((w.map (·.toNat)).sum : Nat) w.length).toNat
  if s.cfg (anIdx n) 1 = 1 then c * 9 else c

/-- An analog input cannot be read: its request is not placed, or its ADC failed its self-check (R368, R370). -/
def State.anBad (s : State) (n : Fin 16) : Bool :=
  match s.placeOf (.an n) with
  | none => s.cfg (anIdx n) 1 != 0
  | some p => s.adc.bad.getLsbD p.adc

/-- One conversion of ANn (R366, R371). -/
def State.anSample (s : State) (n : Fin 16) (code : BitVec 12) : State :=
  let sat := code = 0xFFF
  let s1 := s.onAn n fun a => { a with raw := code, sat := sat, window := (code :: a.window).take 64, samples := satInc a.samples }
  let s2 := s1.raiseIf (sat && !(bget s.ans n).sat) 0x3F 2
  match s.flowFrom (0x3F00 + n.val) with
  | some k => s2.toFlow k [wd (b1 sat * 2 ^ 16 + code.toNat / 256 * 2 ^ 9 + code.toNat % 256)]
  | none => s2

/-- STATUS (obj 0x2360 + n.06). -/
def State.anStatus (s : State) (n : Fin 16) : Word :=
  let used := s.cfg (anIdx n) 1 != 0
  let st := if !used then 0 else if (s.placeOf (.an n)).isSome then 1 else 2
  wd (st * 2 ^ 20 + b1 (bget s.ans n).sat * 2 ^ 19 + b1 (s.adc.lowref && s.cfg (anIdx n) 1 = 2) * 2 ^ 18 +
    b1 ((s.placeOf (.an n)).any fun p => s.adc.bad.getLsbD p.adc) * 2 ^ 17)

/-- PLACE (obj 0x2360 + n.07). -/
def State.anPlace (s : State) (n : Fin 16) : Word :=
  match s.placeOf (.an n) with
  | none => 0xF00000000
  | some p => wd (p.adc * 2 ^ 32 + p.slot * 2 ^ 16 + p.phase)

/-- AREF_LOW (R366). -/
def execArefLow (s : State) : Host.Outcome State Fault Refusal :=
  if !s.iop || s.adc.lowref then .next s else .next ((s.onAdc fun a => { a with lowref := true }).raise 0x3F 1)

/-- AREF_RESTORED (R366). -/
def execArefRestored (s : State) : Host.Outcome State Fault Refusal := .next (s.onAdc fun a => { a with lowref := false })

end Sys2Proof.Machine
end

