-- ==== Sys2Proof/Machine/Loads.lean ====
section
/-!
DEFINITION. What the load chapters share: sense samples and conversions, SENSEOUT, off-state tests, HOLD timers, junction thresholds
(R133, R135, R139 to R142, R149, R178 to R182, R215 to R218, R234, R367, R370).
-/
namespace Sys2Proof.Machine

/-! Sense samples (R139, R369, R370) -/

/-- A sense sample of an item. -/
def State.senseSample (s : State) (i : SenseItem) (code : BitVec 12) (ok : Bool) : State :=
  match i with
  | .hs ch => s.hsSample ch code ok
  | .leg n => s.legSample n code ok
  | .pair k => s.pairSample k code ok
  | .valve n => s.valveSample n code ok
  | .sink n => s.sinkSample n code ok

/-- SENSE_SAMPLE (R139, R180, R217, R234). -/
def execSenseSample (item : SenseItem) (code : BitVec 12) (checkOk : Bool) (s : State) : Host.Outcome State Fault Refusal :=
  .next (s.senseSample item code checkOk)

/-- The first conversion of a placed request at or after t: its end, 250 ns after the acquisition (R367). -/
def AdcPlace.nextEnd (p : AdcPlace) (t : Nat) : Nat := gridFrom (p.period * 1000) (p.phase * 1000 + 25 * p.slot + 25) t

/-- The request of a slot that converts next, with the end of its conversion. -/
def nextConversion (l : List AdcPlace) (t : Nat) : Option (AdcPlace × Nat) :=
  l.foldl (fun a p => match a with
    | none => some (p, p.nextEnd t)
    | some (q, e) => if p.nextEnd t < e then some (p, p.nextEnd t) else some (q, e)) none

/-- An ADC's self-check in slots 34 to 39 (R367, R370); ADC6 measures VBAT, whose self-check it is too (R465, R484). -/
def State.adcCheck (s : State) (a : Fin 8) (ok : Bool) : State :=
  let was := s.adc.bad.getLsbD a.val
  let s1 := s.onAdc fun x => { x with bad := if ok then x.bad &&& ~~~(1#8 <<< a.val) else x.bad ||| 1#8 <<< a.val }
  (s1.raiseIf (!ok && !was) 0x3F 0).raiseIf (a = 6 && !ok && !was) 0x03 4

/-- ADC_CONVERSION (R367, R370): slots 0 to 33 carry placed requests, of which that of a motor's leg A gives the pair's sense
word as well (R154), slots 34 to 39 self-checks.  ADC6 runs a fixed schedule. -/
def execAdcConversion (adc : Fin 8) (slot : Nat) (code : BitVec 12) (checkOk : Bool) (s : State) : Host.Outcome State Fault Refusal :=
  if h : slot < 40 then
    if !s.iop then .next s
    else
      let i : Fin 320 := ⟨40 * adc.val + slot, by omega⟩
      let t := Nat.max s.now (bget s.adc.last i)
      if 34 ≤ slot then .next (s.adcCheck adc checkOk)
      else match nextConversion (s.adc.places.filter fun p => p.adc == adc.val && p.slot == slot) t with
        | none => .next s
        | some (p, e) =>
          let s1 := (s.at e).onAdc fun a => { a with last := bset a.last i (e + 1) }
          match p.req with
          | .an n => .next (s1.anSample n code)
          | .load (.leg n) =>
            let s2 := s1.senseSample (.leg n) code checkOk
            .next (if s1.motor (pairOf n) && n = legA (pairOf n) then s2.pairSample (pairOf n) code checkOk else s2)
          | .load it => .next (s1.senseSample it code checkOk)
  else .next s

/-! SENSEOUT (R140) -/

/-- The SOUT object of an item. -/
def soutKey : SenseItem → Nat × Nat
  | .hs ch => (hsIdx ch, 0x16)
  | .leg n => (legIdx n, 0x0B)
  | .pair k => (pairIdx k, 0x05)
  | .valve n => (valveIdx n, 0x14)
  | .sink n => (sinkIdx n, 0x0F)

/-- SOUT_SELECT: the item becomes the source; the previous source's SOUT reads 0. -/
def execSoutSelect (r : Requester) (item : SenseItem) (s : State) : Host.Outcome State Fault Refusal :=
  .next (s.objCmd r (soutKey item).1 (soutKey item).2 [1] fun t => (okc, { t with sout := some item }))

/-- The sense word of an item. -/
def State.senseWord (s : State) : SenseItem → BitVec 12
  | .hs ch => s.hsSense ch
  | .leg n => s.legSense n
  | .pair k => s.pairSense k
  | .valve n => s.valveSense n
  | .sink n => s.sinkSense n

/-- What SENSEOUT is driven to (R140, R141): high-impedance, the fault level, or a level in code × gain, clipped at 3 071. -/
inductive SenseOut where
  | highZ | faultLevel | level (code : Nat)
  deriving DecidableEq, Repr

/-- The state of the SENSEOUT pin; a pair drives it with leg A's SOUTG (obj 0x2110 + k.05). -/
def State.senseOut (s : State) : SenseOut :=
  if !s.iop then .highZ
  else match s.sout with
    | none => .level 0
    | some i =>
      let w := s.senseWord i
      let own := match i with
        | .pair k => soutKey (.leg (legA k))
        | _ => soutKey i
      let gain := s.cfg own.1 (own.2 + 1)
      if 0xF00 ≤ w.toNat then .faultLevel else .level (Nat.min 3071 (w.toNat * 2 ^ gain))

/-! Off-state tests (R135, R179, R216) -/

/-- A test that is under way, or waits. -/
structure TestView where
  test : TestState
  from_ : Nat                      -- TIME of the last test
  every : Nat                      -- DIAGP, in ticks
  may   : Bool                     -- its mode and the output's state allow it now
  runs  : Bool                     -- the load's state calls for tests at all

/-- The off-state test of a load.  Obj 0x2110 + k has no DIAG and no DIAGP: a pair's test runs when it is said to be due (log 20). -/
def State.testView (s : State) : TestLoad → TestView
  | .hs ch =>
    let c := bget s.hs ch
    { test := c.test, from_ := c.testAt, every := msT (s.cfg (hsIdx ch) 0x10), may := s.hsTestFits ch,
      runs := s.cfg (hsIdx ch) 0x0F % 4 != 0 && s.duoTests ch.val }
  | .pair k =>
    let p := bget s.pairs k
    { test := p.test, from_ := p.testAt, every := 0, may := s.motor k && p.stage == .free, runs := s.motor k }
  | .valve n =>
    let v := bget s.vd n
    { test := v.test, from_ := v.testAt, every := msT (s.cfg (valveIdx n) 0x10),
      may := v.stage = .off && (s.bankSwitches (bankOf n)).2 && (s.bankOwner (bankOf n)).isNone,
      runs := s.cfgB (valveIdx n) 0x0F && s.bankOn (bankOf n) && s.duoTests (valveCode n) }

/-- A load's test state set. -/
def State.setTest (s : State) (l : TestLoad) (t : TestState) (at_ : Option Nat) : State :=
  match l with
  | .hs ch => s.onHs ch fun c => { c with test := t, testAt := at_.getD c.testAt }
  | .pair k => s.onPair k fun p => { p with test := t, testAt := at_.getD p.testAt }
  | .valve n => s.onVd n fun v => { v with test := t, testAt := at_.getD v.testAt }

/-- OFFSTATE_TEST_DUE: every DIAGP ms; a test that cannot start stays due. -/
def execOffstateTestDue (l : TestLoad) (s : State) : Host.Outcome State Fault Refusal :=
  let v := s.testView l
  if !s.iop || !v.runs then .next s
  else
    let start (st : State) : State :=
      if (st.testView l).may then st.setTest l (.phaseA (st.now + usT 100)) (some st.now) else st.setTest l .due none
    match v.test with
    | .idle => .next (start (s.at (v.from_ + v.every)))
    | .due => .next (start s)
    | _ => .next s

/-- The result of phase A: short to battery, or for a valve short to ground. -/
def testA (l : TestLoad) (m : TestPhase) : Bool :=
  match l with
  | .hs _ => decide (m.vbat < 2 * m.v)
  | .pair _ => decide (m.vbat < 2 * m.v) || decide (m.vbat < 2 * m.vb)
  | .valve _ => decide (m.v < 1000)

/-- A test is complete: its results, of phase A and of phase B, replace those of the last one; a rising edge raises the diagnostic kind. -/
def State.testDone (s : State) (l : TestLoad) (a : Bool) (m : TestPhase) : State :=
  match l with
  | .hs ch =>
    let c := bget s.hs ch
    let o := decide (3000 < m.v) && !a
    (s.onHs ch fun c => { c with scb := a, ol := o }).raiseIf ((a && !c.scb) || (o && !c.ol)) (0x30 + ch.val / 8) (16 + ch.val % 8)
  | .pair k =>
    let p := bget s.pairs k
    let g := decide (m.v < 1000)
    let o := !g && decide (m.vb + 3000 < m.v)
    (s.onPair k fun p => { p with scb := a, scg := g, ol := o }).raiseIf ((a && !p.scb) || (g && !p.scg) || (o && !p.ol))
      (0x39 + k.val / 4) (16 + k.val % 4)
  | .valve n =>
    let v := bget s.vd n
    let o := decide (2 * m.v < m.vbat) && !a
    (s.onVd n fun v => { v with scg := a, ol := o }).raiseIf ((a && !v.scg) || (o && !v.ol)) 0x3B (12 + n.val)

/-- OFFSTATE_TEST_PHASE_END: an on-edge has ended a test that it interrupted, which stays due; so do a stop of IOP and settings that no longer call
for tests. -/
def execOffstateTestPhaseEnd (l : TestLoad) (m : TestPhase) (s : State) : Host.Outcome State Fault Refusal :=
  match (s.testView l).test with
  | .phaseA e =>
    let s1 := s.at e
    .next (if s1.iop && (s.testView l).runs then s1.setTest l (.phaseB (e + usT 100) (testA l m)) none else s1.setTest l .due none)
  | .phaseB e a =>
    let s1 := s.at e
    .next (if s1.iop && (s.testView l).runs then (s1.testDone l a m).setTest l .idle none else s1.setTest l .due none)
  | _ => .next s

/-! HOLD timers (R142, R182, R218) -/

/-- HOLD_TIMER_EXPIRE. -/
def execHoldTimerExpire (item : HoldItem) (s : State) : Host.Outcome State Fault Refusal :=
  match item with
  | .hs ch => .next (s.hsHoldEnd ch)
  | .pair k => .next (s.pairHoldEnd k)
  | .valve n => .next (s.valveHoldEnd n)

/-! Junction thresholds (R133, R149, R178, R215, R222) -/

/-- The fault kinds of a group: warning, shutdown, sensor failed. -/
def thKinds (g : ThermGrp) : Nat × Nat × Option Nat :=
  if g.val < 11 then (24, 25, some 26) else if g.val = 11 then (28, 29, some 30) else (4, 5, none)

/-- A junction temperature is known: TJ and TJMAX (obj 0x2810 + g). -/
def State.setTj (s : State) (g : ThermGrp) (tj : Int) : State :=
  s.onSup fun u =>
    { u with tj := bset u.tj g tj,
             tjmax := if h : g.val < 9 then bmod u.tjmax ⟨g.val, h⟩ (fun m => max m tj) else u.tjmax }

/-- A junction's warning (R133). -/
def State.junctionWarn (s : State) (g : ThermGrp) : State := (s.onTh g fun t => { t with twarn := true }).raise (groupBlock g.val) (thKinds g).1

/-- JUNCTION_WARNING: 160 °C; a failed sensor tells nothing (R149). -/
def execJunctionWarning (g : ThermGrp) (tj : Int) (s : State) : Host.Outcome State Fault Refusal :=
  .next (if tj < 2560 || (bget s.th g).twarn || (bget s.th g).sensf then s else (s.setTj g tj).junctionWarn g)

/-- What a group's shutdown turns off and latches. -/
def State.shutdown (s : State) (g : ThermGrp) : State :=
  if h : g.val < 9 then
    (allFin 8).foldl (fun st c =>
      let ch := hsOf ⟨g.val, h⟩ c
      let k := bget st.hs ch
      if k.lcause = 0 && (k.act != .off || k.next.isSome || k.out || st.hsWant ch != .off) then st.hsLatch ch 4 else st) s
  else if h : g.val - 9 < 2 then s.hbShutdown ⟨g.val - 9, h⟩
  else if g.val = 11 then s.valveShutdown
  else if s.cfgB boostIdx 1 && !s.boost.latched then s.boostLatch else s

/-- A junction is in thermal shutdown: the kind is raised once for each crossing. -/
def State.junctionHot (s : State) (g : ThermGrp) : State :=
  ((s.onTh g fun t => { t with hot := true, tsd := true }).shutdown g).raise (groupBlock g.val) (thKinds g).2.1

/-- THERMAL_SHUTDOWN: the threshold lies at 170 °C, at least 165 °C. -/
def execThermalShutdown (g : ThermGrp) (tj : Int) (s : State) : Host.Outcome State Fault Refusal :=
  .next (if tj < 2640 || (bget s.th g).hot || (bget s.th g).sensf then s else (s.setTj g tj).junctionHot g)

/-- A junction's flags below their thresholds: below 155 °C TWARN clears, below 150 °C TSD, below the shutdown threshold the shutdown ends. -/
def State.junctionCool (s : State) (g : ThermGrp) (tj limit : Int) : State :=
  s.onTh g fun t => { t with twarn := t.twarn && decide (2480 ≤ tj), tsd := t.tsd && decide (2400 ≤ tj), hot := t.hot && decide (limit ≤ tj) }

/-- JUNCTION_COOLED. -/
def execJunctionCooled (g : ThermGrp) (tj : Int) (s : State) : Host.Outcome State Fault Refusal :=
  .next (if (bget s.th g).sensf then s else (s.setTj g tj).junctionCool g tj 2640)

/-- The thresholds of R133 applied to the estimate of a junction whose sensor failed (R149): shutdown at its typical 170 °C (log 35). -/
def State.judgeEst (s : State) (g : ThermGrp) : State :=
  if !(bget s.th g).sensf then s
  else
    let tj := bget s.sup.tj g
    let s1 := if 2560 ≤ tj && !(bget s.th g).twarn then s.junctionWarn g else s
    let s2 := if 2720 ≤ tj && !(bget s1.th g).hot then s1.junctionHot g else s1
    s2.junctionCool g tj 2720

/-- The governor's estimate of a junction whose sensor failed (R149), in 1/16 °C. -/
def State.estTj (s : State) (g : ThermGrp) : Int :=
  let nw := sumNw s s.sup.gfact s.sup.mfact ((s.ledger s.adm.charges).filter (groupOf ·.code == g.val))
  s.tc + (rth g.val * nw * 16 / 2550000000000 : Nat) + 160

/-- JUNCTION_SENSOR_FAIL (R149). -/
def execJunctionSensorFail (g : ThermGrp) (s : State) : Host.Outcome State Fault Refusal :=
  if (bget s.th g).sensf then .next s
  else
    let s1 := (s.setTj g (s.estTj g)).onTh g fun t => { t with sensf := true }
    .next ((match (thKinds g).2.2 with
      | some k => s1.raise (groupBlock g.val) k
      | none => s1).judgeEst g)

end Sys2Proof.Machine
end

