-- ==== Sys2Proof/Machine/LoopLaws.lean ====
section
/-!
DEFINITION. The arithmetic of a loop's step: number formats, law forms, presets, gain schedule and plant model (R259 to R276), as a
function of a loop's settings, its state and its latched inputs.
-/
namespace Sys2Proof.Machine

/-- x held between lo and hi. -/
def clipI (lo hi x : Int) : Int := if x < lo then lo else if hi < x then hi else x

/-- Saturated to SIG, in 2^−30 (R259). -/
def satSig (x : Int) : Int := clipI (-2 ^ 35) (2 ^ 35 - 1) x

/-- Saturated to ACC, in 2^−54. -/
def satAcc (x : Int) : Int := clipI (-2 ^ 71) (2 ^ 71 - 1) x

/-- A STATE word held in the SIG range after an update (R259, R269). -/
def satState (x : Int) : Int := clipI (-2 ^ 59) (2 ^ 59 - 2 ^ 24) x

/-- A sum in ACC, saturated term by term in the order written (R269, log 30). -/
def accSum : List Int → Int
  | [] => 0
  | x :: r => r.foldl (fun a b => satAcc (a + b)) (satAcc x)

/-- A result rounded to SIG: 2^23 added, shifted right by 24 places, saturated (R269). -/
def rndSig (a : Int) : Int := satSig ((a + 2 ^ 23) / 2 ^ 24)

/-- A SIG value in ACC. -/
def toAcc (x : Int) : Int := x * 2 ^ 24

/-- The settings of a loop that a step uses. -/
structure LoopCfg where
  law    : Nat
  c      : Nat → Nat → Int         -- coefficient c of region r (R272)
  bound  : Nat → Int               -- B1 to B7
  hyst   : Int
  nreg   : Nat
  sprate : Int
  ymin   : Int
  ymax   : Int
  manval : Int
  ma     : Int
  mb     : Int
  ml     : Int
  mdead  : Nat
  rth    : Int
  rwin   : Nat

/-- The object index of a loop. -/
def loopIdx (m : Fin 360) : Nat := 0x2500 + m.val

/-- Word i of a DOMAIN object as a signed number. -/
def State.domI (s : State) (idx sub i : Nat) : Int := ((s.obj idx sub).getD i 0).toInt

/-- The applied settings of a loop. -/
def State.loopCfg (s : State) (m : Fin 360) : LoopCfg :=
  let x := loopIdx m
  { law := s.cfg x 4, c := fun r k => s.domI x 0x17 (8 * r + k), bound := fun j => s.domI x 0x16 (j - 1), hyst := s.domI x 0x16 7,
    nreg := s.cfg x 0x15, sprate := s.cfgI x 0x0E, ymin := s.cfgI x 0x19,
    ymax := s.cfgI x 0x1A, manval := s.cfgI x 0x1C, ma := s.cfgI x 0x20, mb := s.cfgI x 0x21, ml := s.cfgI x 0x22,
    mdead := s.cfg x 0x23, rth := s.cfgI x 0x24, rwin := s.cfg x 0x25 }

/-- The region that contains σ, without hysteresis (R271). -/
def regionOf (g : LoopCfg) (sigma : Int) : Nat :=
  (List.range (g.nreg - 1)).foldl (fun r j => if g.bound (j + 1) ≤ sigma then j + 1 else r) 0

/-- The move of region j under σ with hysteresis (R271). -/
def regionMove (g : LoopCfg) (j : Nat) (sigma : Int) : Nat :=
  let up := (List.range g.nreg).filter fun k => j < k && g.bound k + g.hyst ≤ sigma
  let down := (List.range g.nreg).filter fun k => k < j && sigma < g.bound (k + 1) - g.hyst
  match up.getLast?, down.head? with
  | some k, _ => k
  | none, some k => k
  | none, none => j

/-- Drops an integrator's term while its sink holds back in direction `dir` and the term has that sign (R270). -/
def freeze (dir : Int) (t : Int) : Int := if 0 < dir * t then 0 else t

/-- What a law computes in a step: u before any preset, and the states with which the step then goes on. -/
structure LawOut where
  u : Int
  d : Int
  v : Int
  t : Int                          -- the integrator's term KI·e, or KIV·(w* − V), in ACC
  e : Int

/-- Step 5 of R266: u under the law table (R268). -/
def lawU (g : LoopCfg) (r : Nat) (c : LoopCore) (y sp w : Int) : LawOut :=
  let k := g.c r
  let e := sp - y
  match g.law with
  | 0 => { u := rndSig (accSum [k 0 * e, c.i]), d := c.d, v := c.v, t := k 1 * e, e := e }
  | 1 =>
    let d := rndSig (accSum [k 3 * c.d, k 4 * (y - c.y1)])
    { u := rndSig (accSum [k 0 * e, c.i, toAcc d]), d := d, v := c.v, t := k 1 * e, e := e }
  | 4 => { u := rndSig (accSum [k 0 * e, c.i, k 3 * sp, k 4 * w]), d := c.d, v := c.v, t := k 1 * e, e := e }
  | 5 =>
    let v := rndSig (accSum [k 2 * c.v, k 3 * (y - c.y1)])
    let lim := k 1 * 64
    let ws := clipI (-lim) lim (rndSig (k 0 * e))
    { u := rndSig (accSum [k 4 * (ws - v), c.i]), d := c.d, v := v, t := k 5 * (ws - v), e := ws - v }
  | _ => { u := rndSig (accSum [k 0 * e, c.i]), d := c.d, v := c.v, t := 0, e := e }

/-- Step 8 of R266: I or S1, and S2, updated with v (R268, R269, R270); `i` is the preset state after any preset. -/
def lawUpdate (g : LoopCfg) (r : Nat) (o : LawOut) (i s2 u v dir : Int) : Int × Int :=
  let k := g.c r
  match g.law with
  | 2 => (satState (accSum [k 1 * o.e, -(k 2 * v)]), s2)
  | 3 => (satState (accSum [k 1 * o.e, -(k 3 * v), s2]), satState (accSum [k 2 * o.e, -(k 4 * v)]))
  | 5 => (satState (accSum [i, freeze dir o.t, k 6 * (v - u)]), s2)
  | _ => (satState (accSum [i, freeze dir o.t, k 2 * (v - u)]), s2)

/-- The delay line as a step uses it: v of this step first. -/
def lineAt (v : Int) (l : List Int) (d : Nat) : Int := (v :: l).getD d v

/-- What a completed step leaves (R266 to R276), but for its delivery. -/
structure StepOut where
  loop  : Loop
  v     : Int
  fault : Bool                     -- a plausibility fault begins (R276)

/-- A step of a loop with its latched inputs; `dir` is the direction its sink holds back, 0 for none. -/
def loopStep (g : LoopCfg) (l : Loop) (inp : LoopInputs) (dir : Int) : StepOut :=
  let c := l.core
  let y := inp.y.getD 0
  let rs := inp.sp.getD 0
  let c := if l.entry then { c with y1 := y, r1 := rs } else c
  let r := if g.sprate = 0 then rs else c.r1 + clipI (-g.sprate) g.sprate (rs - c.r1)
  let reg := Nat.min (match inp.sch with
    | none => c.region.val
    | some q => if l.starts then regionOf g q else regionMove g c.region.val q) (g.nreg - 1)
  let o := lawU g reg c y r (inp.w.getD 0)
  let vref : Option Int :=
    if l.mode = 1 then some g.manval
    else match l.vref with
      | some x => some x
      | none => if reg != c.region.val || l.fresh then some c.v1 else none
  let u := vref.getD o.u
  let i := if vref.isSome then satState (c.i + toAcc (u - o.u)) else c.i
  let v := clipI g.ymin g.ymax u
  let (i2, s2) := lawUpdate g reg o i c.s2 u v dir
  let q := if g.law = 5 then o.v else y
  let qh := if l.restart then q else c.qh
  let line := if l.restart then List.replicate 15 l.sent else l.delay
  let rho := satSig (q - qh)
  let qh2 := rndSig (accSum [g.ma * qh, g.mb * lineAt v line g.mdead, g.ml * rho])
  let big := g.rth != 0 && decide (g.rth < rho.natAbs)
  let overs := if big then min 65535 (c.overs + 1) else 0
  let fault := big && decide (g.rwin ≤ overs) && !l.plaus
  { v := v, fault := fault,
    loop := { l with
      core := { i := i2, s2 := s2, d := o.d, v := o.v, y1 := y, v1 := v, r1 := r, qh := qh2,
                region := Fin.ofNat 8 reg, missc := 0, overs := overs, sigma := inp.sch.getD c.sigma }
      delay := (v :: line).take 15, y := v, fbv := y, resid := rho, entry := false, restart := false, starts := false
      vref := if l.mode = 2 then none else l.vref, fresh := false
      limited := r != rs, sat := v != u, plaus := (l.plaus || fault) && big
      inval := false, steps := satInc l.steps } }

end Sys2Proof.Machine
end

