-- ==== Sys2Proof/Machine/LoopOps.lean ====
section
/-!
DEFINITION. The loop engine apart from the release and step of a loop: delivery, missed samples, the safe policy, MODE, placement,
tile failure and remap, checkpoints, status and windows (R253 to R293).
-/
namespace Sys2Proof.Machine

def State.onEng (s : State) (f : Engine → Engine) : State := { s with eng := f s.eng }
def State.loop (s : State) (m : Fin 360) : Loop := bget s.eng.loops m
def State.onLoop (s : State) (m : Fin 360) (f : Loop → Loop) : State := s.onEng fun e => { e with loops := bmod e.loops m f }
def State.tile (s : State) (t : Fin 16) : Tile := bget s.eng.tiles t
def State.onTile (s : State) (t : Fin 16) (f : Tile → Tile) : State := s.onEng fun e => { e with tiles := bmod e.tiles t f }

/-- A loop no tile of which is known reports as on tile 0; it is never asked. -/
def Loop.tile (l : Loop) : Fin 16 := (l.place.map (·.1)).getD 0

/-- The loops on a tile, in ascending number. -/
def State.loopsOn (s : State) (t : Fin 16) : List (Fin 360) :=
  (allFin 360).filter fun m => ((s.loop m).place.map (·.1)) == some t

/-- Raises kind k of a tile (R292). -/
def State.raiseTile (s : State) (t : Fin 16) (k : Nat) : State := s.raise (0x20 + t.val) k

/-- Places a loop event (R291). -/
def State.loopEvent (s : State) (type detail : Nat) (t : Fin 16) (loop count : Nat) : State :=
  { s with lq := s.lq.push 256 [wd (type * 2 ^ 32 + detail * 2 ^ 28 + t.val * 2 ^ 24 + loop * 2 ^ 15 + count), s.stamp] }

/-! Delivery (R263, R265) -/

/-- round(y × 65 535) of a SIG value (R263). -/
def dutyOf (y : Int) : Nat := (roundDiv (y * 65535) (2 ^ 30)).toNat

/-- An output is delivered to the sink of a loop as a firmware command (R263). -/
def State.deliver (s : State) (m : Fin 360) (y : Int) : State :=
  let code := s.cfg (loopIdx m) 0x18
  let n := code % 256
  if !s.iop then s
  else match code / 2 ^ 32 with
    | 1 => (s.hsCommand (Fin.ofNat 72 n) (.duty (BitVec.ofNat 16 (dutyOf y)))).2
    | 2 =>
      let k : Fin 8 := Fin.ofNat 8 n
      let dir := if y < 0 then true else if 0 < y then false else (bget s.pairs k).dir
      (s.pairCommand k (pairWord 3 dir (dutyOf y.natAbs))).2
    | 3 => (s.sinkCommand (Fin.ofNat 24 n) (dutyOf y) 0).2
    | _ => s

/-- The sink of a loop is sent OFF, FREE or LEVEL 0 (R278). -/
def State.deliverOff (s : State) (m : Fin 360) : State :=
  let code := s.cfg (loopIdx m) 0x18
  let n := code % 256
  if !s.iop then s
  else match code / 2 ^ 32 with
    | 1 => (s.hsCommand (Fin.ofNat 72 n) .off).2
    | 2 => (s.pairCommand (Fin.ofNat 8 n) (pairWord 1 false 0)).2
    | 3 => (s.sinkCommand (Fin.ofNat 24 n) 0 0).2
    | _ => s

/-- The direction in which the sink of a loop holds back, 0 when it does not (R265, R270): for a pair that of the last output
(log 31), else upwards. -/
def State.holdsBack (s : State) (m : Fin 360) : Int :=
  let code := s.cfg (loopIdx m) 0x18
  let n := code % 256
  match code / 2 ^ 32 with
  | 1 =>
    let w := s.hsStatus (Fin.ofNat 72 n)
    let st := fld w 23 20
    if st = 4 || st = 5 || st = 6 || st = 7 || w.getLsbD 7 || w.getLsbD 4 then 1 else 0
  | 2 =>
    let w := s.pairStatus (Fin.ofNat 8 n)
    let st := fld w 23 20
    if (7 ≤ st && st ≤ 11) || w.getLsbD 18 || w.getLsbD 17 || w.getLsbD 7 || w.getLsbD 4 then
      (if (s.loop m).core.v1 < 0 then -1 else 1) else 0
  | 3 =>
    let w := s.sinkStatus (Fin.ofNat 24 n)
    let st := fld w 23 20
    if st = 4 || st = 5 || w.getLsbD 16 || w.getLsbD 15 then 1 else 0
  | _ => 0

/-! The safe policy and missed samples (R276 to R278) -/

/-- A loop enters its safe policy (R278): kind 4, an entry, the output that SAFE sets; nothing released or pending is left. -/
def State.loopSafe (s : State) (m : Fin 360) (cause : Fin 3) : State :=
  let l := s.loop m
  let x := loopIdx m
  let s1 := ((s.onLoop m fun l => { l with
    safe := some cause, rel := none, out := none, modeReq := false, vref := none, core := { l.core with missc := 0 } }).raiseTile l.tile 4).loopEvent
      2 cause.val l.tile m.val 0
  match s.cfg x 0x1E with
  | 1 =>
    let v := s.cfgI x 0x1F
    (s1.deliver m v).onLoop m fun l => { l with y := v, sent := v }
  | 2 =>
    let y0 := if s.cfg x 0x18 / 2 ^ 32 = 0 then 0 else l.y
    (s1.deliverOff m).onLoop m fun l => { l with y := y0, sent := 0 }
  | _ => s1

/-- A missed sample (R277): detail 0 a step not complete, 1 a stream wait ended, 2 an invalid input; the third in a row leads to the safe
policy (R278). -/
def State.loopMissed (s : State) (m : Fin 360) (detail : Nat) : State :=
  let l := s.loop m
  let n := l.core.missc + 1
  let s1 := ((s.onLoop m fun l => { l with
    rel := none, inval := detail = 2, core := { l.core with missc := n }
    ovrs := if detail = 2 then l.ovrs else satInc l.ovrs
    invs := if detail = 2 then satInc l.invs else l.invs }).raiseTile l.tile 3).loopEvent 1 detail l.tile m.val n
  if 3 ≤ n then s1.loopSafe m 0 else s1

/-! MODE (R273, R279) -/

/-- A write of MODE: it takes effect at the loop's next release, and clears RSM and COLD (R273, R288). -/
def State.loopMode (s : State) (r : Requester) (m : Fin 360) (v : Nat) : Code × State :=
  let s1 := match findRow .loop 1 with
    | some row => s.applyVal r row (loopIdx m) [wd v]
    | none => s
  (okc, s1.onLoop m fun l => { l with modeReq := true, rsm := false, cold := false })

/-- LOOP_MODE_OFF (R273). -/
def execLoopModeOff (r : Requester) (m : Fin 360) (s : State) : Host.Outcome State Fault Refusal :=
  .next (s.objCmd r (loopIdx m) 1 [0] fun t => t.loopMode r m 0)

/-- LOOP_MODE_MANUAL (R273). -/
def execLoopModeManual (r : Requester) (m : Fin 360) (s : State) : Host.Outcome State Fault Refusal :=
  .next (s.objCmd r (loopIdx m) 1 [1] fun t => t.loopMode r m 1)

/-- LOOP_MODE_AUTO (R273, R279). -/
def execLoopModeAuto (r : Requester) (m : Fin 360) (s : State) : Host.Outcome State Fault Refusal :=
  .next (s.objCmd r (loopIdx m) 1 [2] fun t => t.loopMode r m 2)

/-- A written MODE takes effect at a release (R267, R273, R274, R275, R279). -/
def State.loopEnter (s : State) (m : Fin 360) : State :=
  let l := s.loop m
  let v : Fin 3 := Fin.ofNat 3 (s.cfg (loopIdx m) 1)
  if !l.modeReq then s
  else
    let was : Fin 3 := if l.safe.isSome then 0 else l.mode
    let s1 := if was = 2 && v = 1 then s.keepObj (loopIdx m) 0x1C [BitVec.ofInt 36 (if l.vref.isSome then l.sent else l.core.v1)] else s
    s1.onLoop m fun l => { l with
      mode := v, modeReq := false, safe := none
      entry := l.entry || (v != 0 && v != was), restart := l.restart || (v != 0 && was = 0)
      vref := if v != 2 then none else if was = 2 then l.vref else some l.sent }

/-! Placement (R95, R258, R284) -/

/-- Cycles in a second that loops of the given periods cost a tile, with its upkeep (R95). -/
def tileCycles (periods : List Nat) : Rat := (periods.map fun ts => mkRat 4800000000 ts).foldl (· + ·) 2048000

/-- A tile within 85 % (R85). -/
def tileFits (periods : List Nat) : Bool := decide (tileCycles periods ≤ 170000000)

/-- What tile t carries besides loop m, as periods and waits: the loops placed on it and those reserved for it (R87). -/
def State.tileLoad (s : State) (t : Fin 16) (m : Fin 360) : List (Nat × Bool) :=
  (allFin 360).filterMap fun n =>
    if n = m then none
    else
      let placed := ((s.loop n).place.map (·.1)) == some t
      match placed, s.eng.resv.find? fun r => r.loop == n && r.tile == t with
      | false, none => none
      | true, none => some (s.cfg (loopIdx n) 5, s.cfg (loopIdx n) 0x1D != 0)
      | false, some r => some (r.ts, r.waits)
      | true, some r => some (Nat.min r.ts (s.cfg (loopIdx n) 5), r.waits || s.cfg (loopIdx n) 0x1D != 0)

/-- A loop may go on a tile: scheduled, fewer than 24 loops, at most 4 that wait, within 85 % (R95, R258). -/
def State.tileTakes (s : State) (t : Fin 16) (m : Fin 360) (ts : Nat) (waits : Bool) : Bool :=
  let on := s.tileLoad t m
  (s.tile t).role == .scheduled && on.length < 24 && tileFits (ts :: on.map (·.1)) &&
    (!waits || (on.filter (·.2)).length < 4)

/-- The tile of the lowest utilisation in a list, the lowest number among equals. -/
def State.leastTile (s : State) (m : Fin 360) : List (Fin 16) → Option (Fin 16)
  | [] => none
  | t :: r => some (r.foldl (fun b u =>
      if tileCycles ((s.tileLoad u m).map (·.1)) < tileCycles ((s.tileLoad b m).map (·.1)) then u else b) t)

/-- Where a loop goes (R95): a loop that is placed keeps its tile where it still fits. -/
def State.findTile (s : State) (m : Fin 360) (ts : Nat) (waits : Bool) : Option (Fin 16) :=
  match (s.loop m).place with
  | some (t, _) => if s.tileTakes t m ts waits then some t else none
  | none => s.leastTile m ((allFin 16).filter fun t => s.tileTakes t m ts waits)

/-- The tile that came closest: the scheduled tile of the lowest utilisation (R95, log 32). -/
def State.closestTile (s : State) (m : Fin 360) : Nat :=
  match (s.loop m).place with
  | some (t, _) => 0x20 + t.val
  | none => 0x20 + ((s.leastTile m ((allFin 16).filter fun t => (s.tile t).role == .scheduled)).getD 0).val

/-- The lowest free slot of a tile. -/
def State.freeSlot (s : State) (t : Fin 16) : Fin 24 :=
  ((allFin 24).find? fun j => !(s.loopsOn t).any fun m => (s.loop m).place == some (t, j)).getD 0

/-- What a loop holds when it starts from zero on a tile, at the earliest at `from_`. -/
def Loop.start (l : Loop) (p : Fin 16 × Fin 24) (mode : Fin 3) (from_ : Nat) : Loop :=
  { l with place := some p, refused := false, mode := mode, modeReq := false, safe := none, core := LoopCore.zero, delay := List.replicate 15 0
           entry := mode != 0, restart := mode != 0, starts := true, vref := if mode = 2 then some l.sent else none, fresh := false
           limited := false, sat := false, plaus := false, inval := false, lastRel := none, lastOk := none, rel := none, out := none
           ckpt := none, held := false, from_ := from_, remap := false }

/-- After a commit of bundle 0x2500 + m has applied: an enabled loop takes the tile reserved for it, a disabled one leaves its tile, any
other starts under its new bundle (R95, R274). -/
def State.loopFollow (s : State) (m : Fin 360) : State :=
  let l := s.loop m
  let s1 := s.onEng fun e => { e with resv := e.resv.filter (·.loop != m) }
  if !s.cfgB (loopIdx m) 2 then
    s1.onLoop m fun l => { l with place := none, refused := false, safe := none, rel := none, out := none, held := false }
  else match l.place, (s.eng.resv.find? (·.loop == m)).map (·.tile) with
    | some _, _ => s1.onLoop m fun l => { l with fresh := l.mode = 2 }
    | none, some t => s1.onLoop m fun l => l.start (t, s1.freeSlot t) (Fin.ofNat 3 (s.cfg (loopIdx m) 1)) s.now
    | none, none => s1.onLoop m fun l => { l with refused := true }

/-! Tile failure and remap (R281 to R286) -/

/-- The spare tile that no remap has claimed. -/
def State.spareTile (s : State) : Option (Fin 16) :=
  (allFin 16).find? fun t => (s.tile t).role == .spare && !(s.eng.remap.any (·.spare == t))

/-- A contract miss of a loop (R105, R108). -/
def State.loopMiss (s : State) (m : Fin 360) (cause blk : Nat) : State := s.admEvent 1 1 m.val cause 0 blk

/-- The loops of a failed tile without a spare (R284): safe policy with SCAUSE 2, kind 7, to be placed again at the next strobe. -/
def State.noSpare (s : State) (t : Fin 16) : State :=
  let ms := s.loopsOn t
  let s1 := ms.foldl (fun st m => (st.onLoop m fun l => { l with held := false }) |> fun u => if (u.loop m).safe.isSome then u else u.loopSafe m 2) (s.raiseTile t 7)
  s1.onEng fun e => { e with again := e.again ++ ms }

/-- The loops of a tile that is lost go to a spare (R283), or to their safe policy (R284). -/
def State.tileLost (s : State) (t : Fin 16) : State :=
  match s.eng.remap with
  | some r =>
    if r.spare = t then (s.onEng fun e => { e with remap := none }).noSpare (if r.strobe.isSome then t else r.tile)
    else if (s.loopsOn t).isEmpty then s else s.noSpare t
  | none =>
    if (s.loopsOn t).isEmpty then s
    else match s.spareTile with
      | some sp => s.onEng fun e => { e with remap := some { tile := t, spare := sp, failed := s.now, strobe := none } }
      | none => s.noSpare t

/-- A tile fails (R281, R283, R284): it halts, its loops' outputs are held, kind 0 and a tile-failed entry; each of its loops raises a
contract miss with CAUSE 4. -/
def State.tileFail (s : State) (t : Fin 16) : State :=
  if (s.tile t).role == .failed then s
  else
    let ms := s.loopsOn t
    let s1 := ((s.onTile t fun x => { x with role := .failed, again := none }).raiseTile t 0).loopEvent 4 0 t 0x1FF ms.length
    let s2 := ms.foldl (fun st m => (st.onLoop m fun l => { l with rel := none, out := none, held := l.safe.isNone }).loopMiss m 4 (0x20 + t.val)) s1
    s2.tileLost t

/-- TILE_FAILURE (R281). -/
def execTileFailure (t : Fin 16) (s : State) : Host.Outcome State Fault Refusal :=
  .next (if s.up 3 then s.tileFail t else s)

/-- A loop takes a checkpoint's state, or starts from zero with COLD set and a preset to `v`, which stands for the output last sent (R283, R286). -/
def Loop.restore (l : Loop) (ok : Bool) (v : Int) : Loop :=
  match l.ckpt, ok with
  | some c, true => { l with core := c.core, delay := List.replicate 15 l.sent }
  | _, _ => { l with core := LoopCore.zero, delay := List.replicate 15 v, sent := v, cold := true, entry := l.mode != 0, restart := l.mode != 0
                     starts := true, vref := if l.mode = 2 then some v else none }

/-- REMAP_LOAD_DONE (R283): by S + 20 µs the spare has loaded every loop; each steps from its first sample instant after that. -/
def execRemapLoadDone (s : State) : Host.Outcome State Fault Refusal :=
  match s.eng.remap with
  | some { tile := _, spare := sp, failed := _, strobe := some b } =>
    let s1 := s.at (b + usT 20)
    let load (l : Loop) : Loop := l.restore ((l.ckpt.map (·.valid)).getD false) l.sent
    let s2 := (s1.loopsOn sp).foldl (fun st m => st.onLoop m fun l =>
      if l.held then { load l with held := false, remap := true, from_ := b + usT 20 } else if l.safe.isSome then load l else l) s1
    .next (s2.onEng fun e => { e with remap := none })
  | _ => .next s

/-- The remap strobe, the first at least 20 µs after the failure: the spare takes the failed tile's place and its loops' slots (R283). -/
def State.remapStrobe (s : State) : State :=
  match s.eng.remap with
  | some { tile := t, spare := sp, failed := f, strobe := none } =>
    if s.now < f + usT 20 then s
    else
      let s1 := (s.loopsOn t).foldl (fun st m => st.onLoop m fun l => { l with place := l.place.map fun p => (sp, p.2) }) s
      (s1.onTile sp fun x => { x with role := .scheduled }).onEng fun e =>
        { e with remap := some { tile := t, spare := sp, failed := f, strobe := some s.now } }
  | _ => s

/-- A loop of a failed tile is placed again; one that fits nowhere takes STATE 6 and raises a re-admission event (R284). -/
def State.replace (s : State) (m : Fin 360) : State :=
  let s0 := s.onLoop m fun l => { l with place := none }
  match s0.findTile m (s.cfg (loopIdx m) 5) (s.cfg (loopIdx m) 0x1D != 0) with
  | some t => s0.onLoop m fun l => { l with place := some (t, s0.freeSlot t) }
  | none => (s0.onLoop m fun l => { l with refused := true, safe := none }).admEvent 5 1 m.val 0 0x06 (s0.closestTile m)

/-- At each base-cycle strobe (R282, R283, R284): checkpoints, the remap, loops placed again, and the retry count. -/
def State.engStrobe (s : State) : State :=
  if !s.up 3 then s
  else
    let n := s.now / 100000
    let s1 := s.onEng fun e => { e with
      loops := ball e.loops fun _ l => match l.place with
        | some (t, _) => if (bget e.tiles t).role == .scheduled && !l.held then { l with ckpt := some { core := l.core, cycle := n, valid := true } } else l
        | none => l
      tiles := ball e.tiles fun _ x =>
        { x with retryPub := x.retry, retry := 0, cycle := if x.role == .scheduled then wd n else x.cycle } }
    let s2 := s1.remapStrobe
    ((allFin 360).filter s2.eng.again.contains).foldl (fun st m => st.replace m) (s2.onEng fun e => { e with again := [] })

/-- The self-test of a tile, whose outcome no command reports: a free value (R285, log 7). -/
def State.selfTest (s : State) (t : Fin 16) : State :=
  let (i, s1) := s.draw
  if (Config.freeWord i).getLsbD 0 && s1.spareTile.isNone then (s1.onTile t fun x => { x with role := .spare }).raiseTile t 8 else s1

/-- A loop at the release of its tile (R286): it restores its last checkpoint, where it is valid and at most 100 base cycles old, and starts
in its saved MODE at its first sample instant at least 20 µs later. -/
def State.loopBack (s : State) (m : Fin 360) : State :=
  let n := s.now / 100000
  s.onLoop m fun l =>
    let mode : Fin 3 := Fin.ofNat 3 (s.cfg (loopIdx m) 1)
    let l1 := { l with mode := mode, modeReq := false, safe := none, rel := none, out := none, held := false, from_ := s.now + usT 20
                       ovrs := 0, invs := 0, steps := 0, lastRel := none, lastOk := none, remap := false, plaus := false, limited := false
                       sat := false, inval := false, entry := false, restart := false, fresh := false, vref := none, rsm := false, cold := false }
    if l.place.isSome then l1.restore (l.ckpt.any fun c => c.valid && n ≤ c.cycle + 100) (s.cfgI (loopIdx m) 0x1F) else l1

/-- The release of ENG (R285, R286): failed tiles run their self-test, and every loop starts again.  Loops that still stand on a tile that is not
scheduled go where R283 and R284 send them (log 31). -/
def State.engRelease (s : State) : State :=
  let s1 := (allFin 16).foldl (fun st t => if (st.tile t).role == .failed then st.selfTest t else st) s
  let s2 := { ((allFin 360).foldl State.loopBack s1) with lq := EvQ.empty }
  (allFin 16).foldl (fun st t =>
    if (st.tile t).role == .scheduled || (st.loopsOn t).isEmpty then st
    else ((st.loopsOn t).foldl (fun u m => u.onLoop m fun l => { l with held := true }) st).tileLost t) s2

/-- The release of a tile alone (R285, R286, R521) ends in its self-test, whose outcome is a free value (log 7): one that passes restores its
loops. -/
def State.tileRelease (s : State) (t : Fin 16) : State :=
  if (s.tile t).role == .failed then s.selfTest t
  else
    let (i, s1) := s.draw
    if (Config.freeWord i).getLsbD 0 then (s1.loopsOn t).foldl State.loopBack s1 else s1.tileFail t

/-! Status and windows (R288 to R290) -/

/-- STATE of a loop. -/
def State.loopState (s : State) (m : Fin 360) : Nat :=
  let l := s.loop m
  if l.refused then 6 else if l.place.isNone then 0 else if l.safe.isSome then 4 else if l.held then 5 else l.mode.val + 1

/-- STATUS (obj 0x2500 + m.03). -/
def State.loopStatus (s : State) (m : Fin 360) : Word :=
  let l := s.loop m
  wd (s.loopState m * 2 ^ 20 + (l.safe.map (·.val)).getD 0 * 2 ^ 18 + l.core.region.val * 2 ^ 15 + b1 l.limited * 2 ^ 14 + b1 (l.sat || (l.place.isSome && s.holdsBack m != 0)) * 2 ^ 13 +
    b1 l.plaus * 2 ^ 12 + b1 l.rsm * 2 ^ 11 + b1 l.cold * 2 ^ 10 + min 2 l.core.missc * 2 ^ 8 + b1 l.inval * 2 ^ 7 +
    b1 (l.rel.any (·.inputs.isNone)) * 2 ^ 6)

/-- PLACE. -/
def Loop.placeWord (l : Loop) : Nat := (l.place.map fun p => p.1.val * 256 + p.2.val).getD 0xFFFF

/-- TSTAT (R290). -/
def State.tstat (s : State) (t : Fin 16) : Word :=
  let x := s.tile t
  let role := match x.role with | .scheduled => 0 | .spare => 1 | .failed => 2
  let ms := s.loopsOn t
  let util := if x.role == .scheduled then (tileCycles (ms.map fun m => s.cfg (loopIdx m) 5) / 200000).floor.toNat else 0
  wd (role * 2 ^ 28 + ms.length * 2 ^ 23 + util * 2 ^ 12 + min 11 x.retryPub * 2 ^ 8)

/-- ENGST. -/
def State.engst (s : State) : Word :=
  match (allFin 16).find? fun t => (s.tile t).role == .spare with
  | some t => wd t.val
  | none => wd 16

/-- The window of block 0x20 + t (R290), but for LEVQ, whose read takes a word. -/
def State.tileWindow (s : State) (t : Fin 16) (off : Nat) : Word :=
  match off with
  | 0x00 => s.tstat t
  | 0x01 => (s.tile t).cycle
  | 0x11 => if t = 0 then wd s.lq.words else 0
  | 0x12 => if t = 0 then s.lq.lost else 0
  | 0x13 => if t = 0 then s.engst else 0
  | _ => 0

/-- The words of a STATE value, [71:36] first. -/
def stateWords (x : Int) : List Word := [BitVec.ofInt 36 (x / 2 ^ 36), BitVec.ofInt 36 x]

/-- The sixteen working-state words (R289). -/
def LoopCore.words (c : LoopCore) : List Word :=
  stateWords c.i ++ stateWords c.s2 ++ ([c.d, c.v, c.y1, c.v1, c.r1, c.qh].map (BitVec.ofInt 36)) ++
    [wd (c.region.val * 2 ^ 33 + min 3 c.missc * 2 ^ 31 + c.overs * 2 ^ 15), BitVec.ofInt 36 c.sigma, 0, 0, 0, 0]

/-- The word at an offset of a tile's state memory (R289); none where the spec gives the place no layout (log 33). -/
def State.tileWord (s : State) (t : Fin 16) (off : Nat) : Option Word :=
  if off < 0x100 then none
  else
    let slot := (off - 0x100) / 0xA0
    let o := (off - 0x100) % 0xA0
    match (s.loopsOn t).find? fun m => ((s.loop m).place.map (·.2.val)) == some slot with
    | none => none
    | some m =>
      let l := s.loop m
      if 0x20 ≤ o && o < 0x60 then some ((s.obj (loopIdx m) 0x17).getD (o - 0x20) 0)
      else if 0x60 ≤ o && o < 0x68 then some ((s.obj (loopIdx m) 0x16).getD (o - 0x60) 0)
      else if 0x68 ≤ o && o < 0x78 then some (l.core.words.getD (o - 0x68) 0)
      else if 0x88 ≤ o && o < 0x98 then l.ckpt.map fun c => c.core.words.getD (o - 0x88) 0
      else if o = 0x98 then l.ckpt.map fun c => wd c.cycle
      else none

end Sys2Proof.Machine
end

