-- ==== Sys2Proof/Machine/Miss.lean ====
section
/-!
DEFINITION. Contract-miss events (R105, R106, R108).
-/
namespace Sys2Proof.Machine

/-- The object index of a contract. -/
def ctIdx (n : Fin 256) : Nat := 0x1100 + n.val

/-- The state of contract n. -/
def State.ct (s : State) (n : Fin 256) : Contract := bget s.adm.ct n
def State.onCt (s : State) (n : Fin 256) (f : Contract → Contract) : State := s.onAdm fun a => { a with ct := bmod a.ct n f }

/-- The block and queue of an endpoint code (R90). -/
def epBlock (code : Nat) : Nat := code / 256 % 128
def epQueue (code : Nat) : Nat := code % 256

/-- A flow raises one contract-miss event: MISSES and LASTMISS follow (R105, R108). -/
def State.flowMiss (s : State) (n : Fin 256) (cause blk : Nat) : State :=
  if !s.up 2 then s
  else (s.admEvent 1 0 n.val cause 0 blk).onCt n fun c => { c with misses := satInc c.misses, lastMiss := s.stamp, missAt := some s.now }

/-- A load's code that an item acts on lies with the item's sink: the endpoint codes of a loop's stream inputs (R260). -/
def State.loopStreams (s : State) (m : Fin 360) : List Nat :=
  ([0x07, 0x0A, 0x0F, 0x12].map fun sub => s.cfg (loopIdx m) sub).filterMap fun w =>
    if w / 2 ^ 32 = 2 then some (w / 65536 % 65536) else none

/-- The block of the sink that a sink code names (R263). -/
def loopSinkOf (w : Nat) : Option Nat :=
  match w / 2 ^ 32 with
  | 1 => some (0x30 + w % 256 / 8)
  | 2 => some (0x39 + w % 256 / 4)
  | 3 => some 0x40
  | _ => none

/-- The block of the sink that a loop names (R263). -/
def State.loopSinkBlock (s : State) (m : Fin 360) : Option Nat := loopSinkOf (s.cfg (loopIdx m) 0x18)

/-- A contract miss of a sequencer's program set, and of a speedwell rule (R108). -/
def State.seqMiss (s : State) (n : Fin 16) (cause blk : Nat) : State := s.admEvent 1 3 n.val cause 0 blk
def State.ruleMiss (s : State) (n cause blk : Nat) : State := s.admEvent 1 2 n cause 0 blk

/-- An admitted program set with a binding whose block satisfies a condition (R328). -/
def State.seqTouches (s : State) (n : Fin 16) (p : Nat → Bool) : Bool :=
  (bget s.seqs n).admitted && (bget s.seqs n).started && (allFin 8).any fun b => (s.binding n b).any fun k => p k.1

/-- An enabled rule of a reserved table whose target's load satisfies a condition on its code (R111). -/
def State.ruleTouches (s : State) (n : Nat) (p : Nat → Bool) : Bool :=
  ruleOn (s.rule n) && !s.adm.unres && fld (s.rule n).2 15 8 ≤ 0x63 && p (fld (s.rule n).2 15 8)

/-- What an exception reaches (R105): flows, loops, program sets and rules. -/
structure Reach where
  flow : Fin 256 → Bool
  loop : Fin 360 → Bool
  seq  : Fin 16 → Bool
  rule : Nat → Bool

/-- Every admitted item in the reach raises one contract-miss event (R105). -/
def State.missItems (s : State) (r : Reach) (cause blk : Nat) : State :=
  let s1 := (allFin 256).foldl (fun st n => if (st.ct n).inForce && r.flow n then st.flowMiss n cause blk else st) s
  let s2 := (allFin 360).foldl (fun st m => if (st.loop m).place.isSome && r.loop m then st.loopMiss m cause blk else st) s1
  let s3 := (allFin 16).foldl (fun st n => if r.seq n then st.seqMiss n cause blk else st) s2
  (List.range 256).foldl (fun st n => if r.rule n then st.ruleMiss n cause blk else st) s3

/-- Every admitted item (R428, R538). -/
def State.everyItem (s : State) : Reach :=
  { flow := fun _ => true, loop := fun _ => true, seq := fun n => s.seqTouches n fun _ => true, rule := fun n => s.ruleTouches n fun _ => true }

/-- A flow with an endpoint that satisfies a condition. -/
def State.flowTouches (s : State) (n : Fin 256) (p : Nat → Bool) : Bool := p (s.cfg (ctIdx n) 1) || p (s.cfg (ctIdx n) 2)

/-- Every admitted item with an endpoint on a medium misses (R105, causes 1 and 2). -/
def State.mediumMiss (s : State) (blk cause : Nat) : State :=
  s.missItems { flow := fun n => s.flowTouches n (epBlock · == blk), loop := fun m => (s.loopStreams m).any (epBlock · == blk)
                seq := fun n => s.seqTouches n (· == blk), rule := fun _ => false } cause blk

/-- Items whose path or load lies in one of a set of blocks (R105, causes 3 and 4): a flow's endpoints, a loop's streams, sink and tile, a
program's sequencer and bindings, a rule's target. -/
def State.itemsIn (s : State) (p : Nat → Bool) : Reach :=
  { flow := fun n => s.flowTouches n (p <| epBlock ·)
    loop := fun m => (s.loopStreams m).any (p <| epBlock ·) || (s.loopSinkBlock m).any p || (s.loop m).place.any fun t => p (0x20 + t.1.val)
    seq := fun n => s.seqTouches n p || (p (0x10 + n.val) && s.seqTouches n fun _ => true)
    rule := fun n => s.ruleTouches n fun code => p (loadBlock code) }

end Sys2Proof.Machine
end

