-- ==== Sys2Proof/Machine/Octets.lean ====
section
/-!
DEFINITION. The words of a flow whose source is an endpoint (R383).
-/
namespace Sys2Proof.Machine

/-- The admitted flow whose source is an endpoint takes a frame's words within its RATE and BURST, and the endpoint queue holds them; none
where they exceed them (R383). -/
def State.flowFrame (s : State) (n : Fin 256) (ws : List Word) : Option State :=
  let c := s.ct n
  let full := s.cfg (ctIdx n) 5 * 100000000
  let have_ := Nat.min full (c.tok + s.cfg (ctIdx n) 4 * (s.now - c.tokAt))
  let need := ws.length * 100000000
  if have_ < need then none
  else some ((s.onCt n fun c => { c with tok := have_ - need, tokAt := s.now }).toFlow n ws)

/-- The admitted flow whose sink is an endpoint. -/
def State.flowTo (s : State) (sink : Nat) : Option (Fin 256) :=
  (allFin 256).find? fun n => (s.ct n).inForce && s.cfg (ctIdx n) 2 = sink

/-- The admitted flow whose source is an endpoint. -/
def State.flowOf (s : State) (src : Nat) : Option (Fin 256) :=
  (allFin 256).find? fun n => (s.ct n).inForce && s.cfg (ctIdx n) 1 = src

end Sys2Proof.Machine
end

