-- ==== Sys2Proof/Machine/Can.lean ====
section
/-!
DEFINITION. CAN FD channels (R374 to R391, R396): buffers, filters, control words, arbitration, error confinement and bit-rate
detection.
-/
namespace Sys2Proof.Machine

def canIdx (ch : Fin 8) : Nat := 0x3000 + ch.val
def canBlk (ch : Fin 8) : Nat := 0x48 + ch.val
def State.can (s : State) (ch : Fin 8) : CanCh := bget s.cans ch
def State.onCan (s : State) (ch : Fin 8) (f : CanCh → CanCh) : State := { s with cans := bmod s.cans ch f }
def State.raiseCan (s : State) (ch : Fin 8) (k : Nat) : State := s.raise (canBlk ch) k

/-- The address of word i of buffer b (R374, R377). -/
def canBuf (ch : Fin 8) (b : Fin 66) (i : Nat) : Nat := 0x860000 + ch.val * 0x600 + 20 * b.val + i

/-- The configuration word of a buffer (R378). -/
def State.bufcfg (s : State) (ch : Fin 8) (b : Fin 66) : Word := (s.obj (canIdx ch) 6).getD b.val 0

def State.bufRx (s : State) (ch : Fin 8) (b : Fin 66) : Bool := (s.bufcfg ch b).getLsbD 35 && !(s.bufcfg ch b).getLsbD 34
def State.bufTx (s : State) (ch : Fin 8) (b : Fin 66) : Bool := (s.bufcfg ch b).getLsbD 35 && (s.bufcfg ch b).getLsbD 34

/-- In recovery mode ROM runs CAN0 for ZOP, at its default bit timing (R567). -/
def State.canRom (s : State) (ch : Fin 8) : Bool := s.upd.recov && ch = 0

/-- MODE and FDMODE as the channel runs. -/
def State.canMode (s : State) (ch : Fin 8) : Nat := if s.canRom ch then 1 else s.cfg (canIdx ch) 1
def State.canFd (s : State) (ch : Fin 8) : Nat := if s.canRom ch then 1 else s.cfg (canIdx ch) 3

/-- The identifier words of requests and of responses (R379, R384, R567). -/
def State.zopRx (s : State) (ch : Fin 8) : Word :=
  if s.canRom ch then wd (2 ^ 35 + (0x640 + s.duo.casc.val) * 2 ^ 18) else (s.obj (canIdx ch) 0x0D).headD 0
def State.zopTx (s : State) (ch : Fin 8) : Word :=
  if s.canRom ch then wd (2 ^ 35 + (0x648 + s.duo.casc.val) * 2 ^ 18) else (s.obj (canIdx ch) 0x0E).headD 0

/-- Octets of a data length code (ISO 11898-1). -/
def dlcOctets (fdf : Bool) (dlc : Nat) : Nat :=
  if fdf then [0, 1, 2, 3, 4, 5, 6, 7, 8, 12, 16, 20, 24, 32, 48, 64].getD dlc 0 else min dlc 8

/-- The octets of data a frame carries. -/
def frameCount (f : CanFrame) : Nat := if f.rtr then 0 else dlcOctets f.fdf f.dlc.toNat

/-- The endpoint code of a buffer (R90). -/
def canEp (ch : Fin 8) (b : Fin 66) : Nat := canBlk ch * 256 + b.val

/-! Filters (R379) -/

/-- A frame matches a filter of two words. -/
def filterHits (w0 w1 : Word) (f : CanFrame) : Bool :=
  let fmt := fld w0 33 32
  w0.getLsbD 35 && w0.getLsbD 34 == f.ide && (fmt = 0 || (fmt = 1 && !f.fdf) || (fmt = 2 && f.fdf)) &&
    ((f.id ^^^ w0.truncate 29) &&& w1.truncate 29) == 0#29

/-- A frame carries an identifier given as obj 0x0D and 0x0E give it. -/
def idHits (w : Word) (f : CanFrame) : Bool := w.getLsbD 35 && w.getLsbD 32 == f.ide && f.id == w.truncate 29

/-- Where a frame goes. -/
inductive CanDest where
  | zop
  | buffer (b : Fin 66) (filt : Nat)
  | nowhere
  deriving DecidableEq, Repr

/-- The first match decides (R379). -/
def State.canRoute (s : State) (ch : Fin 8) (f : CanFrame) : CanDest :=
  let x := canIdx ch
  let h (sub : Nat) : Bool := filterHits ((s.obj x sub).getD 0 0) ((s.obj x sub).getD 1 0) f
  let t := s.obj x 7
  if idHits (s.zopRx ch) f then .zop
  else if h 8 then .buffer 64 0x7F
  else if h 9 then .buffer 65 0x7F
  else match (List.range 128).find? fun i => filterHits (t.getD (2 * i) 0) (t.getD (2 * i + 1) 0) f with
    | some i => .buffer (Fin.ofNat 66 (fld (t.getD (2 * i + 1) 0) 35 30)) i
    | none => .nowhere

/-! Buffers (R377, R381, R382, R383) -/

/-- Words 0 and 1 of a frame. -/
def frameWord0 (f : CanFrame) : Word := wd (b1 f.ide * 2 ^ 32 + b1 f.fdf * 2 ^ 31 + b1 f.brs * 2 ^ 30 + b1 f.esi * 2 ^ 29 + f.id.toNat)
def frameWord1 (f : CanFrame) (filt : Nat) (lost : Bool) : Word :=
  wd (f.dlc.toNat * 2 ^ 32 + filt * 2 ^ 25 + b1 lost * 2 ^ 24 + b1 f.rtr * 2 ^ 23)

/-- The words of a received frame on a flow (R382). -/
def flowWords (pack : Nat) (head : List Word) (os : List Byte) : List Word :=
  match pack with
  | 0 => head ++ packFrame os
  | 1 => packPlain os
  | _ => packBits os

/-- A frame is lost: DROPS, kind 5, and LOST for the next frame stored (R381, R383). -/
def State.canDrop (s : State) (ch : Fin 8) (b : Fin 66) (mark : Bool) : State :=
  (s.onCan ch fun c => { c with drops := satInc c.drops, lost := if mark then c.lost ||| BitVec.ofNat 66 (2 ^ b.val) else c.lost }).raiseCan ch 5

/-- A received frame reaches its buffer (R381, R383): a flow-fed buffer sends it on and sets no NEW. -/
def State.canStore (s : State) (ch : Fin 8) (b : Fin 66) (filt : Nat) (f : CanFrame) : State :=
  let c := s.can ch
  let cfg := s.bufcfg ch b
  let flow := s.flowOf (canEp ch b)
  let unread := flow.isNone && c.new.getLsbD b.val
  let os := (f.data ++ List.replicate 64 0).take (frameCount f)
  let s0 := if unread then s.canDrop ch b true else s
  if unread && !cfg.getLsbD 31 then s0
  else
    let head := [frameWord0 f, frameWord1 f filt (c.lost.getLsbD b.val), s.stamp]
    let s1 := s0.onMem fun m => memWriteN (memWriteN m (canBuf ch b 0) head) (canBuf ch b 3) (packFrame os)
    let s2 := s1.onCan ch fun c => { c with lost := if unread then c.lost else c.lost &&& ~~~(BitVec.ofNat 66 (2 ^ b.val)) }
    match flow with
    | none => s2.onCan ch fun c => { c with new := c.new ||| BitVec.ofNat 66 (2 ^ b.val) }
    | some n => (s2.flowFrame n (flowWords (fld cfg 33 32) head os)).getD (s2.canDrop ch b false)

/-- Error passive: TEC or REC of 128 or more (ISO 11898-1). -/
def CanCh.passive (c : CanCh) : Bool := 128 ≤ c.tecnt || 128 ≤ c.recnt

/-- A frame of the channel's own is on the bus. -/
def CanCh.sends (c : CanCh) : Bool := c.bus.isSome || c.zbus

/-- A channel takes part in bus traffic: NET released, not off, integrated, not bus-off. -/
def State.canLive (s : State) (ch : Fin 8) : Bool :=
  let c := s.can ch
  s.up 5 && s.canMode ch != 0 && c.ready && !c.busoff

/-- REC after a frame received without error: one less, and from above 127 a value from 119 to 127 that ISO 11898-1 leaves open (log 7). -/
def State.recDown (s : State) (ch : Fin 8) : State :=
  let c := s.can ch
  if 127 < c.recnt then
    let (i, s1) := s.draw
    s1.onCan ch fun c => { c with recnt := 119 + (Config.freeWord i).toNat % 9 }
  else s.onCan ch fun c => { c with recnt := c.recnt - 1 }

/-- Bit-rate detection takes an enabled candidate after `from_`, in ascending index and round again (R388). -/
def State.abdNext (s : State) (ch : Fin 8) (from_ : Nat) : Nat :=
  let t := s.obj (canIdx ch) 0x13
  (((List.range 8).map fun i => (from_ + 1 + i) % 8).find? fun i => (t.getD (2 * i) 0).getLsbD 3).getD 0

/-- The search moves to its next candidate. -/
def State.abdMove (s : State) (ch : Fin 8) : State :=
  s.onCan ch fun c => { c with cand := s.abdNext ch c.cand, candAt := s.now, good := 0 }

/-- The search of MODE 3 runs. -/
def State.abdRuns (s : State) (ch : Fin 8) : Bool := s.canMode ch = 3 && (s.can ch).abdres = 0xFF

/-- A frame without error in MODE 3 (R388): the candidate stays; after ABDN of them ABDRES takes it and kind 8 is raised. -/
def State.abdGood (s : State) (ch : Fin 8) : State :=
  if !s.abdRuns ch then s
  else
    let s1 := s.onCan ch fun c => { c with good := c.good + 1, candAt := s.now }
    if s.cfg (canIdx ch) 0x14 ≤ (s.can ch).good + 1 then
      (s1.onCan ch fun c => { c with abdres := satByte c.cand }).raiseCan ch 8
    else s1

/-! Requests (R381, R384, R385) -/

/-- A request ends: word 19 and STAMP are written, then NEW is set. -/
def State.canEnd (s : State) (ch : Fin 8) (b : Fin 66) (done noack : Bool) : State :=
  let c := s.can ch
  let w := wd (b1 done * 2 ^ 35 + b1 (!done) * 2 ^ 34 + min 31 (bget c.att b) * 2 ^ 29 + b1 noack * 2 ^ 28)
  let bit := BitVec.ofNat 66 (2 ^ b.val)
  (s.onMem fun m => memWrite (memWrite m (canBuf ch b 19) w) (canBuf ch b 2) s.stamp).onCan ch fun c =>
    { c with new := c.new ||| bit, req := c.req &&& ~~~bit, att := bset c.att b 0 }

/-- The buffers that a write of control bits names (R380). -/
def ctlMask (m : CtlBits) : BitVec 66 :=
  if m.hi then (m.bits &&& 0x3FFFFFFF).setWidth 66 <<< 36 else m.bits.setWidth 66

/-- Does f for every buffer of a mask. -/
def forBufs (m : BitVec 66) (f : Fin 66 → State → State) (s : State) : State := forMask m f s

/-- A transmission is requested for a buffer in use for transmission (R380, log 41). -/
def State.canRequest (s : State) (ch : Fin 8) (b : Fin 66) : State :=
  if s.bufTx ch b && !(s.can ch).req.getLsbD b.val then
    s.onCan ch fun c => { c with req := c.req ||| BitVec.ofNat 66 (2 ^ b.val), att := bset c.att b 0 }
  else s

/-- A request is aborted (R381): at once, or after the attempt on the bus. -/
def State.canAbort (s : State) (ch : Fin 8) (b : Fin 66) : State :=
  let c := s.can ch
  if !c.req.getLsbD b.val then s
  else if c.bus = some b then s.onCan ch fun c => { c with abort := true }
  else s.canEnd ch b false false

/-- A requester that can reach memory (R29, R53). -/
def reachesMem : Requester → Bool
  | .pair _ => true
  | .debug => true
  | _ => false

/-- Blocks accept new work: not during an entry (R428). -/
def State.accepts (s : State) : Bool := s.up 5 && s.pwr.mode != .entering

/-- A write of TXREQ bits (R380). -/
def State.canAsk (s : State) (ch : Fin 8) (m : CtlBits) : State :=
  if s.accepts then forBufs (ctlMask m) (fun b st => st.canRequest ch b) s else s

/-- CAN_TX_REQUEST (R380, R381, R428). -/
def execCanTxRequest (r : Requester) (ch : Fin 8) (m : CtlBits) (s : State) : Host.Outcome State Fault Refusal :=
  .next (if reachesMem r then s.canAsk ch m else s)

/-- CAN_TX_ABORT (R380, R381). -/
def execCanTxAbort (r : Requester) (ch : Fin 8) (m : CtlBits) (s : State) : Host.Outcome State Fault Refusal :=
  .next (if reachesMem r && s.up 5 then forBufs (ctlMask m) (fun b st => st.canAbort ch b) s else s)

/-- NEW bits cleared (R380). -/
def State.canNewClear (s : State) (ch : Fin 8) (m : CtlBits) : State := s.onCan ch fun c => { c with new := c.new &&& ~~~(ctlMask m) }

/-- CAN_NEW_CLEAR (R380). -/
def execCanNewClear (r : Requester) (ch : Fin 8) (m : CtlBits) (s : State) : Host.Outcome State Fault Refusal :=
  .next (if reachesMem r && s.up 5 then s.canNewClear ch m else s)

/-- The arbitration field of a word laid out as buffer word 0 (R377, R384): a base identifier is bits 28 to 18 alone. -/
def arbField (w : Word) : BitVec 29 := if w.getLsbD 32 then w.truncate 29 else w.truncate 29 &&& 0x1FFC0000

/-- The frame that a transmit buffer holds. -/
def State.canFrameOf (s : State) (ch : Fin 8) (b : Fin 66) : CanFrame :=
  let w0 := memRead s.mem (canBuf ch b 0)
  let w1 := memRead s.mem (canBuf ch b 1)
  let fdf := w0.getLsbD 31 && s.canFd ch = 1
  let dlc : BitVec 4 := (w1 >>> 32).truncate 4
  let rtr := w1.getLsbD 23 && !fdf
  let n := if rtr then 0 else dlcOctets fdf dlc.toNat
  { ide := w0.getLsbD 32, fdf := fdf, brs := fdf && w0.getLsbD 30, esi := fdf && (s.can ch).passive, rtr := rtr, id := arbField w0
    dlc := dlc, data := (plainOcts (memReadN s.mem (canBuf ch b 3) 16)).take n }

/-- The pending buffer offered to the bus: the lowest identifier, the lower buffer among equals (R384). -/
def State.canOffer (s : State) (ch : Fin 8) : Option (Fin 66) :=
  ((allFin 66).filter fun b => (s.can ch).req.getLsbD b.val && s.bufTx ch b).foldl (fun best b => match best with
    | none => some b
    | some a => if (s.canFrameOf ch b).id.toNat < (s.canFrameOf ch a).id.toNat then some b else some a) none

/-- The FD frame that carries a ZOP message (R75): the shortest one that holds it, padded with zero octets, at the nominal rate (log 44). -/
def State.zopFrame (s : State) (ch : Fin 8) (octets : List Byte) : CanFrame :=
  let w := s.zopTx ch
  let dlc := ((List.range 16).find? fun d => octets.length ≤ dlcOctets true d).getD 15
  { ide := w.getLsbD 32, fdf := true, brs := false, esi := (s.can ch).passive, rtr := false, id := arbField w, dlc := BitVec.ofNat 4 dlc
    data := (octets ++ List.replicate 64 0).take (dlcOctets true dlc) }

/-- The ZOP message that may leave now: at ZOPTX, one in ZOPINT (R384), in FD operation (R75). -/
def State.zopDue (s : State) (ch : Fin 8) : Option CanFrame :=
  let c := s.can ch
  if (s.zopTx ch).getLsbD 35 && (!s.upd.recov || ch = 0) && s.canFd ch = 1 && (match c.zopAt with | some t => t + hundredUs (s.cfg (canIdx ch) 0x0F) ≤ s.now | none => true)
  then c.zopq.head?.map (s.zopFrame ch) else none

/-- CAN_TX_ATTEMPT (R384): in MODE 1 an idle channel offers its first pending buffer, which it reads afresh, or a ZOP message that is due and
has the lower identifier. -/
def execCanTxAttempt (ch : Fin 8) (s : State) : Host.Outcome State Fault Refusal :=
  .next (if s.canLive ch && s.canMode ch = 1 && !(s.can ch).sends then
    let zop (f : CanFrame) : State := s.onCan ch fun c => { c with zbus := true, noackA := false, frame := some f }
    let buf (b : Fin 66) : State := s.onCan ch fun c =>
      { c with bus := some b, att := bset c.att b (bget c.att b + 1), noackA := false, frame := some (s.canFrameOf ch b) }
    match s.canOffer ch, s.zopDue ch with
    | some b, some f => if f.id.toNat < (s.canFrameOf ch b).id.toNat then zop f else buf b
    | some b, none => buf b
    | none, some f => zop f
    | none, none => s
  else s)

/-! Commits (R390) -/

/-- What a commit of the channel's bundle changes besides its objects (R388, R390): `old` is the state before it. -/
def State.canFollow (s : State) (old : State) (ch : Fin 8) : State :=
  let s1 := (allFin 66).foldl (fun st b => if (st.can ch).req.getLsbD b.val && !st.bufTx ch b then st.canEnd ch b false false else st) s
  let s2 := if s1.canMode ch = 0 then s1.onCan ch fun c => { c with ready := false, busoff := false, recov := false, occ := false, bus := none, zbus := false } else s1
  if s2.canMode ch = 3 && old.canMode ch != 3 then
    s2.onCan ch fun c => { c with cand := s2.abdNext ch 7, candAt := s2.now, good := 0, abdres := 0xFF }
  else s2

/-- The end of a frame, or a strobe with no frame on the bus: a pending commit of the bundle applies (R390). -/
def State.canBoundary (s : State) (ch : Fin 8) : State :=
  if (s.can ch).sends then s
  else
    let s1 := s.applyOwned (canIdx ch)
    if s1.srv.commits = s.srv.commits then s else s1.canFollow s ch

/-! Frames and errors -/

/-- CAN_FRAME_RECEIVE (R379, R381, R383, R386, R388): the frame is routed; an FD frame is a protocol exception under FDMODE 2. -/
def State.canReceive (s : State) (ch : Fin 8) (f : CanFrame) : State :=
  if f.fdf && s.canFd ch = 2 then s.raiseCan ch 7
  else
    let s1 := ((s.onCan ch fun c => { c with rxok := satInc c.rxok, occ := false, noack := false }).recDown ch).abdGood ch
    match s1.canRoute ch f with
    | .zop => s1
    | .nowhere => s1.onCan ch fun c => { c with unmatch := satInc c.unmatch }
    | .buffer b filt =>
      if s1.bufRx ch b then s1.canStore ch b filt f else s1.onCan ch fun c => { c with unmatch := satInc c.unmatch }

/-- A frame of the channel's own was sent (R386, R387). -/
def State.canSent (s : State) (ch : Fin 8) : State :=
  (s.onCan ch fun c =>
    { c with bus := none, zbus := false, abort := false, tecnt := c.tecnt - 1, txok := satInc c.txok, noack := false, occ := false }).canBoundary ch

/-- CAN_TX_DONE (R381, R384, R386, R387). -/
def execCanTxDone (ch : Fin 8) (s : State) : Host.Outcome State Fault Refusal :=
  .next (match (s.can ch).bus with
    | some b => (s.canEnd ch b true false).canSent ch
    | none =>
      if (s.can ch).zbus then (s.onCan ch fun c => { c with zopq := c.zopq.tail, zopAt := some s.now }).canSent ch else s)

/-- CAN_TX_FAIL (R381, R385): a failed attempt counts against RETRY, 16 for unlimited; an aborted request ends; a ZOP message waits for
another attempt (log 44). -/
def execCanTxFail (ch : Fin 8) (_lost : Bool) (s : State) : Host.Outcome State Fault Refusal :=
  .next (match (s.can ch).bus with
    | some b =>
      let c := s.can ch
      let retry := fld (s.bufcfg ch b) 30 26
      let s1 := s.onCan ch fun c => { c with bus := none, abort := false }
      let s2 :=
        if c.abort then s1.canEnd ch b false c.noackA
        else if retry != 16 && retry < bget c.att b then (s1.canEnd ch b false c.noackA).raiseCan ch 4
        else s1
      s2.canBoundary ch
    | none => if (s.can ch).zbus then (s.onCan ch fun c => { c with zbus := false }).canBoundary ch else s)

/-- Bus-off (R386): kind 2, cause 2; requests stay pending, but for one that is aborted, whose attempt has failed (R381); recovery starts at
once with BOAUTO = 1. -/
def State.canBusOff (s : State) (ch : Fin 8) : State :=
  let c0 := s.can ch
  let se := match c0.bus with | some b => if c0.abort then s.canEnd ch b false c0.noackA else s | none => s
  let (i, s0) := se.draw
  ((s0.onCan ch fun c => { c with
    tecnt := 256, busoff := true, bus := none, zbus := false, abort := false, occ := false, busoffs := satInc c.busoffs
    recov := s.cfgB (canIdx ch) 0x0B, rseq := i }).raiseCan ch 2).mediumMiss (canBlk ch) 2

/-- LEC of an error class (R380). -/
def canErrCode : CanErr → BitVec 3
  | .stuff => 1 | .form => 2 | .ack => 3 | .bitRecessive => 4 | .bitDominant => 5 | .crc => 6

/-- CAN_BUS_ERROR (R386, R387): the counters of ISO 11898-1, `big` the step of 8; the first error of an occurrence raises kind 0 and cause 1;
an acknowledgement error of an error-passive transmitter that leaves TEC alone sets NOACK. -/
def State.canError (s : State) (ch : Fin 8) (kind : CanErr) (tx big : Bool) : State :=
  let c := s.can ch
  let alone := tx && kind = .ack && c.passive && !big
  let s1 := s.onCan ch fun c => { c with
    lec := canErrCode kind, errs := satInc c.errs, occ := true, noackA := c.noackA || (tx && kind = .ack)
    tecnt := if tx && big then c.tecnt + 8 else c.tecnt
    recnt := if tx then c.recnt else min 255 (c.recnt + if big then 8 else 1)
    noack := c.noack || alone }
  let s2 := if c.occ then s1 else (s1.raiseCan ch 0).mediumMiss (canBlk ch) 1
  let s3 := s2.raiseIf (!c.passive && (s2.can ch).passive) (canBlk ch) 1
  let s4 := s3.raiseIf (alone && !c.noack) (canBlk ch) 3
  let s5 := if s4.abdRuns ch then s4.abdMove ch else s4
  if 256 ≤ (s5.can ch).tecnt then s5.canBusOff ch else s5

/-- CAN_BUS_ERROR (R386). -/
def execCanBusError (ch : Fin 8) (kind : CanErr) (tx : Bool) (step8 : Bool) (s : State) : Host.Outcome State Fault Refusal :=
  .next (if s.canLive ch then s.canError ch kind tx step8 else s)

/-- CAN_FRAME_RECEIVE (R381): with FDMODE 0 an FD frame is a form error (log 42). -/
def execCanFrameReceive (ch : Fin 8) (frame : CanFrame) (s : State) : Host.Outcome State Fault Refusal :=
  .next (if !s.canLive ch then s
    else if frame.fdf && s.canFd ch = 0 then s.canError ch .form false false
    else s.canReceive ch frame)

/-- Recovery starts (R386). -/
def State.borst (s : State) (ch : Fin 8) : State :=
  let (i, s1) := s.draw
  if (s.can ch).busoff && !(s.can ch).recov then s1.onCan ch fun c => { c with recov := true, rseq := i } else s

/-- BORST (R386). -/
def execBorst (r : Requester) (ch : Fin 8) (s : State) : Host.Outcome State Fault Refusal :=
  .next (s.objCmd r (canIdx ch) 0x0C [1] fun t => (okc, t.borst ch))

/-- CAN_BUSOFF_RECOVERED (R386): 128 sequences of 11 recessive bits; error active with TEC = REC = 0. -/
def execCanBusoffRecovered (ch : Fin 8) (s : State) : Host.Outcome State Fault Refusal :=
  .next (if s.up 5 && (s.can ch).busoff && (s.can ch).recov then
    s.onCan ch fun c => { c with tecnt := 0, recnt := 0, busoff := false, recov := false }
  else s)

/-- CAN_INTEGRATION (R390): 11 recessive bits. -/
def execCanIntegration (ch : Fin 8) (s : State) : Host.Outcome State Fault Refusal :=
  .next (if s.up 5 && s.canMode ch != 0 then s.onCan ch fun c => { c with ready := true } else s)

/-- ABD_CANDIDATE_TIMEOUT (R388): ABDT without a frame, or an error. -/
def execAbdCandidateTimeout (ch : Fin 8) (error : Bool) (s : State) : Host.Outcome State Fault Refusal :=
  .next (if s.up 5 && s.abdRuns ch then
    (if error then s else s.at ((s.can ch).candAt + msT (s.cfg (canIdx ch) 0x15))).abdMove ch
  else s)

/-! Flow sinks (R382, R383) -/

/-- The words that a frame of a flow takes at a transmit buffer. -/
def State.canNeeds (s : State) (ch : Fin 8) (b : Fin 66) : Nat :=
  let n := frameCount (s.canFrameOf ch b)
  match fld (s.bufcfg ch b) 33 32 with
  | 0 => 3 + (n + 3) / 4
  | 1 => (n + 3) / 4
  | _ => (8 * n + 35) / 36

/-- A word of a flow reaches a transmit buffer; with the frame's last word the request is raised.  The identifier and DLC stay those that
firmware wrote (R383, log 43). -/
def State.canSink (s : State) (ch : Fin 8) (b : Fin 66) (w : Word) : State :=
  let have_ := ((s.can ch).fill.filter (·.1 == b)).flatMap (·.2) ++ [w]
  let rest := (s.can ch).fill.filter (·.1 != b)
  if have_.length < s.canNeeds ch b then s.onCan ch fun c => { c with fill := rest ++ [(b, have_)] }
  else
    let n := frameCount (s.canFrameOf ch b)
    let os := match fld (s.bufcfg ch b) 33 32 with
      | 0 => (plainOcts (have_.drop 3)).take n
      | 1 => (plainOcts have_).take n
      | _ => bitOcts n have_
    ((s.onMem fun m => memWriteN m (canBuf ch b 3) (packFrame os)).onCan ch fun c => { c with fill := rest }).canRequest ch b

/-- A transmit buffer whose request is pending returns no credits (R383). -/
def State.canSinkBlocked (s : State) (ch : Fin 8) (b : Fin 66) : Bool := (s.can ch).req.getLsbD b.val

/-! Status and control words (R380, R391) -/

/-- CSTAT. -/
def State.cstatCan (s : State) (ch : Fin 8) : Word :=
  let c := s.can ch
  let est := if s.canMode ch = 0 || !c.ready then 3 else if c.busoff then 2 else if c.passive then 1 else 0
  wd (c.lec.toNat * 2 ^ 33 + min 256 c.tecnt * 2 ^ 24 + c.recnt * 2 ^ 16 + est * 2 ^ 14 + b1 c.noack * 2 ^ 13 +
    b1 (2 ≤ s.canMode ch) * 2 ^ 12 + b1 c.recov * 2 ^ 11 + if c.recov then (Config.freeWord c.rseq).toNat % 129 else 0)

/-- A control word as read, at offset 0x5F0 + o. -/
def State.canCtlRead (s : State) (ch : Fin 8) (o : Nat) : Word :=
  let c := s.can ch
  match o with
  | 0 => s.cstatCan ch
  | 1 => c.new.truncate 36
  | 2 => (c.new >>> 36).truncate 36
  | 3 => c.req.truncate 36
  | 4 => (c.req >>> 36).truncate 36
  | _ => 0

/-- A write of a control word. -/
def State.canCtlWrite (s : State) (ch : Fin 8) (o : Nat) (w : Word) : State :=
  let m : CtlBits := { hi := o % 2 = 0, bits := w }
  match o with
  | 1 => s.canNewClear ch m
  | 2 => s.canNewClear ch m
  | 3 => s.canAsk ch m
  | 4 => s.canAsk ch m
  | 5 => forBufs (ctlMask m) (fun b st => st.canAbort ch b) s
  | 6 => forBufs (ctlMask m) (fun b st => st.canAbort ch b) s
  | _ => s

/-- The interrupt lines 0 to 2 of a channel (R391). -/
def State.canLine (s : State) (ch : Fin 8) (line : Nat) : Bool :=
  let c := s.can ch
  match line with
  | 0 => (allFin 66).any fun b => c.new.getLsbD b.val && (s.bufcfg ch b).getLsbD 25
  | 1 => c.new.getLsbD 64
  | 2 => c.new.getLsbD 65
  | _ => false

/-- The release of NET for a channel: the search of MODE 3 begins (R388, R390). -/
def State.canRelease (s : State) (ch : Fin 8) : State :=
  s.onCan ch fun c => { CanCh.reset with decode := c.decode, wufErr := c.wufErr, cand := s.abdNext ch 7, candAt := s.now }

end Sys2Proof.Machine
end

