-- ==== Sys2Proof/Machine/Discipline.lean ====
section
/-!
DEFINITION. The discipline of TIME (R45, R46, R409), and fractions for the admission arithmetic (R92, R406).
-/
namespace Sys2Proof.Machine

/-- The device is the active member of a duo pair (R46). -/
def State.isActive (s : State) : Bool := s.duo.role == .active

/-- The TIME source in force: TSRC, and free-running while the ring timer's role is held (R532). -/
def State.tsrc (s : State) : Nat :=
  let t := s.cfg 0x3200 0x0C
  if t = 2 && s.ring.timer then 0 else t

/-- Milliseconds nearest to a number of ticks; midway between two, either (R46, log 7). -/
def nearMs (off : Int) : Int :=
  if (2 * off + 100000) % 200000 = 0 && Config.tieDown off 100000 then (2 * off + 100000) / 200000 - 1 else (2 * off + 100000) / 200000

/-- TIME is disciplined by an offset to the target, in ticks: by rate adjustment, or by a step at the next boundary where ±500 ppm
would need more than 10 s (R45, R46). -/
def State.discipline (s : State) (off : Int) : State :=
  s.onTime fun t =>
    if 500000 < off.natAbs && !s.isActive then
      { t with step := nearMs off, offset := off - 100000 * nearMs off, slew := off != 100000 * nearMs off }
    else { t with step := 0, offset := off, slew := off != 0 }

/-- DISC clears (R409); after a timeout SRC reads 00 until the source locks again. -/
def State.discLost (s : State) (timeout : Bool) : State :=
  let s1 := s.raiseIf s.time.disc 0x5E 0
  let src (t : TimeState) : BitVec 2 := if timeout && t.src != 3 then 0 else t.src
  { s1 with time := { s1.time with disc := false, src := src s1.time }, eth := { s1.eth with good := 0 } }

/-- A measured offset to the target in ns, from the source `src` (R409): TIME follows it; DISC sets after `n` in a row within `near` ns
and clears beyond `far` ns. -/
def State.locked (s : State) (src : BitVec 2) (ns : Int) (n near far : Nat) : State :=
  let s1 := s.discipline (ns / 10)
  let good := if ns.natAbs ≤ near then s.eth.good + 1 else 0
  let s2 := { s1 with eth := { s1.eth with good := good } }
  if far < ns.natAbs then s2.discLost false
  else if n ≤ good && s2.time.src != 3 then s2.onTime fun t => { t with disc := true, src := src, parked := false }
  else s2

/-- A time of the old count as one of the new. -/
def moved (old new x : Nat) : Nat := x + new - old

/-- What waits for instants of TIME moves with a step, so that every grid runs on in the new count, the repeated base cycles too (R46, R254). -/
def State.gridsMove (s : State) (old new : Nat) : State :=
  let mv := moved old new
  { s with
    hs := ball s.hs fun _ c => { c with lastBnd := c.lastBnd.map mv, onEnds := c.onEnds.map mv }
    sinks := ball s.sinks fun _ k => { k with lastBnd := k.lastBnd.map mv }
    chain := { s.chain with lastAt := s.chain.lastAt.map mv, shiftEnds := mv s.chain.shiftEnds }
    matrix := { s.matrix with start := s.matrix.start.map mv, ends := mv s.matrix.ends, edge := s.matrix.edge.map mv, watch := mv s.matrix.watch }
    adc := { s.adc with last := ball s.adc.last fun _ x => mv x }
    ring := { s.ring with lastCyc := mv s.ring.lastCyc }
    eng := { s.eng with loops := ball s.eng.loops fun _ l => { l with
      lastRel := l.lastRel.map mv, lastOk := l.lastOk.map mv, from_ := mv l.from_, out := l.out.map fun x => (x.1, mv x.2)
      rel := l.rel.map fun r => { r with at_ := mv r.at_, deadline := mv r.deadline } } } }

/-- A pending step is applied at a base-cycle boundary: TIME moves by whole milliseconds, every queue takes a step marker, STEPD is set,
and kind 1 of block 0x5E is raised (R46, R422).  TIME does not fall below zero. -/
def State.applyStep (s : State) : State :=
  if s.time.step = 0 || s.isActive then s
  else
    let t := ((s.now : Int) + 100000 * s.time.step).toNat
    let move (u : TimeState) : TimeState := { u with time := BitVec.ofNat 72 t, step := 0, stepd := true }
    let s1 := ((s.gridsMove s.now t).onTime move).onQueues (EvQ.mark true (wd (t / 2 ^ 36)))
    s1.raiseIf (s.up 5) 0x5E 1

/-- A non-negative fraction, numerator and denominator. -/
abbrev Frac := Nat × Nat

def Frac.add (a b : Frac) : Frac := (a.1 * b.2 + b.1 * a.2, a.2 * b.2)
def Frac.sum (l : List Frac) : Frac := l.foldl Frac.add (0, 1)
def Frac.le (a b : Frac) : Bool := a.1 * b.2 ≤ b.1 * a.2
def Frac.ceil (a : Frac) : Nat := (a.1 + a.2 - 1) / Nat.max 1 a.2
def ceilDiv (a b : Nat) : Nat := (a + b - 1) / Nat.max 1 b

/-- Object values as a check sees them: applied, or staged where a commit names the object (R61). -/
abbrev ObjView := Nat → Nat → Val

/-- The applied values, with the staged ones of the bundles that a commit names. -/
def State.view (s : State) (indices : List Nat) : ObjView :=
  fun idx sub => if indices.contains idx then s.stagedVal idx sub else s.obj idx sub

/-- A one-word object in a view. -/
def ObjView.num (v : ObjView) (idx sub : Nat) : Nat := ((v idx sub).headD 0).toNat

end Sys2Proof.Machine
end

