-- ==== Sys2Proof/Machine/Ethernet.lean ====
section
/-!
DEFINITION. The Ethernet switch, its host rings, streams and shaping, and gPTP (R398 to R409, R420, R422).
-/
namespace Sys2Proof.Machine

def ethIdx : Nat := 0x3200
def State.onEth (s : State) (f : Ethernet → Ethernet) : State := { s with eth := f s.eth }
def State.eport (s : State) (p : Fin 5) : EthPort := bget s.eth.ports p
def State.onPort (s : State) (p : Fin 5) (f : EthPort → EthPort) : State := s.onEth fun e => { e with ports := bmod e.ports p f }

/-- The block of a port: 0x58 the host's, 0x59 to 0x5C the others. -/
def portBlk (p : Fin 5) : Nat := 0x58 + p.val

/-- Mode of a port under a view: XGMODE and T1SMODE (obj 0x3200.01, .02). -/
def portMode (v : ObjView) (p : Fin 5) : Nat :=
  match p with
  | 0 => 1
  | 1 => v.num ethIdx 1 % 4
  | 2 => v.num ethIdx 1 / 4 % 4
  | 3 => v.num ethIdx 2 % 4
  | 4 => v.num ethIdx 2 / 4 % 4

/-- The mode in which a port runs: in recovery mode T1S0 runs in CSMA/CD (R567). -/
def State.portRuns (s : State) (p : Fin 5) : Nat := if s.upd.recov && p = 3 then 2 else portMode s.obj p

/-- A port that sends and receives: an XG port with its link up, a T1S port that is not off; none while class 1 is shed (R469). -/
def State.portUp (s : State) (p : Fin 5) : Bool :=
  s.up 5 && !s.sup.shed.getLsbD 1 && s.portRuns p != 0 && (p = 0 || 3 ≤ p.val || (s.eport p).link)

/-- The linked rate in bit/s; with the link down, that of the mode (R403, DEDUCED log 54). -/
def State.portRate (s : State) (v : ObjView) (p : Fin 5) : Nat :=
  if 3 ≤ p.val then 10000000
  else if !(s.eport p).link then (if portMode v p = 1 then 2500000000 else 1000000000)
  else match (s.eport p).speed with
    | 0 => 10000000 | 1 => 100000000 | 2 => 1000000000 | _ => 2500000000

/-- A stream entry (R405). -/
structure Stream where
  dir      : Bool                  -- the host receives
  contract : Fin 256
  ports    : BitVec 5              -- [25:21]
  pcp      : BitVec 3
  mac      : BitVec 48
  vid      : BitVec 12
  flen     : Nat

/-- The enabled stream entries of a view. -/
def streams (v : ObjView) : List Stream :=
  let ws := v ethIdx 8
  (List.range 64).filterMap fun j =>
    let w0 := ws.getD (3 * j) 0
    let w2 := ws.getD (3 * j + 2) 0
    if w0.getLsbD 35 then
      some { dir := w0.getLsbD 34, contract := Fin.ofNat 256 (fld w0 33 26), ports := BitVec.ofNat 5 (fld w0 25 21)
             pcp := BitVec.ofNat 3 (fld w0 20 18), mac := BitVec.ofNat 48 (fld w0 15 0 * 2 ^ 32 + fld (ws.getD (3 * j + 1) 0) 31 0)
             vid := BitVec.ofNat 12 (fld w2 35 24), flen := fld w2 23 13 }
    else none

/-- The enabled entry that names a contract. -/
def streamOf (v : ObjView) (n : Fin 256) : Option Stream := (streams v).find? (·.contract == n)

/-- The traffic class of a priority code point (obj 0x3200.0A). -/
def pcpClass (v : ObjView) (pcp : BitVec 3) : Fin 8 := Fin.ofNat 8 (v.num ethIdx 0x0A / 2 ^ (3 * pcp.toNat))

/-- A stream crosses a port. -/
def Stream.crosses (x : Stream) (p : Fin 5) : Bool := x.ports.getLsbD p.val

/-- Whether an admitted flow's stream crosses a port. -/
def State.flowCrosses (s : State) (p : Fin 5) (n : Fin 256) : Bool :=
  s.flowTouches n (epBlock · == 0x58) && ((streamOf s.obj n).any (·.crosses p))

/-- Items with an endpoint on a port miss (R105, R403). -/
def State.portMiss (s : State) (p : Fin 5) (cause : Nat) : State :=
  s.missItems { flow := s.flowCrosses p, loop := fun m => (s.loopStreams m).any (epBlock · == 0x58), seq := fun _ => false
                rule := fun _ => false } cause (portBlk p)

/-! The frame store -/

/-- Octets of a frame on the wire, FCS included. -/
def ethLen (f : EthFrame) : Nat := f.octets.length + 4

/-- Words that a frame takes in the store. -/
def ethWords (f : EthFrame) : Nat := (f.octets.length + 3) / 4

def storeUsed (l : List EthHeld) : Nat := (l.map fun h => ethWords h.frame).sum

/-- A discard at a port of ingress (R401). -/
def State.ethDrop (s : State) (p : Fin 5) : State := s.onPort p fun u => { u with drops := satInc u.drops }

/-- The oldest frame of a class is dropped from the store. -/
def dropOldest (c : Fin 8) : List EthHeld → Option (EthHeld × List EthHeld)
  | [] => none
  | h :: r => if h.cls = c then some (h, r) else (dropOldest c r).map fun x => (x.1, h :: x.2)

/-- Class 0 frames leave the store, oldest first, until n words fit (R401). -/
def State.makeRoom (s : State) (n : Nat) : Nat → State
  | 0 => s
  | k + 1 =>
    if storeUsed s.eth.store + n ≤ 24576 then s
    else match dropOldest 0 s.eth.store with
      | none => s
      | some (h, r) => (((s.onEth fun e => { e with store := r }).ethDrop h.ingress).raise 0x58 0).makeRoom n k

/-- Shaper credit of a class brought up to TIME (R406): it rises by the idle slope while a frame waits or it is negative, and is
zero at most while none waits. -/
def creditAt (u : EthPort) (c : Fin 8) (slope : Nat) (waiting : Bool) (now : Nat) : Int :=
  let x := bget u.credit c + (slope * (now - bget u.credAt c) : Nat)
  if waiting then x else Min.min x 0

/-- The idle slope of a class on a port in bit/s, rounded down: the sum of r over its admitted streams (R406). -/
def State.idleSlope (s : State) (p : Fin 5) (c : Fin 8) : Nat :=
  let f := Frac.sum (((streams s.obj).filter fun x =>
    !x.dir && x.crosses p && (s.ct x.contract).inForce && pcpClass s.obj x.pcp = c).map fun x =>
      (32 * s.cfg (ctIdx x.contract) 4 * (x.flen + 24), Nat.max 1 x.flen))
  f.1 / f.2

/-- A frame of a class waits for a port. -/
def State.ethWaits (s : State) (p : Fin 5) (c : Fin 8) : Bool := s.eth.store.any fun h => h.cls = c && h.ports.getLsbD p.val

/-- The shaper's account of a class, brought up to TIME. -/
def State.bringCredit (s : State) (p : Fin 5) (c : Fin 8) : State :=
  let x := creditAt (s.eport p) c (s.idleSlope p c) (s.ethWaits p c) s.now
  s.onPort p fun u => if bget u.credAt c < s.now then { u with credit := bset u.credit c x, credAt := bset u.credAt c s.now } else u

/-- A frame enters the frame store for its egress ports (R401). -/
def State.ethQueue (s : State) (f : EthFrame) (ingress : Fin 5) (ports : BitVec 5) (c : Fin 8) : State :=
  let out := BitVec.ofNat 5 ((allFin 5).foldl (fun a p => if p != 0 && ports.getLsbD p.val && s.portUp p then a + 2 ^ p.val else a) 0)
  if out = 0 then s
  else
    let s0 := (allFin 5).foldl (fun st p => if out.getLsbD p.val then st.bringCredit p c else st) s
    let put (st : State) : State := st.onEth fun e => { e with store := e.store ++ [{ frame := f, ingress := ingress, ports := out, cls := c }] }
    if storeUsed s0.eth.store + (ethWords f) ≤ 24576 then put s0
    else
      let s1 := if 4 ≤ c.val || s0.eth.store.any (fun h => 4 ≤ h.cls.val) then s0.makeRoom (ethWords f) s0.eth.store.length else s0
      if storeUsed s1.eth.store + (ethWords f) ≤ 24576 then put s1 else (s1.ethDrop ingress).raise 0x58 0

/-! Forwarding -/

/-- The members of an enabled VLAN, and its untagged egress ports (obj 0x3200.06). -/
def vlanOf (v : ObjView) (vid : BitVec 12) : Option (BitVec 5 × BitVec 5) :=
  ((v ethIdx 6).find? fun w => w.getLsbD 35 && fld w 34 23 = vid.toNat).map fun w =>
    (BitVec.ofNat 5 (fld w 22 18), BitVec.ofNat 5 (fld w 17 13))

/-- The static entry of an address and VID (obj 0x3200.07). -/
def staticEntry (v : ObjView) (mac : BitVec 48) (vid : BitVec 12) : Option (BitVec 5) :=
  let ws := v ethIdx 7
  ((List.range 128).find? fun i =>
      let w0 := ws.getD (2 * i) 0
      w0.getLsbD 35 && fld w0 29 18 = vid.toNat && fld w0 15 0 * 2 ^ 32 + fld (ws.getD (2 * i + 1) 0) 31 0 = mac.toNat).map
    fun i => BitVec.ofNat 5 (fld (ws.getD (2 * i) 0) 34 30)

/-- Bit p of a port set. -/
def portBit (p : Fin 5) : BitVec 5 := BitVec.ofNat 5 (2 ^ p.val)

/-- The egress ports of a frame: its static entry, else its learned port, else the members of its VLAN; never its ingress (R400). -/
def State.ethRoute (s : State) (dst : BitVec 48) (vid : BitVec 12) (members : BitVec 5) (ingress : Fin 5) : BitVec 5 :=
  (match staticEntry s.obj dst vid with
    | some m => m
    | none => match s.eth.learnt.find? fun e => e.mac = dst && e.vid = vid with
      | some e => portBit e.port
      | none => members) &&& ~~~(portBit ingress)

/-- The source address of a frame is learned (R399); group addresses are not, and a full table learns none. -/
def State.ethLearn (s : State) (f : EthFrame) (vid : BitVec 12) (p : Fin 5) : State :=
  if f.src.getLsbD 40 then s
  else
    let e : MacEntry := { mac := f.src, vid := vid, port := p, last := s.now }
    let rest := s.eth.learnt.filter fun x => !(x.mac = f.src && x.vid = vid)
    if rest.length < 1024 then s.onEth fun u => { u with learnt := rest ++ [e] } else s

/-! The host rings (R402) -/

/-- Words of the receive and the transmit ring. -/
def rxRing : Nat := 8192
def txRing : Nat := 8176

/-- Where an entry of n words goes in the receive ring: its index, and whether a zero descriptor precedes it at the write index. -/
def rxPlace (w r n : Nat) : Option (Nat × Bool) :=
  if w < r then (if w + n < r then some (w, false) else none)
  else if w + n < rxRing || (w + n = rxRing && r != 0) then some (w, false)
  else if n < r then some (0, true)
  else none

/-- A frame is written into the receive ring, or discarded (R402). -/
def State.hostRx (s : State) (f : EthFrame) (ingress : Fin 5) (c : Fin 8) : State :=
  let n := 2 + ethWords f
  match rxPlace s.eth.hrxw s.eth.hrxr n with
  | none => (s.ethDrop 0).raise 0x58 2
  | some (at_, wrap) =>
    let desc := wd (ingress.val * 2 ^ 33 + c.val * 2 ^ 30 + b1 f.tagged * 2 ^ 29 + f.octets.length)
    let s1 := s.onMem fun m =>
      memWriteN (if wrap then memWrite m (0x864000 + s.eth.hrxw) 0 else m) (0x864000 + at_) (desc :: s.stamp :: packFrame f.octets)
    (s1.onEth fun e => { e with hrxw := (at_ + n) % rxRing }).onPort 0 fun u => { u with tx := satInc u.tx }

/-- Reads and writes of the host ring control words, at 0x86_7FF0 + o (R402). -/
def State.ethCtlRead (s : State) (o : Nat) : Word :=
  match o with
  | 0 => wd s.eth.hrxw | 1 => wd s.eth.hrxr | 2 => wd s.eth.htxw | 3 => wd s.eth.htxr | _ => 0

/-! Frames as octets -/

/-- A number from octets, first octet highest. -/
def octNat (os : List Byte) : Nat := os.foldl (fun a o => a * 256 + o.toNat) 0

/-- A frame from its octets, destination address to payload. -/
def ethParse (os : List Byte) : EthFrame :=
  let tagged := octNat ((os.drop 12).take 2) = 0x8100
  let tci := octNat ((os.drop 14).take 2)
  { dst := BitVec.ofNat 48 (octNat (os.take 6)), src := BitVec.ofNat 48 (octNat ((os.drop 6).take 6)), tagged := tagged
    pcp := if tagged then BitVec.ofNat 3 (tci / 8192) else 0, vid := if tagged then BitVec.ofNat 12 tci else 0
    etype := BitVec.ofNat 16 (octNat ((os.drop (if tagged then 16 else 12)).take 2)), octets := os, fcsOk := true }

/-- A frame as it leaves a port: a port in the VLAN's untagged set strips its tag; none adds one (log 53). -/
def ethEgress (v : ObjView) (p : Fin 5) (f : EthFrame) : EthFrame :=
  let vid := if f.tagged then f.vid else 1
  let bare := (vlanOf v vid).any fun x => x.2.getLsbD p.val
  if f.tagged && bare then { f with tagged := false, octets := f.octets.take 12 ++ f.octets.drop 16 } else f

/-- A frame's VID and priority (R400). -/
def ethVlan (f : EthFrame) : BitVec 12 := if f.tagged then f.vid else 1
def ethPrio (f : EthFrame) : BitVec 3 := if f.tagged then f.pcp else 0

/-- The size of a frame is supported (R399). -/
def ethSizeOk (f : EthFrame) : Bool := 64 ≤ (ethLen f) && (ethLen f) ≤ 1522

/-- The class that carries a frame of no admitted transmit stream: classes 4 to 7 become class 0 (R401, log 53). -/
def plainClass (c : Fin 8) : Fin 8 := if 4 ≤ c.val then 0 else c

/-- A frame whose class becomes class 0 on its way to some port is counted in REMAP (R401). -/
def State.ethRemap (s : State) (ports : BitVec 5) (c : Fin 8) : State :=
  if 4 ≤ c.val && ports != 0 then s.onEth fun e => { e with remap := satInc e.remap } else s

/-- A received frame is queued for its egress ports (R401). -/
def State.ethForward (s : State) (f : EthFrame) (ingress : Fin 5) (ports : BitVec 5) (c : Fin 8) : State :=
  if ports &&& 0x1E = 0 then s else s.ethQueue f ingress ports (plainClass c)

/-- The DIR 1 entry of an admitted contract that a received frame matches (R405). -/
def State.rxStream (s : State) (p : Fin 5) (f : EthFrame) : Option Stream :=
  (streams s.obj).find? fun x => x.dir && x.crosses p && x.mac = f.dst && x.vid = (ethVlan f) && x.pcp = (ethPrio f) && (s.ct x.contract).inForce

/-- A received frame that passed its FCS (R400 to R402, R405). -/
def State.ethAccept (s : State) (p : Fin 5) (f : EthFrame) : State :=
  if f.etype = 0x88F7 then s
  else if !(ethSizeOk f) || f.etype = 0x8808 then s.ethDrop p
  else match vlanOf s.obj (ethVlan f) with
    | none => s.ethDrop p
    | some (members, _) =>
      if !members.getLsbD p.val then s.ethDrop p
      else
        let ports := s.ethRoute f.dst (ethVlan f) members p
        let s1 := s.ethLearn f (ethVlan f) p
        let c := pcpClass s.obj (ethPrio f)
        match s.rxStream p f with
        | some x =>
          ((s1.toFlow x.contract (packFrame f.octets)).ethRemap (ports &&& 0x1E) c).ethForward f p ports c
        | none =>
          let s2 := (s1.ethRemap ports c).ethForward f p ports c
          if ports.getLsbD 0 then s2.hostRx f p (plainClass c) else s2

/-- ETH_FRAME_RECEIVE (R400, R401, R402, R405, R422): an FCS or symbol error is counted, and the first of an occurrence raises kind 2
and cause 1 of R105. -/
def execEthFrameReceive (port : Fin 5) (f : EthFrame) (s : State) : Host.Outcome State Fault Refusal :=
  .next (if port = 0 || !s.portUp port then s
  else
    let s1 := s.onPort port fun u => { u with rx := satInc u.rx }
    if f.fcsOk then (s1.onPort port fun u => { u with occ := none }).ethAccept port f
    else
      let first := (s.eport port).occ.isNone
      let s2 := s1.onPort port fun u => { u with errs := satInc u.errs, occ := some s.now }
      if first then (s2.raise (portBlk port) 2).portMiss port 1 else s2)

/-- A class that an XG port shapes (R406). -/
def State.isShaped (s : State) (p : Fin 5) (c : Fin 8) : Bool := p.val < 3 && 4 ≤ c.val && (s.cfg ethIdx 9).testBit c.val

/-- The frame that a port sends next: the highest class that waits and, if shaped, has credit (R399, R406). -/
def State.ethNext (s : State) (p : Fin 5) : Option EthHeld :=
  let ok (c : Fin 8) : Bool := s.ethWaits p c && (!s.isShaped p c ||
    decide (0 ≤ creditAt (s.eport p) c (s.idleSlope p c) true s.now))
  match (allFin 8).reverse.find? ok with
  | none => none
  | some c => s.eth.store.find? fun h => h.cls = c && h.ports.getLsbD p.val

/-- One port is taken off the first frame equal to h; a frame with no port left leaves the store. -/
def sentBy (p : Fin 5) (h : EthHeld) : List EthHeld → List EthHeld
  | [] => []
  | x :: r =>
    if x = h then (let m := x.ports &&& ~~~(portBit p); if m = 0 then r else { x with ports := m } :: r) else x :: sentBy p h r

/-- ETH_FRAME_TRANSMIT (R399, R401, R406): once the frame before it, with preamble and gap, is off the wire. -/
def execEthFrameTransmit (port : Fin 5) (s : State) : Host.Outcome State Fault Refusal :=
  .next (if port = 0 || !s.portUp port then s
  else
    let s1 := s.at (s.eport port).busy
    match s1.ethNext port with
    | none => s
    | some h =>
      let f := ethEgress s.obj port h.frame
      let rate := s.portRate s.obj port
      let ticks := ceilDiv (((ethLen f) + 20) * 8 * 100000000) rate
      let s2 := s1.bringCredit port h.cls
      let spend (u : EthPort) : EthPort :=
        { u with busy := s1.now + ticks, sent := some f, tx := satInc u.tx
                 credit := bset u.credit h.cls (bget u.credit h.cls - ((rate - s1.idleSlope port h.cls) * ticks : Nat))
                 credAt := bset u.credAt h.cls (s1.now + ticks) }
      (s2.onPort port spend).onEth fun e => { e with store := sentBy port h e.store })

/-! Transmission by the host (R402) -/

/-- A word's flags are a code of R33. -/
def flagsOk (w : Word) : Bool :=
  ((wordOcts w).map (·.1)) ∈ [[false, false, false, false], [false, false, false, true], [false, false, true, true], [false, true, true, true],
    [true, true, true, true]]

/-- One transmit entry's frame is handed to the switch: its octets are counted by LEN; one whose PCP maps to class 4 or above goes to class 0
(R401); one with flags of no code is malformed and discarded (R33, log 50). -/
def State.hostFrame (s : State) (desc : Word) (ws : List Word) : State :=
  let f := ethParse ((plainOcts ws).take (fld desc 10 0))
  let k := Fin.ofNat 8 (fld desc 30 28)
  let high := pcpClass s.obj (ethPrio f)
  let c := if 4 ≤ high.val then 0 else k
  let s1 := s.onPort 0 fun u => { u with rx := satInc u.rx }
  if 4 ≤ k.val || !ws.all flagsOk then (s.ethDrop 0).raise 0x58 2
  else if !(ethSizeOk f) then s1.ethDrop 0
  else if fld desc 35 31 != 0 then
    let ports := BitVec.ofNat 5 (fld desc 35 31) &&& 0x1E
    (s1.ethRemap ports high).ethQueue f 0 ports c
  else match vlanOf s.obj (ethVlan f) with
    | none => s1.ethDrop 0
    | some (members, _) =>
      if !members.getLsbD 0 then s1.ethDrop 0
      else
        let ports := s1.ethRoute f.dst (ethVlan f) members 0
        ((s1.ethLearn f (ethVlan f) 0).ethRemap ports high).ethQueue f 0 ports c

/-- The entries between HTXR and HTXW are read; a zero descriptor, or the end of the ring, goes on at its start. -/
def State.hostTx (s : State) : Nat → State
  | 0 => s
  | k + 1 =>
    let r := s.eth.htxr
    if r = s.eth.htxw then s
    else
      let desc := memRead s.mem (0x866000 + r)
      let len := fld desc 10 0
      if txRing ≤ r || len = 0 then State.hostTx (s.onEth fun e => { e with htxr := 0 }) k
      else
        let n := (len + 3) / 4
        let s1 := s.hostFrame desc (memReadN s.mem (0x866000 + r + 1) n)
        State.hostTx (s1.onEth fun e => { e with htxr := if r + 1 + n = txRing then 0 else r + 1 + n }) k

/-- HTXW is written (R402); a value outside the ring, and one during an entry (R428), changes nothing. -/
def State.htxKick (s : State) (v : Word) : State :=
  if v.toNat < txRing && s.accepts then (s.onEth fun e => { e with htxw := v.toNat }).hostTx 4096 else s

def State.ethCtlWrite (s : State) (o : Nat) (v : Word) : State :=
  match o with
  | 1 => s.onEth fun e => { e with hrxr := v.toNat % rxRing }
  | 2 => s.htxKick v
  | _ => s

/-- HOST_TX_KICK (R402). -/
def execHostTxKick (r : Requester) (v : Word) (s : State) : Host.Outcome State Fault Refusal :=
  .next (if reachesMem r && s.up 5 then s.htxKick v else s)

/-- MAC_AGEOUT (R399): an entry leaves 300 s after the last frame from its address. -/
def execMacAgeout (idx : Nat) (s : State) : Host.Outcome State Fault Refusal :=
  .next (match s.up 5, s.eth.learnt[idx]? with
    | true, some e => (s.at (e.last + secT 300)).onEth fun u => { u with learnt := u.learnt.eraseIdx idx }
    | _, _ => s)

/-! Streams that the host transmits (R405) -/

/-- Whether a block of words ends a frame: some flag of its last word is set (R33). -/
def wordEnds (w : Word) : Bool := (wordOcts w).any (·.1)

/-- The words of a transmit stream that have reached the switch. -/
def State.ethFill (s : State) (n : Fin 256) : List Word := ((s.eth.fill.find? (·.1 == n)).map (·.2)).getD []
def State.setFill (s : State) (n : Fin 256) (ws : List Word) : State :=
  s.onEth fun e => { e with fill := (if ws.isEmpty then [] else [(n, ws)]) ++ e.fill.filter (·.1 != n) }

/-- A word of the flow of contract n reaches its host-port class: the frame's last word completes the frame, which is checked against its
entry and queued in its class (R401, R405). -/
def State.ethSink (s : State) (n : Fin 256) (w : Word) : State :=
  let ws := s.ethFill n ++ [w]
  let bad (st : State) : State := ((st.setFill n []).ethDrop 0).raise 0x58 1
  if !wordEnds w then (if 381 ≤ ws.length then bad s else s.setFill n ws)
  else
    let (os, ok) := unpackFrame ws
    let f := ethParse os
    match streamOf s.obj n with
    | none => bad s
    | some x =>
      if !ok || x.dir || (ethLen f) < x.flen || 1522 < (ethLen f) || f.dst != x.mac || (ethVlan f) != x.vid || (ethPrio f) != x.pcp then bad s
      else ((s.setFill n []).onPort 0 fun u => { u with rx := satInc u.rx }).ethQueue f 0 (x.ports &&& 0x1E) (pcpClass s.obj x.pcp)

/-! Links -/

/-- Whether the linked rate of an XG port lies below the rate a contract was charged at: cause 1 at the fall (R403). -/
def State.rateFalls (s : State) (x : Fin 2) : State :=
  let p : Fin 5 := ⟨x.val + 1, by omega⟩
  let low (e : EthRate) : Bool := !(s.eport p).link || (s.eport p).speed.toNat < e.speed.toNat
  let hit := (s.eth.rates.filter fun e => e.port = x && low e && !e.missing).map (·.contract)
  let s1 := s.onEth fun u => { u with rates := u.rates.map fun e => if e.port = x then { e with missing := low e } else e }
  hit.foldl (fun st n => if (st.ct n).inForce then st.flowMiss n 1 (portBlk p) else st) s1

/-- XG_LINK_CHANGE (R403, R422): bit 0 of `an` says that auto-negotiation completed, bit 1 that it failed. -/
def execXgLinkChange (x : Fin 2) (up : Bool) (speed : BitVec 2) (an : BitVec 2) (s : State) : Host.Outcome State Fault Refusal :=
  let p : Fin 5 := ⟨x.val + 1, by omega⟩
  .next (if !s.up 5 || s.portRuns p = 0 then s
  else
    let anOn := (s.cfg ethIdx 1).testBit (4 + x.val)
    let rate : BitVec 2 := if s.portRuns p = 1 then 3 else if anOn then speed else 2
    let s1 := s.onPort p fun u => { u with link := up, speed := if up then rate else 0, anok := anOn && up && an.getLsbD 0 }
    let s2 := s1.raiseIf ((s.eport p).link && !up) (portBlk p) 0
    (s2.raiseIf (anOn && an.getLsbD 1) (portBlk p) 1).rateFalls x)

def t1sPort (x : Fin 2) : Fin 5 := ⟨x.val + 3, by omega⟩

/-- Node ID of a T1S port (PLCA0, PLCA1). -/
def plcaWord (v : ObjView) (x : Fin 2) : Word := (v ethIdx (3 + x.val)).headD 0

/-- T1S_BEACON_LOST (R404, R422): the segment falls back to CSMA/CD. -/
def execT1sBeaconLost (x : Fin 2) (s : State) : Host.Outcome State Fault Refusal :=
  let p := t1sPort x
  .next (if s.up 5 && s.portRuns p = 1 && (s.eport p).plca && fld (plcaWord s.obj x) 35 28 != 0 then
    ((s.onPort p fun u => { u with plca := false, csma := true }).raise (portBlk p) 0).raise (portBlk p) 1
  else s)

/-- PLCA_BEACON_SEEN (R404): back to PLCA. -/
def execPlcaBeaconSeen (x : Fin 2) (s : State) : Host.Outcome State Fault Refusal :=
  let p := t1sPort x
  .next (if s.up 5 && s.portRuns p = 1 then s.onPort p fun u => { u with plca := true, csma := false } else s)

/-- T1S_JABBER (R422). -/
def execT1sJabber (x : Fin 2) (s : State) : Host.Outcome State Fault Refusal :=
  let p := t1sPort x
  .next (if s.up 5 && s.portRuns p != 0 then
    (s.onPort p fun u => { u with jab := true }).raiseIf (!(s.eport p).jab) (portBlk p) 3
  else s)

/-! Time synchronisation (R408, R409) -/

/-- The slave port of PTPCFG: 1 XG0, 2 XG1. -/
def ptpSlave (v : ObjView) : Nat := v.num ethIdx 0x0D % 4

/-- The Sync interval in ticks: 2^−SYNCI s. -/
def State.syncTicks (s : State) : Nat := 100000000 / 2 ^ (s.cfg ethIdx 0x0D / 8 % 8)

/-- The XG port of a number, as a port of the switch. -/
def xgPort (x : Fin 2) : Fin 5 := ⟨x.val + 1, by omega⟩

/-- PTP_SYNC_RECEIVE (R409, R422): the offset of the target from TIME, in ns. -/
def execPtpSyncReceive (offset : Int) (gmid : BitVec 64) (s : State) : Host.Outcome State Fault Refusal :=
  let slave := ptpSlave s.obj
  .next (if !s.up 5 || slave = 0 || !s.portUp (Fin.ofNat 5 slave) then s
  else
    let id : BitVec 72 := gmid.setWidth 72
    let ofs : Word := BitVec.ofInt 36 (Max.max (-(2 ^ 35)) (Min.min offset (2 ^ 35 - 1)))
    let s1 := (s.onEth fun e => { e with ptpOfs := ofs, gmid := id, syncAt := some s.now }).raiseIf (s.eth.gmid != id) 0x5E 2
    if s.tsrc = 1 then s1.locked 1 offset 8 200 2000 else s1)

/-- The port may send Sync: as grandmaster every linked XG port; as relay the port that is not the slave (R408). -/
def State.ptpMaster (s : State) (x : Fin 2) : Bool :=
  let slave := ptpSlave s.obj
  s.portUp (xgPort x) && (slave = 0 || ((s.cfg ethIdx 0x0D).testBit 2 && slave != x.val + 1))

/-- PTP_SYNC_SEND (R408): two-step, so Sync and Follow_Up leave. -/
def execPtpSyncSend (port : Fin 2) (s : State) : Host.Outcome State Fault Refusal :=
  .next (if !s.ptpMaster port then s
  else
    let s1 := match (s.eport (xgPort port)).synced with
      | some t => s.at (t + s.syncTicks)
      | none => s
    s1.onPort (xgPort port) fun u => { u with synced := some s1.now, tx := satInc (satInc u.tx) })

/-- PTP_PDELAY (R408): the measured delay of a linked port, at a 1 s interval. -/
def execPtpPdelay (port : Fin 2) (delay : Nat) (s : State) : Host.Outcome State Fault Refusal :=
  .next (if !s.portUp (xgPort port) then s
  else
    let s1 := match (s.eport (xgPort port)).pdAt with
      | some t => s.at (t + secT 1)
      | none => s
    s1.onPort (xgPort port) fun u => { u with pdAt := some s1.now, pdelay := delay, tx := satInc u.tx })

/-- PTP_SYNC_TIMEOUT (R408, R409): three intervals without a Sync. -/
def execPtpSyncTimeout (s : State) : Host.Outcome State Fault Refusal :=
  .next (match s.up 5 && ptpSlave s.obj != 0, s.eth.syncAt with
    | true, some t =>
      let s1 := ((s.at (t + 3 * s.syncTicks)).onEth fun e => { e with syncAt := none }).raise 0x5E 3
      if s.tsrc = 1 then s1.discLost true else s1
    | _, _ => s)

/-! Configuration, admission and status -/

/-- A port starts in its mode (R403, R404): an XG port without a link, a T1S port with PLCA where it is node 0. -/
def State.portStart (s : State) (p : Fin 5) : State :=
  if p = 0 then s
  else if p.val < 3 then
    (s.onPort p fun u => { u with link := false, speed := 0, anok := false }).raiseIf (s.eport p).link (portBlk p) 0
  else
    let x : Fin 2 := Fin.ofNat 2 (p.val - 3)
    let mode := s.portRuns p
    let lead := fld (plcaWord s.obj x) 35 28 = 0
    s.onPort p fun u => { u with plca := mode = 1 && lead, csma := mode = 2 || (mode = 1 && !lead), jab := false }

/-- A port whose mode has changed, or a T1S port with another PLCA setting, starts anew. -/
def State.ethFollow (s : State) (old : ObjView) : State :=
  (allFin 5).foldl (fun st p =>
    if p = 0 || (portMode old p = portMode st.obj p && (p.val < 3 || old ethIdx p.val = st.obj ethIdx p.val)) then st else st.portStart p) s

/-- Bundle 0x3200 has been applied; with another TSRC the lock on the old source ends (log 45). -/
def State.ethCommitted (s : State) (old : ObjView) : State :=
  let s1 := s.ethFollow old
  if old.num ethIdx 0x0C = s.cfg ethIdx 0x0C then s1 else s1.discLost true

/-- The switch, its ports and block 0x5E at the release of NET. -/
def State.ethRelease (s : State) : State := (allFin 5).foldl State.portStart { s with eth := Ethernet.reset }

/-- One of their blocks alone (R521): the switch with the host's port, one of the other ports, or block 0x5E. -/
def State.ethBlockRelease (s : State) (b : Nat) : State :=
  if b = 0x58 then s.onEth fun e => { Ethernet.reset with
    ports := bset e.ports 0 EthPort.reset, rates := e.rates, ptpOfs := e.ptpOfs, gmid := e.gmid, syncAt := e.syncAt, good := e.good }
  else if b = 0x5E then s.onEth fun e => { e with
    ptpOfs := Ethernet.reset.ptpOfs, gmid := Ethernet.reset.gmid, syncAt := none, good := 0
    ports := ball e.ports fun _ u => { u with synced := none, pdAt := none, pdelay := EthPort.reset.pdelay } }
  else
    let p : Fin 5 := Fin.ofNat 5 (b - 0x58)
    (s.onPort p fun _ => EthPort.reset).portStart p

/-- Whether a contract's Ethernet endpoint is valid under a view (R405, R406, R407): its enabled entry, direction, PCP and class; reason
0x0D otherwise. -/
def ethEndpointOk (v : ObjView) (n : Fin 256) (code : Nat) (sink : Bool) : Bool :=
  match streamOf v n with
  | none => false
  | some x =>
    let c := epQueue code
    4 ≤ c && c < 8 && (pcpClass v x.pcp).val = c && x.dir = !sink &&
      (!sink || (allFin 5).all fun p => !(x.crosses p && 1 ≤ p.val && p.val ≤ 2) || (v.num ethIdx 9).testBit c)

/-- RATE and BURST of a contract with framing, r and b of R406. -/
def streamRate (v : ObjView) (x : Stream) : Frac := (32 * v.num (ctIdx x.contract) 4 * (x.flen + 24), Nat.max 1 x.flen)
def streamBurst (v : ObjView) (x : Stream) : Frac := (32 * v.num (ctIdx x.contract) 5 * (x.flen + 24), Nat.max 1 x.flen)

/-- The streams of contracts in a set that leave by a port. -/
def portStreams (v : ObjView) (live : Fin 256 → Bool) (p : Fin 5) : List Stream :=
  (streams v).filter fun x => !x.dir && x.crosses p && live x.contract

/-- The streams that share the medium of a port with those of one direction (R98): a T1S segment carries both directions. -/
def mediumStreams (v : ObjView) (live : Fin 256 → Bool) (p : Fin 5) (recv : Bool) : List Stream :=
  (streams v).filter fun x => (x.dir == recv || 3 ≤ p.val) && x.crosses p && live x.contract

/-- The port that a contract's stream would fill beyond 85 % of its rate, or that offers no bound (R98, R406, R407). -/
def State.ethFull (s : State) (v : ObjView) (live : Fin 256 → Bool) (n : Fin 256) : Option (Fin 5) :=
  match streamOf v n with
  | none => none
  | some x =>
    (allFin 5).find? fun p => p != 0 && x.crosses p &&
      (!(Frac.le (Frac.sum ((mediumStreams v live p x.dir).map (streamRate v))) (85 * s.portRate v p, 100)) || (3 ≤ p.val && portMode v p != 1) ||
        portMode v p = 0)

/-- The medium bound of a transmit stream in ns, the largest over its ports (R407). -/
def State.ethBound (s : State) (v : ObjView) (live : Fin 256 → Bool) (n : Fin 256) : Frac :=
  match streamOf v n with
  | none => (0, 1)
  | some x =>
    if x.dir then (0, 1)
    else
      let c := pcpClass v x.pcp
      let one (p : Fin 5) : Frac :=
        let h := (portStreams v live p).filter fun y => c.val ≤ (pcpClass v y.pcp).val
        if p.val < 3 then
          let b := Frac.sum (h.map (streamBurst v))
          let r := Frac.sum (h.map (streamRate v))
          Frac.add (12368 * 1000000000, s.portRate v p) (b.1 * r.2 * 1000000000, Nat.max 1 (b.2 * r.1))
        else
          let t := Fin.ofNat 2 (p.val - 3)
          let w := plcaWord v t
          let maxbc := fld w 11 4
          let cmax := 2000 + fld w 27 20 * fld w 19 12 * 100 + 800 * (((v ethIdx 0x0B).getD t.val 0).toNat + 1546 * (maxbc + 1))
          let nh := (h.map fun y => ceilDiv (4 * v.num (ctIdx y.contract) 5) y.flen).sum
          ((ceilDiv nh (maxbc + 1) + 1) * cmax, 1)
      (allFin 5).foldl (fun a p => if p != 0 && x.crosses p then (if Frac.le a (one p) then one p else a) else a) (0, 1)

/-- PTPCFG and TSRC of bundle 0x3200 are consistent with the ports and the cascade (R405, R420). -/
def State.ethCheck (s : State) (v : ObjView) : Bool :=
  let slave := ptpSlave v
  let other := if slave = 1 then 2 else 1
  (slave = 0 || portMode v (Fin.ofNat 5 slave) != 0) &&
  (!(v.num ethIdx 0x0D).testBit 2 || (slave != 0 && portMode v (Fin.ofNat 5 other) != 0)) &&
  (v.num ethIdx 0x0C != 2 || s.duo.casc != 0)

/-- PSTAT (obj 0x3200.11). -/
def State.ethStatus (s : State) : Word :=
  let xg (p : Fin 5) : Nat := let u := s.eport p; b1 u.link * 8 + u.speed.toNat * 2 + b1 u.anok
  let t1 (p : Fin 5) : Nat := let u := s.eport p; b1 u.plca * 8 + b1 u.csma * 4 + b1 u.jab * 2
  wd (xg 1 * 2 ^ 12 + xg 2 * 2 ^ 8 + t1 3 * 2 ^ 4 + t1 4)

/-- PCOUNT (obj 0x3200.20). -/
def State.ethCounts (s : State) : List Word := (allFin 5).flatMap fun p => let u := s.eport p; [u.rx, u.tx, u.errs, u.drops]

/-- Line 0 of block 0x58 (R402). -/
def State.ethLine (s : State) : Bool := s.eth.hrxr != s.eth.hrxw

end Sys2Proof.Machine
end

