-- ==== Sys2Proof/Machine/Ring.lean ====
section
/-!
DEFINITION. The Rewell ring (R410 to R421, R530 to R532).
-/
namespace Sys2Proof.Machine

def ringIdx : Nat := 0x3300

/-- A counter of the ring. -/
def addTo (w : Word) (n : Nat) : Word := wd (Nat.min (2 ^ 36 - 1) (w.toNat + n))

/-- The ring is enabled, and its WIN: in recovery mode ROM serves it with WIN 400 (R567). -/
def State.ringOn (s : State) : Bool := s.upd.recov || s.cfgB ringIdx 1
def State.ringWin (s : State) : Nat := if s.upd.recov then 400 else s.cfg ringIdx 2

/-- The node is on the ring: released, enabled, and not bypassed (R418). -/
def State.onTheRing (s : State) : Bool := s.up 5 && s.ringOn && !s.ring.byp

/-- Symbols that a frame of LEN payload words takes with its gap (R411). -/
def ringSymbols (len : Nat) : Nat := 4 + 9 * (1 + (len + 2) / 2)

/-- CHAN word c (obj 0x3300.05). -/
def chanWord (v : ObjView) (c : Nat) : Word := (v ringIdx 5).getD c 0

/-- Words per frame of a ring sink flow, W (R417). -/
def ringW (v : ObjView) (n : Fin 256) : Nat := v.num (ctIdx n) 5 + ceilDiv (v.num (ctIdx n) 4) 10000

/-! Sending (R412, R413) -/

/-- The OBJ frames of the admitted flows with waiting words, by class and then by contract (R413, R417). -/
def State.objFrames (s : State) : List (Fin 256 × RingTx) :=
  (List.range 4).flatMap fun k => (allFin 256).filterMap fun n =>
    let sink := s.cfg (ctIdx n) 2
    let ws := ((s.ring.objq.filter (·.1 == n)).map (·.2)).take (ringW s.obj n)
    let w := chanWord s.obj (epQueue sink)
    if (s.ct n).inForce && epBlock sink = 0x5D && s.cfg (ctIdx n) 3 = k && !ws.isEmpty && w.getLsbD 35 && w.getLsbD 34 then
      some (n, { cls := 5, bc := w.getLsbD 30, dst := Fin.ofNat 8 (fld w 33 31), words := ws })
    else none

/-- What a frame in the window removes from the queues: an OBJ frame its words, another itself. -/
def State.ringSent (s : State) (n : Option (Fin 256)) (x : RingTx) : State :=
  match n with
  | some n => s.onRing fun r => { r with objq := r.objq.filter (·.1 != n) ++ (r.objq.filter (·.1 == n)).drop x.words.length }
  | none => s.onRing fun r => { r with txq := r.txq.erase x }

/-- The frames that fit whole in what remains of the window leave, in order (R412). -/
def State.ringPut (s : State) (left : Nat) : List (Option (Fin 256) × RingTx) → State
  | [] => s
  | (n, x) :: rest =>
    let c := ringSymbols x.words.length
    if left < c then s.ringPut left rest
    else
      let k := Fin.ofNat 16 x.cls.toNat
      let f : RingFrame :=
        { cls := x.cls, src := s.duo.casc, bc := x.bc, dst := x.dst
          chan := match n with | some n => Fin.ofNat 16 (epQueue (s.cfg (ctIdx n) 2)) | none => 0
          lap := false, seq := bget s.ring.seqs k, stamp := s.stamp, words := x.words, crcOk := true, eer := false }
      let s1 := (s.ringSent n x).onRing fun r => { r with seqs := bmod r.seqs k (· + 1), sent := r.sent ++ [f] }
      s1.ringPut (left - c) rest

/-- The node's window of a train: STATE, OBJ, DAISY, ZOP (R413). -/
def State.ringWindow (s : State) : State :=
  let of (c : BitVec 4) : List (Option (Fin 256) × RingTx) := (s.ring.txq.filter (·.cls == c)).map fun x => (none, x)
  (s.onRing fun r => { r with sent := [] }).ringPut s.ring.win
    (of 2 ++ s.objFrames.map (fun x => (some x.1, x.2)) ++ of 3 ++ of 4)

/-- A frame waits for the window. -/
def State.ringQueue (s : State) (x : RingTx) : State := s.onRing fun r => { r with txq := r.txq ++ [x] }

/-- A word of a ring sink flow waits for its frame (R417). -/
def State.ringSink (s : State) (n : Fin 256) (w : Word) : State := s.onRing fun r => { r with objq := r.objq ++ [(n, w)] }

/-- Applied WIN and TRAIN take effect (R421). -/
def State.ringTakeWin (s : State) : State :=
  s.onRing fun r => if r.winNext then { r with win := s.ringWin, train := s.cfg ringIdx 3, winNext := false } else r

/-! The train -/

/-- TEND has not returned by the end of the cycle (R419). -/
def State.ringTendLost (s : State) : State :=
  (s.onRing fun r => { r with opened := none, back := none, tok := false, lost := satInc r.lost }).raise 0x5D 3

/-- RING_TEND_LOST (R419). -/
def execRingTendLost (s : State) : Host.Outcome State Fault Refusal :=
  .next (match s.onTheRing && s.ring.timer, s.ring.opened with
    | true, some t => (s.at (t + 10000)).ringTendLost
    | _, _ => s)

/-- The next cycle start that the timer has not opened (R412). -/
def State.nextCycle (s : State) : Nat := (Nat.max s.now (s.ring.lastCyc + 1) + 9999) / 10000 * 10000

/-- RING_CYCLE_START (R412, R419): CYC, the timer's own window, TEND. -/
def execRingCycleStart (s : State) : Host.Outcome State Fault Refusal :=
  .next (if s.onTheRing && s.ring.timer then
    let s1 := s.at s.nextCycle
    let s2 := if s1.ring.opened.isSome then s1.ringTendLost else s1
    let go (r : Ring) : Ring := { r with opened := some s1.now, back := none, lastCyc := s1.now, cycs := satInc r.cycs }
    (s2.onRing go).ringTakeWin.ringWindow
  else s)

/-- Word 3 of a CYC frame. -/
def cycWord (pres : Byte) (hops : BitVec 4) (order : BitVec 24) : Word := wd (pres.toNat * 2 ^ 28 + hops.toNat * 2 ^ 24 + order.toNat)

/-- The node's ID stands in ORDER among the followers passed. -/
def inOrder (c : CycFrame) (id : Fin 8) : Bool :=
  (List.range (Nat.min 8 c.hops.toNat)).any fun p => c.order.toNat / 2 ^ (3 * p) % 8 = id.val

/-- The CYC frame as a follower forwards it (R415). -/
def cycPass (c : CycFrame) (id : Fin 8) (cdly : Nat) : CycFrame :=
  let p := c.hops.toNat
  let order := if p < 8 then c.order.toNat - c.order.toNat / 2 ^ (3 * p) % 8 * 2 ^ (3 * p) + id.val * 2 ^ (3 * p) else c.order.toNat
  { c with corr := c.corr + cdly + 400, hops := c.hops + 1, pres := c.pres ||| BitVec.ofNat 8 (2 ^ id.val), order := BitVec.ofNat 24 order }

/-- A follower takes the ring's time (R409, R415). -/
def State.ringTime (s : State) (c : CycFrame) : State :=
  if s.tsrc = 2 then s.locked 2 (((c.time.toNat : Int) - s.now) * 10 + c.corr + s.cfg ringIdx 4) 16 100 1000 else s

/-- RING_CYC_RECEIVE (R414, R415, R419, R531): the timer strips its own; a listener counts it and looks for its own ID; a follower takes
the time and forwards it. -/
def execRingCycReceive (c : CycFrame) (s : State) : Host.Outcome State Fault Refusal :=
  let id := s.duo.casc
  let note (r : Ring) : Ring := { r with lastCyc := s.now, missed := 0 }
  .next (if !s.up 5 || !s.ringOn then s
  else if s.ring.join then
    let s1 := s.onRing fun r => { note r with heard := r.heard + 1 }
    if !s.duo.dup && (c.pres.getLsbD id.val || inOrder c id) then State.raise { s1 with duo := { s1.duo with dup := true } } 0 8 else s1
  else if s.ring.byp then s
  else if s.ring.timer then
    match s.ring.opened with
    | none => s
    | some t =>
      let w := cycWord c.pres c.hops c.order
      let s1 := s.onRing fun r => { r with back := some s.now, rtrip := (s.now - t) * 10, order := w }
      s1.raiseIf (s.ring.order != w) 0x5D 4
  else
    let o := cycPass c id (s.cfg ringIdx 4)
    let s1 := s.onRing fun r => { note r with cycs := satInc r.cycs, order := cycWord o.pres o.hops o.order }
    s1.ringTakeWin.ringTime c)

/-- RING_TEND_RECEIVE (R412, R416): a follower appends its frames; the timer drops it, and a train longer than TRAIN raises kind 5. -/
def execRingTendReceive (s : State) : Host.Outcome State Fault Refusal :=
  .next (if !s.onTheRing then s
  else if s.ring.timer then
    if s.ring.opened.isNone then s
    else
      let long := match s.ring.back with | some b => 4 * s.ring.train < s.now - b | none => false
      (s.onRing fun r => { r with opened := none, back := none, tok := true, viol := none }).raiseIf long 0x5D 5
  else (s.onRing fun r => { r with viol := none }).ringWindow)

/-- A CRC failure or a code violation found here first: the frame goes on ending in EER (R414). -/
def State.ringErr (s : State) : State := (s.onRing fun r => { r with errs := satInc r.errs }).raise 0x5D 1

/-- An accepted OBJ frame goes to the flow of its channel (R413, R414). -/
def State.ringObj (s : State) (f : RingFrame) : State :=
  let w := chanWord s.obj f.chan.val
  if w.getLsbD 35 && !w.getLsbD 34 && fld w 33 31 = f.src.val then
    match s.flowOf (0x5D00 + f.chan.val) with
    | some n => s.toFlow n f.words
    | none => s
  else s

/-- A follower's response goes on to whoever's request the master had put on the ring (R82); other messages with RSP set are discarded (R74). -/
def State.ringRelay (s : State) (f : RingFrame) : State :=
  let os := (unpackFrame f.words).1
  let o (i : Nat) : Byte := os.getD i 0
  let svc := (o 0).toNat % 64
  let asks (x : FwdReq) : Bool :=
    x.hdr.node.toNat = f.src.val && x.svc = svc && x.hdr.rqid = o 3 && x.hdr.index = o 4 ++ o 5 && x.hdr.sub = o 6
  if (o 0).toNat / 64 != 1 || !(o 1).msb then s
  else match s.srv.fwd.find? asks with
  | some x =>
    let t := s.onSrv fun v => { v with fwd := v.fwd.erase x }
    if (o 1).getLsbD 6 then t.zopReply x.by_ x.hdr svc (o 8, o 9 ++ o 10) []
    else t.zopReply x.by_ x.hdr svc okc ((os.drop 8).take (o 7).toNat)
  | none => s

/-- RING_FRAME_RECEIVE (R414): own frames and orphans are stripped, errors marked, frames for this node accepted.  STATE and DAISY frames and ZOP
requests act through the commands of their own. -/
def execRingFrameReceive (f : RingFrame) (s : State) : Host.Outcome State Fault Refusal :=
  .next (if !s.onTheRing then s
  else if f.src = s.duo.casc then s
  else if s.ring.timer && f.lap then (s.onRing fun r => { r with orphans := satInc r.orphans }).raise 0x5D 7
  else if f.eer then s
  else if !f.crcOk then s.ringErr
  else if f.cls = 5 && (f.bc || f.dst = s.duo.casc) then s.ringObj f
  else if f.cls = 4 && f.dst = s.duo.casc && s.up 2 then s.ringRelay f
  else s)

/-- RING_CODE_VIOLATION (R105, R414, R422): each one is an occurrence of cause 1. -/
def execRingCodeViolation (s : State) : Host.Outcome State Fault Refusal :=
  .next (if !s.onTheRing then s
  else
    let s1 := s.onRing fun r => { r with cviol := satInc r.cviol, dirty := true, viol := some s.now }
    ((s1.raise 0x5D 0).mediumMiss 0x5D 1).ringErr)

/-- RING_TRAIN_REPAIR (R414): 4 µs of idle end the train; a follower appends its frames. -/
def execRingTrainRepair (s : State) : Host.Outcome State Fault Refusal :=
  .next (match s.onTheRing, s.ring.viol with
    | true, some t =>
      let s1 := (s.at (t + usT 4)).onRing fun r => { r with viol := none }
      if s.ring.timer then s1 else s1.ringWindow
    | _, _ => s)

/-- RING_CYC_LOST (R409, R419): the third cycle without CYC raises kind 2 and clears DISC; each cycle is counted. -/
def execRingCycLost (s : State) : Host.Outcome State Fault Refusal :=
  .next (if !s.onTheRing || s.ring.timer then s
  else
    let r := s.ring
    if r.missed = 0 then
      let s1 := (s.at (r.lastCyc + 30000)).onRing fun r => { r with missed := 3, lost := addTo r.lost 3 }
      let s2 := s1.raise 0x5D 2
      if s2.tsrc = 2 then s2.discLost true else s2
    else (s.at (r.lastCyc + (r.missed + 1) * 10000)).onRing fun r => { r with missed := r.missed + 1, lost := satInc r.lost })

/-- RING_JOIN (R419, R531): the bypass opens after 16 CYC frames, unless the ID is a duplicate. -/
def execRingJoin (s : State) : Host.Outcome State Fault Refusal :=
  .next (if s.up 5 && s.ringOn && s.ring.join && 16 ≤ s.ring.heard && !s.duo.dup then
    s.onRing fun r => { r with byp := false, join := false, missed := 0 }
  else s)

/-- When a device may take the timer's role: strapped 0 after 20 cycles of listening without CYC, or as a backup (R532). -/
def State.timerDue (s : State) : Option Nat :=
  if s.duo.casc = 0 && s.ring.join && s.ring.heard = 0 then some (s.ring.since + 200000)
  else if s.cfgB 0x1600 7 then some (s.ring.lastCyc + (3 + 4 * s.duo.casc.val) * 10000)
  else none

/-- RING_TIMER_TAKE (R409, R532): at the next cycle start on its own TIME. -/
def execRingTimerTake (s : State) : Host.Outcome State Fault Refusal :=
  .next (if !s.up 5 || !s.ringOn || s.ring.timer || s.duo.dup || (s.ring.byp && !s.ring.join) then s
  else match s.timerDue with
    | none => s
    | some t =>
      let s1 := s.at ((Nat.max s.now t + 9999) / 10000 * 10000)
      let take (r : Ring) : Ring :=
        { r with timer := true, byp := false, join := false, missed := 0, lastCyc := s1.now - 1, opened := none, back := none, viol := none }
      let s2 := (s1.onRing take).raise 0 9
      if s.tsrc = 2 then s2.discLost true else s2)

/-- RING_SYMBOL_LOCK (R410, obj 0x3300.07). -/
def execRingSymbolLock (lock : Bool) (s : State) : Host.Outcome State Fault Refusal :=
  .next (if s.up 5 then s.onRing fun r => { r with lock := lock } else s)

/-! Bypass (R418, R419) -/

/-- The node begins to listen through the closed bypass. -/
def State.ringListen (s : State) : State :=
  s.onRing fun r => { r with byp := true, join := true, heard := 0, since := s.now, lastCyc := s.now, missed := 0, timer := false
                             win := s.ringWin, train := s.cfg ringIdx 3, winNext := false }

/-- The node leaves the ring. -/
def State.ringLeave (s : State) : State :=
  s.onRing fun r => { r with byp := true, join := false, timer := false, opened := none, back := none, viol := none, tok := false }

/-- The release of NET. -/
def State.ringRelease (s : State) : State :=
  let s1 := s.onRing fun _ => Ring.reset
  if s.ringOn then s1.ringListen else s1

/-- Bundle 0x3300 has been applied. -/
def State.ringFollow (s : State) (old : ObjView) : State :=
  if !s.ringOn then s.ringLeave
  else if old.num ringIdx 1 = 0 then s.ringListen
  else if s.ring.byp then s.onRing fun r => { r with win := s.ringWin, train := s.cfg ringIdx 3 }
  else s.onRing fun r => { r with winNext := true }

/-! Admission (R417, R421, R541) -/

/-- The charge of the STATE frame while a duo is in use (R540, R541). -/
def stateSymbols (v : ObjView) : Nat :=
  if v.num 0x1600 1 = 0 then 0
  else ringSymbols (4 + 2 * ((v 0x1600 4).filter (·.getLsbD 35)).length + 17 * ((v 0x1600 5).filter (·.getLsbD 35)).length)

/-- The symbols charged against WIN by flows in a set and by the STATE frame. -/
def ringCharge (v : ObjView) (live : Fin 256 → Bool) : Nat :=
  stateSymbols v + (((allFin 256).filter fun n => live n && epBlock (v.num (ctIdx n) 2) = 0x5D).map fun n => ringSymbols (ringW v n)).sum

/-- The symbols that flows in a set bring from other nodes in a cycle (R98). -/
def ringHeard (v : ObjView) (live : Fin 256 → Bool) : Nat :=
  (((allFin 256).filter fun n => live n && epBlock (v.num (ctIdx n) 1) = 0x5D).map fun n => ringSymbols (ringW v n)).sum

/-- The charges stay within 85 % of WIN, those with what the other nodes send within 85 % of TRAIN (log 34), and no frame holds more than 256
words. -/
def ringFits (v : ObjView) (live : Fin 256 → Bool) : Bool :=
  100 * ringCharge v live ≤ 85 * v.num ringIdx 2 &&
    (ringHeard v live = 0 || 100 * (ringCharge v live + ringHeard v live) ≤ 85 * v.num ringIdx 3) &&
    (allFin 256).all fun n => !(live n && epBlock (v.num (ctIdx n) 2) = 0x5D) || ringW v n ≤ 256

/-- A ring endpoint is valid: its channel is in use in that direction. -/
def ringEndpointOk (v : ObjView) (code : Nat) (sink : Bool) : Bool :=
  epQueue code < 16 && (chanWord v (epQueue code)).getLsbD 35 && (chanWord v (epQueue code)).getLsbD 34 == sink

/-- Position of a node on the ring by the last ORDER: the timer at 0, the follower at position p at p + 1. -/
def orderPos (w : Word) (id : Nat) : Option Nat :=
  let n := fld w 27 24
  ((List.range (Nat.min n 8)).find? fun p => fld w (3 * p + 2) (3 * p) = id).map (· + 1)

/-- Hops from this node to a destination by the last ORDER (R417); 7 where it does not show them (log 56). -/
def State.ringHops (s : State) (dst : Nat) (bc : Bool) : Nat :=
  let w := s.ring.order
  let n := fld w 27 24 + 1
  let pos (id : Nat) : Option Nat := if id = s.duo.casc.val && s.ring.timer then some 0 else orderPos w id
  if !s.onTheRing then 7
  else if bc then (if s.ring.timer then n - 1 else 7)
  else match pos s.duo.casc.val, pos dst with
    | some a, some b => if a ≤ b then b - a else n + b - a
    | _, _ => 7

/-- The medium bound of a ring sink flow in ns (R417). -/
def State.ringBound (s : State) (v : ObjView) (n : Fin 256) : Nat :=
  let w := chanWord v (epQueue (v.num (ctIdx n) 2))
  100000 + 40 * v.num ringIdx 3 + s.ringHops (fld w 33 31) (w.getLsbD 30) * (400 + v.num ringIdx 4)

/-- The check of bundle 0x3300 (R416, R421). -/
def ringCheck (v : ObjView) (live : Fin 256 → Bool) : Bool :=
  40 + v.num ringIdx 2 ≤ v.num ringIdx 3 && v.num ringIdx 3 ≤ 2400 && v.num ringIdx 4 ≤ 100 && ringFits v live

/-- RSTAT (obj 0x3300.07). -/
def State.ringStat (s : State) : Word :=
  let r := s.ring
  wd (s.duo.casc.val * 2 ^ 21 + b1 r.timer * 2 ^ 20 + b1 r.byp * 2 ^ 19 + b1 r.join * 2 ^ 18 + b1 r.lock * 2 ^ 17 + b1 r.tok * 2 ^ 16)

end Sys2Proof.Machine
end

