-- ==== Sys2Proof/Machine/Duo.lean ====
section
/-!
DEFINITION. Duo fail-over pairs (R529 to R551).
-/
namespace Sys2Proof.Machine

def duoIdx : Nat := 0x1600
def State.onDuo (s : State) (f : Duo → Duo) : State := { s with duo := f s.duo }

/-- The enabled pair entries, as local and partner load codes (R535). -/
def pairList (v : ObjView) : List (Nat × Nat) :=
  (v duoIdx 4).filterMap fun w => if w.getLsbD 35 then some (fld w 34 27, fld w 26 19) else none

/-- The enabled loop entries. -/
def ploopList (v : ObjView) : List (Nat × Nat) :=
  (v duoIdx 5).filterMap fun w => if w.getLsbD 35 then some (fld w 34 26, fld w 25 17) else none

/-- What a paired load is charged in reserve: its full command state (R102, R543). -/
def State.duoCharge (s : State) (code : Nat) : Charge :=
  if code ≤ 0x47 then s.hsCharge (Fin.ofNat 72 code) .on else s.valveCharge (Fin.ofNat 12 (code - 0x58))

/-- The reservations of a duo that stands by (R543). -/
def State.duoResv (s : State) (v : ObjView) : List Charge := (pairList v).map fun p => s.duoCharge p.1

/-- The charge of the LF driver while it is in use (R450): 0.2 × ILF, and 1 mW for each mA. -/
def lfResv (v : ObjView) : List Charge :=
  if v.num 0x2900 1 = 0 then [] else [{ code := 0xAA, na := v.num 0x2900 3 * 200000, nw := v.num 0x2900 3 * 1000000, derat := false }]

/-- The reservations outside the rule table follow the role and the settings (R450, R543). -/
def State.setExtra (s : State) : State :=
  s.onAdm fun a => { a with extraResv := lfResv s.obj ++ (if s.duo.role.waits then s.duoResv s.obj else []) }

/-- A paired channel goes off where the role holds it (R543). -/
def State.duoOff (s : State) (code : Nat) : State :=
  if code ≤ 0x47 then s.hsOff (Fin.ofNat 72 code) else s.valveOff (Fin.ofNat 12 (code - 0x58))

/-- A role change (R536, R537, R549): line 0 is asserted, equal PRIMARY settings raise kind 10, paired outputs go off where the role
holds them. -/
def State.duoRole (s : State) (r : DuoRole) : State :=
  if r == s.duo.role then s
  else
    let same := s.duo.heardP && s.duo.pri == s.cfgB duoIdx 2
    let s1 := ((s.onDuo fun d => { d with role := r, line := true }).raiseIf same 0 10).setExtra
    if r.waits && !s.duo.role.waits then (pairList s.obj).foldl (fun st p => st.duoOff p.1) s1 else s1

/-- A paired channel follows its command state (R536). -/
def State.duoGo (s : State) (code : Nat) : State :=
  if code ≤ 0x47 then s.hsFollow (Fin.ofNat 72 code) else s.valveFollow (Fin.ofNat 12 (code - 0x58))

/-- UNRESOLVED is entered: what was known of the partner is forgotten (R536, R538). -/
def State.duoUnresolve (s : State) : State :=
  (s.duoRole .unresolved).onDuo fun d =>
    { d with copy := [], part := false, here := false, misscyc := 0, good := 0, missc := 0, shGood := 0, shBad := 0, heardP := false, frame := []
             pact := false, step := false, due := none }

/-- OFF is entered: the channels paired under a view act as ordinary channels (R536). -/
def State.duoStop (s : State) (v : ObjView) : State :=
  let s1 := (s.duoRole .off).onDuo fun d => { d with due := none, step := false }
  (pairList v).foldl (fun st p => st.duoGo p.1) s1

/-- The device is the effective primary (R537). -/
def State.effPrimary (s : State) : Bool :=
  let mine := s.cfgB duoIdx 2
  if !s.duo.heardP then mine
  else if mine != s.duo.pri then mine else s.duo.casc.val < s.cfg duoIdx 3

/-- ACTIVE is taken from UNRESOLVED: paired channels act on their command states (R536). -/
def State.duoAct (s : State) : State := (pairList s.obj).foldl (fun st p => st.duoGo p.1) (s.duoRole .active)

/-! The STATE frame (R539, R540) -/

/-- CST, PERIOD, on-time and PHASE of a paired channel. -/
def State.pairState (s : State) (code : Nat) : Nat × Nat × Nat × Nat :=
  if code ≤ 0x47 then
    let ch := Fin.ofNat 72 code
    let h := bget s.hs ch
    let c := h.next.getD h.act
    ((if c = .off then 0 else if c = .on then 1 else 2), h.period, s.hsOnTime ch c, h.phase)
  else
    let v := bget s.vd (Fin.ofNat 12 (code - 0x58))
    (b1 v.stage.active, 0, 0, 0)

/-- HEALTH (obj 0x1600.09). -/
def State.duoHealth (s : State) : Word :=
  let d := s.duo
  let role := match d.role with | .off => 0 | .unresolved => 1 | .active => 2 | .syncing => 3 | .ready => 4
  wd (role * 2 ^ 20 + b1 (d.role == .ready) * 2 ^ 19 + b1 d.part * 2 ^ 18 + b1 d.match_ * 2 ^ 17 + b1 d.diagok * 2 ^ 16 + b1 d.shok * 2 ^ 15 +
    b1 d.memok * 2 ^ 14 + b1 (s.ring.lock && !s.ring.dirty) * 2 ^ 13 + min 31 d.missc * 2 ^ 8 + d.gen.toNat)

/-- The STATE payload (R540): an active device captures its paired items; any other leaves every state field zero. -/
def State.stateFrame (s : State) : List Word :=
  let d := s.duo
  let act := d.role == .active
  let ps := pairList s.obj
  let ls := ploopList s.obj
  let w0 := wd (b1 act * 2 ^ 35 + b1 (d.role == .ready) * 2 ^ 34 + d.gen.toNat * 2 ^ 26 + ps.length * 2 ^ 20 + ls.length * 2 ^ 16 +
    b1 (s.cfgB duoIdx 2) * 2 ^ 15)
  let pair (p : Nat × Nat) : List Word :=
    let (cst, per, onT, ph) := if act then s.pairState p.1 else (0, 0, 0, 0)
    [wd (p.1 * 2 ^ 28 + p.2 * 2 ^ 20 + cst * 2 ^ 16 + per), wd (onT * 2 ^ 20 + ph * 2 ^ 4)]
  let loop (p : Nat × Nat) : List Word :=
    let l := s.loop (Fin.ofNat 360 p.1)
    if act then
      wd (p.1 * 2 ^ 27 + p.2 * 2 ^ 18 + l.mode.val * 2 ^ 16 + b1 l.safe.isSome * 2 ^ 15) :: ((l.ckpt.map (·.core)).getD l.core).words
    else wd (p.1 * 2 ^ 27 + p.2 * 2 ^ 18) :: List.replicate 16 0
  [w0, wd (s.now / 100000), s.duoHealth, if act then wd s.flagsNow else 0] ++ ps.flatMap pair ++ ls.flatMap loop

/-! Takeover (R546, R547) -/

/-- The copied words of loop j. -/
def copyLoop (ws : List Word) (np j : Nat) : List Word := (ws.drop (4 + 2 * np + 17 * j)).take 17

/-- The DUTY whose on-time is n of a period, in 10 µs (R119). -/
def dutyFor (n period : Nat) : BitVec 16 := BitVec.ofNat 16 (ceilDiv (n * 65535) period)

/-- A paired channel is set from the copy (R547): its energisation is reserved; the load was on when it was copied, so no inrush window opens
(R126, log 19). -/
def State.pairTake (s : State) (code : Nat) : State :=
  match copyOf s.duo.copy code with
  | none =>
    if code ≤ 0x47 then s.hsPolicy (Fin.ofNat 72 code) else s.valvePolicy (Fin.ofNat 12 (code - 0x58))
  | some (w, x) =>
    let cst := fld w 19 16
    if code ≤ 0x47 then
      let ch := Fin.ofNat 72 code
      let per := fld w 15 0
      let c : HsCmd := if cst = 0 then .off else if cst = 1 then .on else .duty (dutyFor (fld x 35 20) per)
      let s1 := s.onHs ch fun h => { h with
        cmd := c, policy := .none, rsp := false
        period := if cst = 2 then per else h.period, phase := if cst = 2 then fld x 19 4 else h.phase
        offAt := if cst = 0 then h.offAt else some (s.now - 1) }
      (s1.hsApply ch c true).2
    else (s.valveCommand (Fin.ofNat 12 (code - 0x58)) (cst = 1) 0).2

/-- The core of a loop from the sixteen words of R289. -/
def coreOf (c : LoopCore) (ws : List Word) : LoopCore :=
  let g (i : Nat) : Int := (ws.getD i 0).toInt
  let st (i : Nat) : Int := g i * 2 ^ 36 + (ws.getD (i + 1) 0).toNat
  let w10 := ws.getD 10 0
  { c with i := st 0, s2 := st 2, d := g 4, v := g 5, y1 := g 6, v1 := g 7, r1 := g 8, qh := g 9, region := Fin.ofNat 8 (fld w10 35 33)
           missc := fld w10 32 31, overs := fld w10 30 15, sigma := g 11 }

/-- A paired loop is restored from the copy with its MODE and SAFE (log 47), its first AUTO step preset to word 7; without a copy it starts cold
(R547). -/
def State.loopTake (s : State) (p : Nat × Nat) : State :=
  let m := Fin.ofNat 360 p.1
  let np := fld (s.duo.copy.getD 0 0) 25 20
  let nl := fld (s.duo.copy.getD 0 0) 19 16
  match ((List.range nl).map (copyLoop s.duo.copy np)).find? fun ws => fld (ws.getD 0 0) 26 18 = p.1 with
  | some ws =>
    let w := ws.getD 0 0
    let mode : Fin 3 := Fin.ofNat 3 (fld w 17 16)
    let safe : Bool := w.getLsbD 15
    (s.keepObj (loopIdx m) 1 [wd mode.val]).onLoop m fun l =>
      let c := coreOf l.core (ws.drop 1)
      { l with core := c, mode := mode, modeReq := false, safe := if safe then some (l.safe.getD 0) else none
               vref := if mode = 2 && !safe then some c.v1 else none }
  | none => s.onLoop m fun l => { l with cold := true, core := LoopCore.zero, starts := true, entry := l.mode != 0, restart := l.mode != 0 }

/-- The standby takes over (R547). -/
def State.takeOver (s : State) : State :=
  let none_ := s.duo.copy.isEmpty
  let gen := s.duo.pgen + 1
  let s0 := s.onDuo fun d => { d with role := .active, line := true, gen := gen, takeover := satInc d.takeover, lastto := s.stamp }
  let codes := (pairList s.obj).map (·.1)
  let s1 := ((List.range 0x64).filter codes.contains).foldl State.pairTake s0
  let s2 := (ploopList s.obj).foldl (fun st p => st.loopTake p) s1.setExtra
  let s3 := if none_ then s2 else
    { s2 with adm := { s2.adm with flags := BitVec.ofNat 16 (fld (s.duo.copy.getD 3 0) 15 0) } }
  let s4 := (s3.raiseIf (s.duo.heardP && s.duo.pri == s.cfgB duoIdx 2) 0 10).raise 0 0
  (s4.missItems s4.everyItem 5 0).logEvent 6
    [wd (gen.toNat * 2 ^ 28 + s.cfg duoIdx 3 * 2 ^ 25), wd s.duo.copyAt]

/-! Receiving (R542, R545) -/

/-- The pair lists mirror each other (R535). -/
def State.duoMatch (s : State) (ws : List Word) : Bool :=
  let np := fld (ws.getD 0 0) 25 20
  let nl := fld (ws.getD 0 0) 19 16
  let ps := (List.range np).map fun i => let w := (copyPair ws i).1; (fld w 27 20, fld w 35 28)
  let ls := (List.range nl).map fun j => let w := (copyLoop ws np j).getD 0 0; (fld w 26 18, fld w 35 27)
  (pairList s.obj).length = np && (pairList s.obj).all (ps.contains ·) &&
    (ploopList s.obj).length = nl && (ploopList s.obj).all (ls.contains ·)

/-- MATCH follows a partner STATE; kind 2 is raised at its falling edge (R535). -/
def State.setMatch (s : State) (m : Bool) : State :=
  (s.onDuo fun d => { d with match_ := m }).raiseIf (s.duo.match_ && !m) 0 2

/-- The difference of a loop from its copy lies within SHTOL: its output and its preset state (R545). -/
def State.shadowNear (s : State) (m : Fin 360) (ws : List Word) : Bool :=
  let tol := s.cfgI duoIdx 6
  let c := coreOf LoopCore.zero (ws.drop 1)
  let l := (s.loop m).core
  (l.v1 - c.v1).natAbs ≤ tol.natAbs && (l.i - c.i).natAbs ≤ tol.natAbs * 2 ^ 24

/-- The shadow comparison at a valid copy, after which the standby's loops take the copied words (R545). -/
def State.shadow (s : State) (ws : List Word) : State :=
  let np := fld (ws.getD 0 0) 25 20
  let nl := fld (ws.getD 0 0) 19 16
  let mine (c : List Word) : Bool := (ploopList s.obj).any fun p => p.1 = fld (c.getD 0 0) 26 18
  let pairs := ((List.range nl).map fun j => copyLoop ws np j).filter mine
  let bad := pairs.filter fun c => !(s.shadowNear (Fin.ofNat 360 (fld (c.getD 0 0) 26 18)) c)
  let s1 := pairs.foldl (fun st c => st.onLoop (Fin.ofNat 360 (fld (c.getD 0 0) 26 18)) fun l => { l with core := coreOf l.core (c.drop 1) }) s
  let ok := bad.isEmpty
  let n := if ok then 0 else s.duo.shBad + 1
  (s1.onDuo fun d => { d with shok := ok, shBad := n, shGood := if ok then d.shGood + 1 else 0, shmis := addTo d.shmis bad.length }).raiseIf
    (n = 3) 0 3

/-- A standby's SYNC after a copy, a miss or a comparison (R536). -/
def State.duoSync (s : State) : State :=
  let d := s.duo
  let shOk := (ploopList s.obj).isEmpty || 3 ≤ d.shGood
  if d.role == .syncing && 16 ≤ d.good && d.match_ && shOk then s.duoRole .ready
  else if d.role == .ready && (d.good = 0 || !d.match_ || 3 ≤ d.shBad) then s.duoRole .syncing
  else s

/-- G is newer than L (R442). -/
def newer (g l : Byte) : Bool := 1 ≤ (g - l).toNat && (g - l).toNat ≤ 127

/-- A valid copy (R536, R542). -/
def State.duoCopy (s : State) (ws : List Word) : State :=
  let w0 := ws.getD 0 0
  let act := w0.getLsbD 35
  let note (d : Duo) : Duo :=
    { d with copy := if act then ws else d.copy, copyAt := (ws.getD 1 0).toNat, frame := ws, here := true, due := none, missc := 0, good := d.good + 1
             pri := w0.getLsbD 15, pgen := BitVec.ofNat 8 (fld w0 33 26), pact := act, heardP := true, misscyc := 0, phealth := ws.getD 2 0 }
  let s1 := (s.onDuo note).setMatch (s.duoMatch ws)
  let g := BitVec.ofNat 8 (fld w0 33 26)
  match s.duo.role with
  | .unresolved =>
    if act then (s1.duoRole .syncing).onDuo fun d => { d with good := 1, shGood := 0, shBad := 0 } else s1
  | .syncing | .ready => (if act then s1.shadow ws else s1).duoSync
  | .active =>
    if act && (newer g s.duo.gen || (g = s.duo.gen && !s1.effPrimary)) then s1.onDuo fun d => { d with step := true } else s1
  | .off => s1

/-- DUO_STATE_RECEIVE (R542): the frame passes R414, comes from PARTNER, and names the current base cycle. -/
def execDuoStateReceive (f : DuoFrame) (s : State) : Host.Outcome State Fault Refusal :=
  .next (if s.duo.role != .off && s.onTheRing && f.ok && f.src.val = s.cfg duoIdx 3 && f.words.getD 1 0 = wd (s.now / 100000) then
    s.duoCopy f.words
  else s)

/-- DUO_COPY_DEADLINE (R542): 500 µs after the strobe. -/
def execDuoCopyDeadline (s : State) : Host.Outcome State Fault Refusal :=
  .next (match s.duo.due with
    | none => s
    | some t =>
      let s1 := (s.at (t + usT 500)).onDuo fun d => { d with due := none, good := 0, missc := d.missc + 1, missed := satInc d.missed }
      (s1.raise 0 1).duoSync)

/-- DUO_ALARM_RECEIVE (R546, R548): the partner's ID. -/
def execDuoAlarmReceive (id : BitVec 8) (s : State) : Host.Outcome State Fault Refusal :=
  .next (if (s.duo.role == .syncing || s.duo.role == .ready) && id.toNat = s.cfg duoIdx 3 then s.takeOver else s)

/-! The strobe -/

/-- A paired channel of a standby shows OL, SCB, SCG or a latch (R544). -/
def State.pairFaulty (s : State) (code : Nat) : Bool :=
  if code ≤ 0x47 then let c := bget s.hs (Fin.ofNat 72 code); c.ol || c.scb || c.lcause != 0
  else let v := bget s.vd (Fin.ofNat 12 (code - 0x58)); v.ol || v.scg || v.lcause != 0

/-- The standby's diagnostics and its test of 64 words of main SRAM, whose result no command reports: a free value (R544, log 7). -/
def State.duoDiag (s : State) : State :=
  if s.duo.role != .syncing && s.duo.role != .ready then s
  else
    let ok := (pairList s.obj).all fun p => !s.pairFaulty p.1
    let (i, s1) := s.draw
    let mem := (Config.freeWord i).getLsbD 0
    let s2 := s1.onDuo fun d => { d with diagok := ok, memok := mem }
    (s2.raiseIf (s.duo.diagok && !ok) 0 4).raiseIf (!mem) 0 5

/-- What the duo logic does at a base-cycle strobe (R536, R539, R546): takes over, steps down or resolves its role, then captures and
sends its STATE frame and waits for the partner's. -/
def State.duoStrobe (s : State) : State :=
  if s.duo.role == .off then s
  else
    let s0 := s.onDuo fun d => { d with part := d.here, here := false, misscyc := if d.here then 0 else d.misscyc + 1 }
    let s1 := match s0.duo.role with
      | .unresolved =>
        let prim := s0.effPrimary
        if (prim && s0.duo.heardP && !s0.duo.pact) || (prim && 3 ≤ s0.duo.misscyc) || (!prim && 5 ≤ s0.duo.misscyc) then
          s0.duoAct
        else s0
      | .syncing | .ready => if 2 ≤ s0.duo.missc then s0.takeOver else s0.duoDiag
      | .active => if s0.duo.step then ((s0.duoRole .syncing).onDuo fun d => { d with step := false, good := 0 }).raise 0 6 else s0
      | .off => s0
    let s2 := s1.onDuo fun d => { d with due := some s1.now }
    if s2.up 5 then
      (s2.onRing fun r => { r with txq := r.txq.filter (·.cls != 2), dirty := false }).ringQueue
        { cls := 2, bc := false, dst := Fin.ofNat 8 (s2.cfg duoIdx 3), words := s2.stateFrame }
    else s2

/-- Bundle 0x1600 has been applied (R535, R536, R543, R549): on a standby, newly paired channels go off and those paired no longer act again. -/
def State.duoFollow (s : State) (old : ObjView) : State :=
  let on := s.cfgB duoIdx 1
  if !on then (if s.duo.role == .off then s else s.duoStop old)
  else if old.num duoIdx 1 = 0 || s.duo.role == .off then s.duoUnresolve
  else
    let s1 := s.setExtra
    let was := (pairList old).map (·.1)
    let is_ := (pairList s.obj).map (·.1)
    let s2 := if s.duo.role.waits then
        (was.filter fun c => !is_.contains c).foldl State.duoGo ((is_.filter fun c => !was.contains c).foldl State.duoOff s1)
      else s1
    if s.duo.frame.isEmpty then s2 else s2.setMatch (s2.duoMatch s.duo.frame)

/-- An S4 reaction at an active device sends a duo alarm on RGO (R548). -/
def State.duoAlarm (s : State) : State := if s.duo.role == .active then (s.onDuo fun d => { d with alarm := some s.now }).raise 0 7 else s

/-- The check of bundle 0x1600 but for the reservations and the ring (R535, R549). -/
def State.duoCheck (s : State) (v : ObjView) : Bool :=
  let ps := pairList v
  let ls := ploopList v
  let sinkOk (m : Nat) : Bool :=
    let w := v.num (0x2500 + m) 0x18
    w / 2 ^ 32 = 1 && ps.any fun p => p.1 = w % 256
  ls.all (fun p => sinkOk p.1) && v.num duoIdx 3 != s.duo.casc.val

end Sys2Proof.Machine
end

