-- ==== Sys2Proof/Machine/Lin.lean ====
section
/-!
DEFINITION. LIN channels (R392 to R396): the schedule, responses, buffers and control words, with the transceiver faults of CAN and LIN.
-/
namespace Sys2Proof.Machine

def linIdx (ch : Fin 8) : Nat := 0x3100 + ch.val
def linBlk (ch : Fin 8) : Nat := 0x50 + ch.val
def State.lin (s : State) (ch : Fin 8) : LinCh := bget s.lins ch
def State.onLin (s : State) (ch : Fin 8) (f : LinCh → LinCh) : State := { s with lins := bmod s.lins ch f }

/-- The address of word o of a channel's area (R374, R394). -/
def linAddr (ch : Fin 8) (o : Nat) : Nat := 0x863000 + ch.val * 0x200 + o

/-- Word i of SCHED and of FRAMES. -/
def State.sched (s : State) (ch : Fin 8) (i : Nat) : Word := (s.obj (linIdx ch) 3).getD i 0
def State.linFrame (s : State) (ch : Fin 8) (fid : Nat) : Word := (s.obj (linIdx ch) 4).getD fid 0

/-- LEN of an identifier. -/
def State.linLen (s : State) (ch : Fin 8) (fid : Nat) : Nat := fld (s.linFrame ch fid) 32 29
def State.linPub (s : State) (ch : Fin 8) (fid : Nat) : Bool := (s.linFrame ch fid).getLsbD 34

/-- The longest time of a response of LEN octets in ticks, rounded up: 1.4 × (34 + 10 × (LEN + 1)) bit times (R395). -/
def linTicks (baud len : Nat) : Nat := (14 * (34 + 10 * (len + 1)) * 10000000 + baud - 1) / Nat.max 1 baud

/-- An entry belongs to a table and is enabled. -/
def schedIn (w : Word) (t : Fin 4) : Bool := w.getLsbD 35 && fld w 32 31 = t.val

/-- The first enabled entry of a table at or after index i. -/
def State.entryFrom (s : State) (ch : Fin 8) (t : Fin 4) (i : Nat) : Option (Fin 64) :=
  (allFin 64).find? fun j => i ≤ j.val && schedIn (s.sched ch j.val) t

/-- A header is sent (R392, R394): the channel then waits for the response. -/
def State.linHeader (s : State) (ch : Fin 8) (fid : Fin 64) (etrig : Bool) : State :=
  s.onLin ch fun c => { c with
    wait := if (s.linFrame ch fid.val).getLsbD 35 then some { fid := fid, etrig := etrig, start := s.now } else none, lastFid := fid }

/-- A written RUNTBL takes effect (R393). -/
def linTable (v : Byte) : Option (Fin 4) := if v.toNat < 4 then some (Fin.ofNat 4 v.toNat) else none

/-- The slot of an entry starts: its header is sent as its type says (R393). -/
def State.linSlot (s : State) (ch : Fin 8) (e : Fin 64) : State :=
  let w := s.sched ch e.val
  let fid := Fin.ofNat 64 (fld w 30 25)
  let type := fld w 34 33
  let asked := (s.lin ch).req.getLsbD fid.val
  let send := type = 0 || type = 1 || (type = 2 && asked) || (type = 3 && (fid != 0x3C || asked))
  let s1 := s.onLin ch fun c => { c with entry := some e, slotEnd := some (s.now + fld w 24 13 * 10000), wait := none }
  if send then s1.linHeader ch fid (type = 1) else s1

/-- The schedule at a slot's end (R393): a written RUNTBL takes effect; the collision table runs once from its first entry, and the running
table resumes after the event-triggered entry. -/
def State.linNext (s : State) (ch : Fin 8) : State :=
  let c := s.lin ch
  let s1 := match c.next with
    | some v => s.onLin ch fun c => { c with next := none, table := linTable v, entry := none, due := none, cres := none, back := 0 }
    | none => s.onLin ch fun c => if c.due.isSome then { c with due := none, cres := c.due, entry := none } else c
  let c := s1.lin ch
  let stop (st : State) : State := st.onLin ch fun c => { c with entry := none, slotEnd := none, due := none, cres := none, wait := none }
  let main (st : State) (i : Nat) : State :=
    match (st.lin ch).table with
    | none => stop st
    | some t => match (st.entryFrom ch t i).orElse fun _ => st.entryFrom ch t 0 with
      | some e => st.linSlot ch e
      | none => stop st
  match c.cres with
  | some t =>
    match s1.entryFrom ch t (match c.entry with | some e => e.val + 1 | none => 0) with
    | some e => s1.linSlot ch e
    | none => main (s1.onLin ch fun c => { c with cres := none }) c.back
  | none => main s1 (match c.entry with | some e => e.val + 1 | none => 0)

/-- LIN_SLOT_START (R392, R393): LINTIME on sequencer 13 runs the slots; none while class 1 is shed (R469) or during an entry (R428). -/
def execLinSlotStart (ch : Fin 8) (s : State) : Host.Outcome State Fault Refusal :=
  .next (if s.accepts && !s.sup.shed.getLsbD 1 && s.libRuns 13 && s.cfg (linIdx ch) 1 = 1 then
    (match (s.lin ch).slotEnd with | some e => s.at e | none => s).linNext ch
  else s)

/-- HDR of an identifier (R394). -/
def State.linHdr (s : State) (ch : Fin 8) (fid : Fin 64) (errc : Nat) : Word :=
  wd (fid.val * 2 ^ 30 + s.linLen ch fid.val * 2 ^ 26 + b1 ((s.linFrame ch fid.val).getLsbD 33) * 2 ^ 25 + errc * 2 ^ 22)

/-- An error of a response (R395): HDR only, its kind, cause 1. -/
def State.linError (s : State) (ch : Fin 8) (fid : Fin 64) (errc : Nat) : State :=
  let s1 := (s.onMem fun m => memWrite m (linAddr ch (4 * fid.val)) (s.linHdr ch fid errc)).onLin ch fun c =>
    { c with wait := none, lastFid := fid, lastErr := BitVec.ofNat 3 errc, errs := satInc c.errs }
  (s1.raise (linBlk ch) (errc - 1)).mediumMiss (linBlk ch) 1

/-- A collision of an event-triggered entry (R393): table CRT runs next. -/
def State.linCollide (s : State) (ch : Fin 8) (fid : Fin 64) : State :=
  let e := (s.lin ch).entry.getD 0
  let s1 := (s.onMem fun m => memWrite m (linAddr ch (4 * fid.val)) (s.linHdr ch fid 5)).onLin ch fun c =>
    { c with wait := none, lastFid := fid, lastErr := 5, colls := satInc c.colls
             due := some (Fin.ofNat 4 (fld (s.sched ch e.val) 12 11)), back := e.val + 1 }
  s1.raise (linBlk ch) 4

/-- A response without error (R381, R382, R394): a subscribed one is stored and flows on; a published one ends its request. -/
def State.linGood (s : State) (ch : Fin 8) (fid : Fin 64) (octets : List Byte) : State :=
  let bit := BitVec.ofNat 64 (2 ^ fid.val)
  let put (st : State) : State := st.onMem fun m =>
    memWriteN m (linAddr ch (4 * fid.val)) [s.linHdr ch fid 0, s.stamp]
  if s.linPub ch fid.val then
    (put s).onLin ch fun c => { c with
      wait := none, lastFid := fid, lastErr := 0, req := c.req &&& ~~~bit, new := c.new ||| bit, txok := satInc c.txok }
  else
    let os := (octets ++ List.replicate 8 0).take (s.linLen ch fid.val)
    let s1 := ((put s).onMem fun m => memWriteN m (linAddr ch (4 * fid.val + 2)) (packFrame os)).onLin ch fun c =>
      { c with wait := none, lastFid := fid, lastErr := 0, rxok := satInc c.rxok }
    match s.flowOf (linBlk ch * 256 + fid.val) with
    | none => s1.onLin ch fun c => { c with new := c.new ||| bit }
    | some n => (s1.flowFrame n (packPlain os)).getD s1

/-- LIN_RESPONSE_COMPLETE (R393, R394, R395). -/
def execLinResponseComplete (ch : Fin 8) (octets : List Byte) (res : LinResult) (s : State) : Host.Outcome State Fault Refusal :=
  .next (match (s.lin ch).wait with
    | none => s
    | some w =>
      if !s.up 5 then s
      else match res with
        | .good => s.linGood ch w.fid octets
        | .bitError => s.linError ch w.fid 4
        | .framing => if w.etrig then s.linCollide ch w.fid else s.linError ch w.fid 2
        | .checksum => if w.etrig then s.linCollide ch w.fid else s.linError ch w.fid 3)

/-- LIN_RESPONSE_TIMEOUT (R395): no response, or an incomplete one; an event-triggered entry that draws none is no error. -/
def execLinResponseTimeout (ch : Fin 8) (some_ : Bool) (s : State) : Host.Outcome State Fault Refusal :=
  .next (match (s.lin ch).wait with
    | none => s
    | some w =>
      if !s.up 5 || s.linPub ch w.fid.val then s
      else
        let s1 := s.at (w.start + linTicks (s.cfg (linIdx ch) 2) (s.linLen ch w.fid.val))
        if w.etrig then (if some_ then s1.linCollide ch w.fid else s1.onLin ch fun c => { c with wait := none })
        else s1.linError ch w.fid (if some_ then 2 else 1))

/-- The identifiers that a write of control bits names (R394). -/
def linMask (m : CtlBits) : BitVec 64 :=
  if m.hi then (m.bits &&& 0xFFFFFFF).setWidth 64 <<< 36 else m.bits.setWidth 64

def State.linNewClear (s : State) (ch : Fin 8) (m : CtlBits) : State := s.onLin ch fun c => { c with new := c.new &&& ~~~(linMask m) }

/-- Publish data pending (R394): for the identifiers that the device publishes. -/
def State.linAsk (s : State) (ch : Fin 8) (m : CtlBits) : State :=
  if !s.accepts then s
  else forMask (linMask m) (fun i st => if st.linPub ch i.val then st.onLin ch fun c => { c with req := c.req ||| BitVec.ofNat 64 (2 ^ i.val) } else st) s

/-- LIN_NEW_CLEAR (R394). -/
def execLinNewClear (r : Requester) (ch : Fin 8) (m : CtlBits) (s : State) : Host.Outcome State Fault Refusal :=
  .next (if reachesMem r && s.up 5 then s.linNewClear ch m else s)

/-- LIN_TX_PENDING (R394). -/
def execLinTxPending (r : Requester) (ch : Fin 8) (m : CtlBits) (s : State) : Host.Outcome State Fault Refusal :=
  .next (if reachesMem r && s.up 5 then s.linAsk ch m else s)

/-- A write of RUNTBL: at the end of the slot in progress, or at once while none is (R393). -/
def State.linRuntbl (s : State) (r : Requester) (ch : Fin 8) (v : Byte) : Code × State :=
  let s1 := match findRow .lin 5 with
    | some row => s.applyVal r row (linIdx ch) [wd v.toNat]
    | none => s
  (okc, s1.onLin ch fun c => if c.slotEnd.isSome then { c with next := some v }
    else { c with next := none, table := linTable v, entry := none, cres := none })

/-- RUNTBL_WRITE (R393). -/
def execRuntblWrite (r : Requester) (ch : Fin 8) (v : Byte) (s : State) : Host.Outcome State Fault Refusal :=
  .next (s.objCmd r (linIdx ch) 5 [wd v.toNat] fun t => t.linRuntbl r ch v)

/-- LIN_BUS_DOMINANT (R396): kind 5. -/
def execLinBusDominant (ch : Fin 8) (s : State) : Host.Outcome State Fault Refusal :=
  .next (if s.up 5 then s.raise (linBlk ch) 5 else s)

/-- TXD_DOMINANT_TIMEOUT (R396): kind 6. -/
def execTxdDominantTimeout (x : Xcvr) (s : State) : Host.Outcome State Fault Refusal :=
  .next (if s.up 5 then
    match x with
    | .can ch => s.raiseCan ch 6
    | .lin ch => s.raise (linBlk ch) 6
  else s)

/-- A word of a flow reaches a publish identifier; with the frame's last word its data are pending (R382, R383, R394). -/
def State.linSink (s : State) (ch : Fin 8) (fid : Fin 64) (w : Word) : State :=
  let have_ := ((s.lin ch).fill.filter (·.1 == fid)).flatMap (·.2) ++ [w]
  let rest := (s.lin ch).fill.filter (·.1 != fid)
  let n := s.linLen ch fid.val
  if have_.length < (n + 3) / 4 then s.onLin ch fun c => { c with fill := rest ++ [(fid, have_)] }
  else
    let os := (plainOcts have_).take n
    (s.onMem fun m => memWriteN m (linAddr ch (4 * fid.val + 2)) (packFrame os)).onLin ch fun c =>
      { c with req := c.req ||| BitVec.ofNat 64 (2 ^ fid.val), fill := rest }

/-- LSTAT (R394). -/
def State.lstat (s : State) (ch : Fin 8) : Word :=
  let c := s.lin ch
  wd (c.lastFid.val * 2 ^ 30 + c.lastErr.toNat * 2 ^ 27 + (c.entry.map (·.val)).getD 0 * 2 ^ 21 +
    ((c.cres.orElse fun _ => c.table).map (·.val)).getD 0 * 2 ^ 19 + b1 c.cres.isSome * 2 ^ 18)

/-- A control word as read, at offset 0x100 + o. -/
def State.linCtlRead (s : State) (ch : Fin 8) (o : Nat) : Word :=
  let c := s.lin ch
  match o with
  | 0 => s.lstat ch
  | 1 => c.new.truncate 36
  | 2 => (c.new >>> 36).truncate 36
  | 3 => c.req.truncate 36
  | 4 => (c.req >>> 36).truncate 36
  | _ => 0

/-- A write of a control word. -/
def State.linCtlWrite (s : State) (ch : Fin 8) (o : Nat) (w : Word) : State :=
  match o with
  | 1 => s.linNewClear ch { hi := false, bits := w }
  | 2 => s.linNewClear ch { hi := true, bits := w }
  | 3 => s.linAsk ch { hi := false, bits := w }
  | 4 => s.linAsk ch { hi := true, bits := w }
  | _ => s

/-- Line 0 of a LIN block (R395). -/
def State.linLine (s : State) (ch : Fin 8) : Bool :=
  (allFin 64).any fun i => (s.lin ch).new.getLsbD i.val && (s.linFrame ch i.val).getLsbD 28

def State.linRelease (s : State) (ch : Fin 8) : State := s.onLin ch fun _ => LinCh.reset (linTable (BitVec.ofNat 8 (s.cfg (linIdx ch) 5)))

/-- After a commit of the bundle: a channel that is off has no slot in progress. -/
def State.linFollow (s : State) (ch : Fin 8) : State :=
  if s.cfg (linIdx ch) 1 = 0 then s.onLin ch fun c => { c with slotEnd := none, wait := none, entry := none, due := none, cres := none } else s

/-- The consistency check of bundle 0x3100 + n (R393 to R395), over the staged set: each slot is long enough for its frame at BAUD. -/
def State.linCheck (s : State) (ch : Fin 8) : Bool :=
  let x := linIdx ch
  let fr := s.stagedVal x 4
  (s.stagedVal x 3).all fun w => !w.getLsbD 35 || linTicks (s.stg x 2) (fld (fr.getD (fld w 30 25) 0) 32 29) ≤ fld w 24 13 * 10000

end Sys2Proof.Machine
end

