-- ==== Sys2Proof/Machine/Lyssouf.lean ====
section
/-!
DEFINITION. The Lyssouf-18 sequencers (R325 to R347): slots, activations, bindings, instructions, loading and window.
-/
namespace Sys2Proof.Machine

def State.seq (s : State) (n : Fin 16) : Seq := bget s.seqs n
def State.onSeq (s : State) (n : Fin 16) (f : Seq → Seq) : State := { s with seqs := bmod s.seqs n f }
def State.raiseSeq (s : State) (n : Fin 16) (k : Nat) : State := s.raise (0x10 + n.val) k

/-- CODEEND (R328): the first word of the data area; that of a library set is not given by the spec. -/
def State.codeEnd (s : State) (n : Fin 16) : Nat :=
  match (s.seq n).src with
  | .user => fld (s.seqWord n 0) 23 12
  | .library => 0x20 + (Config.libWord n.val 0).toNat % 0x7E1
  | .idle => 0x20

/-- A slot's configuration (R328). -/
structure SlotCfg where
  en    : Bool
  event : Bool
  bind  : Fin 8
  emask : BitVec 7
  entry : BitVec 12
  c     : Nat
  t     : Nat                      -- in 100 ns

/-- Slot p of a header's two words. -/
def slotOf (w0 w1 : Word) : SlotCfg :=
  { en := w0.getLsbD 35, event := w0.getLsbD 34, bind := Fin.ofNat 8 (fld w0 33 31), emask := BitVec.ofNat 7 (fld w0 30 24)
    entry := BitVec.ofNat 12 (fld w0 23 12), c := fld w1 35 25 + 1, t := fld w1 24 0 }

/-- A slot of a library set (R340); event mask and entry are not given by the spec. -/
def libSlot (n : Fin 16) (p : Fin 8) : SlotCfg :=
  let w := Config.libWord n.val (0x10 + 2 * p.val)
  let mk (en event : Bool) (c t : Nat) : SlotCfg :=
    { en := en, event := event, bind := p, emask := w.truncate 7, entry := (w >>> 12).truncate 12, c := c, t := t }
  if n.val ≤ 8 then mk true true 64 200
  else if n.val ≤ 10 then (if p.val < 4 then mk true true 48 500 else mk (p = 4) false 400 10000)
  else if n.val ≤ 12 then (if p.val < 6 then mk true true 80 100 else mk (p = 6) false 240 1000)
  else mk (n = 13 && p = 0) false 200 1000

/-- The configuration of slot p of sequencer n. -/
def State.slot (s : State) (n : Fin 16) (p : Fin 8) : SlotCfg :=
  match (s.seq n).src with
  | .library => libSlot n p
  | _ => slotOf (s.seqWord n (0x10 + 2 * p.val)) (s.seqWord n (0x11 + 2 * p.val))

/-- A slot runs: its set is loaded and admitted, and it is not stopped. -/
def State.slotRuns (s : State) (n : Fin 16) (p : Fin 8) : Bool :=
  let q := s.seq n
  s.up 3 && q.src != .idle && q.started && q.admitted && !q.merr && !q.stopped.getLsbD p.val && (s.slot n p).en

/-- CMDEN of a binding, as granted (R328, R343); a library set has it throughout. -/
def State.cmden (s : State) (n : Fin 16) (b : Fin 8) : Bool :=
  let q := s.seq n
  !q.cmdDeny.getLsbD b.val && (q.src == .library || (s.seqWord n (8 + b.val)).getLsbD 34)

/-! Eligibility (R329) -/

/-- A slot becomes eligible with EVT bits; one that is already eligible is merged (kind 5). -/
def State.eligible (s : State) (n : Fin 16) (p : Fin 8) (bits : BitVec 7) : State :=
  if (s.seq n).elig.any (·.1 == p) then
    (s.onSeq n fun q => { q with elig := q.elig.map fun e => if e.1 = p then (p, e.2 ||| bits) else e }).raiseSeq n 5
  else s.onSeq n fun q => { q with elig := q.elig ++ [(p, bits)] }

/-- An event slot may be made eligible: T has passed since its last start. -/
def State.policed (s : State) (n : Fin 16) (p : Fin 8) : Bool :=
  match bget (s.seq n).lastGo p with
  | some t => s.now < t + 10 * (s.slot n p).t
  | none => false

/-- An event slot whose binding's EVT holds a bit of its mask: eligible, or waiting for its interval. -/
def State.slotEvent (s : State) (n : Fin 16) (p : Fin 8) : State :=
  let c := s.slot n p
  let bits := (bget (s.seq n).binds c.bind).evt &&& c.emask
  if s.policed n p then s.onSeq n fun q => { q with waitT := if q.waitT.contains p then q.waitT else q.waitT ++ [p] }
  else s.eligible n p bits

/-- Slots whose wait has ended become eligible. -/
def State.slotsDue (s : State) (n : Fin 16) : State :=
  let due := (s.seq n).waitT.filter fun p => !s.policed n p
  due.foldl (fun st p => st.eligible n p ((bget (st.seq n).binds (st.slot n p).bind).evt &&& (st.slot n p).emask))
    (s.onSeq n fun q => { q with waitT := q.waitT.filter fun p => !due.contains p })

/-- SLOT_PERIODIC_ELIGIBLE (R329): at TIME ≡ 0 (mod 10 × T). -/
def execSlotPeriodicEligible (n : Fin 16) (slot : Fin 8) (s : State) : Host.Outcome State Fault Refusal :=
  let c := s.slot n slot
  .next (if s.slotRuns n slot && !c.event then
    let t := match bget (s.seq n).perAt slot with
      | some x => gridAfter (10 * c.t) 0 (Nat.max x (s.now - 1))
      | none => gridFrom (10 * c.t) 0 s.now
    ((s.at t).onSeq n fun q => { q with perAt := bset q.perAt slot (some t) }).eligible n slot 0
  else s)

/-- EVT bits become set at a binding (R329, R333). -/
def State.setEvt (s : State) (n : Fin 16) (b : Fin 8) (bits : BitVec 7) : State :=
  let new := bits &&& ~~~(bget (s.seq n).binds b).evt
  let s1 := (s.slotsDue n).onSeq n fun q => { q with binds := bmod q.binds b fun k => { k with evt := k.evt ||| bits } }
  (allFin 8).foldl (fun st p =>
    let c := st.slot n p
    if st.slotRuns n p && c.event && c.bind == b && (c.emask &&& new) != 0#7 then st.slotEvent n p else st) s1

/-- BINDING_EVENT (R333). -/
def execBindingEvent (n : Fin 16) (b : Fin 8) (evt : BitVec 7) (s : State) : Host.Outcome State Fault Refusal :=
  .next (if s.up 3 && (s.seq n).started && (s.binding n b).isSome then s.setEvt n b evt else s)

/-! Activations (R330 to R332) -/

/-- ACTIVATION_START (R327, R330, R331): the oldest eligible slot starts, once no held access waits; none starts during an entry (R428). -/
def execActivationStart (n : Fin 16) (s : State) : Host.Outcome State Fault Refusal :=
  let s1 := if s.pwr.mode == .entering then s.onSeq n fun q => { q with elig := [] } else s.slotsDue n
  .next (match (s1.seq n).act, (s1.seq n).held, (s1.seq n).elig with
    | none, [], (p, bits) :: r =>
      if !s1.slotRuns n p then s1.onSeq n fun q => { q with elig := r }
      else
        let c := s1.slot n p
        let s0 : Half := BitVec.ofNat 18 (p.val + bits.toNat * 8)
        s1.onSeq n fun q => { q with
          elig := r, act := some { slot := p, s0 := s0, cycles := 0, branch := none }, pc := c.entry
          regs := bset (Vector.replicate 8 0) 0 s0, z := false, n := false, c := false, v := false
          lastGo := bset q.lastGo p (some s1.now)
          binds := if c.event then bmod q.binds c.bind fun k => { k with evt := k.evt &&& ~~~bits } else q.binds }
    | _, _, _ => s)

/-- The activation that runs is aborted (R332, R339): its kind, LASTPC, and the third in a row stops the slot. -/
def State.seqAbort (s : State) (n : Fin 16) (kind : Nat) : State :=
  match (s.seq n).act with
  | none => s
  | some a =>
    let k := bget (s.seq n).aborts a.slot + 1
    let s1 := (s.onSeq n fun q => { q with act := none, lastpc := q.pc, aborts := bset q.aborts a.slot k }).raiseSeq n kind
    if k = 3 then (s1.onSeq n fun q => { q with stopped := q.stopped ||| BitVec.ofNat 8 (2 ^ a.slot.val) }).programsLost s |>.raiseSeq n 1 else s1

/-- ACTIVATION_ABORT (R332): C cycles have run without END. -/
def execActivationAbort (n : Fin 16) (s : State) : Host.Outcome State Fault Refusal :=
  .next (if s.up 3 then s.seqAbort n 0 else s)

/-! Bindings (R333 to R336) -/

/-- The quiet window of a high-side binding runs. -/
def State.bindQuiet (s : State) (blk : Nat) : Bool :=
  0x30 ≤ blk && blk ≤ 0x38 && s.quiet (Fin.ofNat 9 (blk - 0x30))

/-- The channel of a binding: high-side channel, leg, pair, valve. -/
def hsAt (blk ch : Nat) : Fin 72 := Fin.ofNat 72 (8 * (blk - 0x30) + ch)
def legAt (blk ch : Nat) : Fin 16 := Fin.ofNat 16 (8 * (blk - 0x39) + ch)
def pairAt (blk ch : Nat) : Fin 8 := Fin.ofNat 8 (4 * (blk - 0x39) + (ch - 8))

def legOn (c : Bool × Bool) : Bool := c.1 || c.2

/-- ON and CMDON, LATCH and SHED of a bound channel (R333). -/
def State.bindStat (s : State) (blk ch : Nat) : Bool × Bool × Bool × Bool :=
  if 0x30 ≤ blk && blk ≤ 0x38 then
    let c := hsAt blk ch
    ((bget s.hs c).out, s.hsCalls c, (bget s.hs c).lcause != 0, s.isShed c.val)
  else if (blk = 0x39 || blk = 0x3A) && ch < 8 then
    let n := legAt blk ch
    (legOn (s.conducts n), legOn (s.legCalls n), (bget s.legs n).lcause != 0, s.isShed (legCode n))
  else if blk = 0x39 || blk = 0x3A then
    let k := pairAt blk ch
    (legOn (s.conducts (legA k)) || legOn (s.conducts (legB k)), (bget s.pairs k).stage == .drive, s.pairLatched k, s.isShed (pairCode k))
  else if blk = 0x3B then
    let v := bget s.vd (Fin.ofNat 12 ch)
    (v.stage.conducts && !v.supp, v.stage.conducts, v.lcause != 0, s.isShed (0x58 + ch))
  else if blk = 0x3D then ((bget s.inputs (Fin.ofNat 80 ch)).rep == .active, false, false, false)
  else if blk = 0x3E then ((bget s.inputs (Fin.ofNat 80 (64 + ch))).rep == .active, false, false, false)
  else (false, false, false, false)

/-- STAT (R333). -/
def State.bindStatWord (s : State) (blk ch : Nat) : Half :=
  let (on, cmdon, latch, shed) := s.bindStat blk ch
  let win := 0x30 ≤ blk && blk ≤ 0x38 && (bget s.hs (hsAt blk ch)).win.isSome
  BitVec.ofNat 18 (b1 on + b1 cmdon * 2 + b1 latch * 4 + b1 (s.bindQuiet blk) * 8 + b1 win * 16 + b1 shed * 32)

/-- SENSE. -/
def State.bindSense (s : State) (blk ch : Nat) : Half :=
  if 0x30 ≤ blk && blk ≤ 0x38 then (s.hsSense (hsAt blk ch)).zeroExtend 18
  else if (blk = 0x39 || blk = 0x3A) && ch < 8 then (s.legSense (legAt blk ch)).zeroExtend 18
  else if blk = 0x39 || blk = 0x3A then (s.pairSense (pairAt blk ch)).zeroExtend 18
  else if blk = 0x3B then (s.valveSense (Fin.ofNat 12 ch)).zeroExtend 18
  else 0

/-- An OFF turns the output off and suppresses it (R335). -/
def State.seqOff (s : State) (blk ch : Nat) : State :=
  if 0x30 ≤ blk && blk ≤ 0x38 then s.onHs (hsAt blk ch) fun c => { hsDark s.now c with supp := true }
  else if (blk = 0x39 || blk = 0x3A) && ch < 8 then s.onLeg (legAt blk ch) fun l => { l with supp := true }
  else if blk = 0x39 || blk = 0x3A then
    let k := pairAt blk ch
    (s.onLeg (legA k) fun l => { l with supp := true }).onLeg (legB k) fun l => { l with supp := true }
  else if blk = 0x3B then s.onVd (Fin.ofNat 12 ch) fun v => { v with supp := true }
  else s

/-- An ON lifts a suppression, only while CMDON = 1, LATCH = 0 and QW = 0; else kind 6 (R335). -/
def State.seqOn (s : State) (n : Fin 16) (blk ch : Nat) : State :=
  let (_, cmdon, latch, _) := s.bindStat blk ch
  if !(0x30 ≤ blk && blk ≤ 0x3B) then s
  else if !cmdon || latch || s.bindQuiet blk then s.raiseSeq n 6
  else if blk ≤ 0x38 then (s.onHs (hsAt blk ch) fun c => { c with supp := false }).hsResume (hsAt blk ch)
  else if blk = 0x3B then s.onVd (Fin.ofNat 12 ch) fun v => { v with supp := false }
  else if ch < 8 then s.onLeg (legAt blk ch) fun l => { l with supp := false }
  else
    let k := pairAt blk ch
    (s.onLeg (legA k) fun l => { l with supp := false }).onLeg (legB k) fun l => { l with supp := false }

/-- Suppression ends when ENG enters reset (R335). -/
def State.unsuppress (s : State) : State :=
  let s1 := (allFin 72).foldl (fun st c =>
    if (bget st.hs c).supp then (st.onHs c fun h => { h with supp := false }).hsResume c else st) s
  { s1 with legs := ball s1.legs fun _ l => { l with supp := false }, vd := ball s1.vd fun _ v => { v with supp := false } }

/-- SEQ_TMR_EXPIRE (R336): TMO is set; with AON an ON is carried out at the same instant. -/
def execSeqTmrExpire (n : Fin 16) (b : Fin 8) (s : State) : Host.Outcome State Fault Refusal :=
  let k := bget (s.seq n).binds b
  .next (match k.tmr, s.binding n b with
    | some t, some (blk, ch) =>
      if !s.up 3 then s
      else
        let s1 := (s.at t).onSeq n fun q => { q with binds := bmod q.binds b fun k => { k with tmr := none } }
        let s2 := if k.aon then s1.seqOn n blk ch else s1
        s2.setEvt n b 0x20
    | _, _ => s)

/-- IN of register r of a binding (R333): a read of a write-only register is a free value (log 7). -/
def State.bindRead (s : State) (n : Fin 16) (b : Fin 8) (blk ch r : Nat) : Half × State :=
  let k := bget (s.seq n).binds b
  match r with
  | 0 => (s.bindStatWord blk ch, s)
  | 1 => (s.bindSense blk ch, s)
  | 3 =>
    let left := match k.left, k.tmr with
      | some d, _ => d
      | none, some t => t - s.now
      | none, none => 0
    (BitVec.ofNat 18 ((left + 99) / 100), s)
  | 4 => (k.cmph.zeroExtend 18, s)
  | 5 => (k.cmpl.zeroExtend 18, s)
  | 6 => (k.evt.zeroExtend 18, s.onSeq n fun q => { q with binds := bmod q.binds b fun k => { k with evt := 0 } })
  | _ => let (i, s1) := s.draw; ((Config.freeWord i).truncate 18, s1)

/-- A POS or header write through AUX (R334). -/
def State.bindAux (s : State) (blk ch : Nat) (v : Half) : State :=
  if (blk = 0x39 || blk = 0x3A) && 8 ≤ ch then s.setPos (pairAt blk ch) (s.pos (pairAt blk ch) + v.toInt)
  else if 0x50 ≤ blk && blk ≤ 0x57 then s.linHeader (Fin.ofNat 8 (blk - 0x50)) (Fin.ofNat 64 v.toNat) false
  else s

/-- OUT to register r of a binding (R333 to R336); CMD, AUX and TMR with AON need CMDEN. -/
def State.bindWrite (s : State) (n : Fin 16) (b : Fin 8) (blk ch r : Nat) (v : Half) : State :=
  let onB (f : SeqBind → SeqBind) : State := s.onSeq n fun q => { q with binds := bmod q.binds b f }
  let out := 0x30 ≤ blk && blk ≤ 0x3B
  match r with
  | 2 =>
    if !s.cmden n b || !out then s
    else if v.toNat % 16 = 1 then s.seqOff blk ch
    else if v.toNat % 16 = 2 then s.seqOn n blk ch
    else s
  | 3 =>
    let us := v.toNat % 2 ^ 17
    let aon := v.getLsbD 17
    if aon && !s.cmden n b then s
    else if us = 0 then onB fun k => { k with tmr := none, left := none, aon := false }
    else if s.bindQuiet blk then onB fun k => { k with tmr := none, left := some (usT us), aon := aon }
    else onB fun k => { k with tmr := some (s.now + usT us), left := none, aon := aon }
  | 4 => if out then onB fun k => { k with cmph := v.truncate 12 } else s
  | 5 => if out then onB fun k => { k with cmpl := v.truncate 12 } else s
  | 7 => if s.cmden n b then s.bindAux blk ch v else s
  | _ => s

/-! Instructions (R337 to R339) -/

/-- An instruction of `cycles` cycles on the activation that runs: aborted when it would pass C, illegal in a delay slot when `branch`;
`body` answers none for an illegal instruction, and the target that follows the delay slot. -/
def State.lysRun (s : State) (n : Fin 16) (cycles : Nat) (branch : Bool) (body : State → Option (State × Option (BitVec 12))) : State :=
  let q := s.seq n
  match q.act with
  | none => s
  | some a =>
    if !s.up 3 || q.merr then s
    else if (s.slot n a.slot).c < a.cycles + cycles then s.seqAbort n 0
    else if branch && a.branch.isSome then s.seqAbort n 2
    else match body s with
      | none => s.seqAbort n 2
      | some (s1, tgt) => s1.onSeq n fun q => { q with
          pc := a.branch.getD (q.pc + 1), act := q.act.map fun x => { x with cycles := x.cycles + cycles, branch := tgt } }

/-- A register of a sequencer. -/
def State.lysReg (s : State) (n : Fin 16) (d : SReg) : Half := bget (s.seq n).regs d
def State.setLys (s : State) (n : Fin 16) (d : SReg) (v : Half) : State := s.onSeq n fun q => { q with regs := bset q.regs d v }

/-- Flags Z and N of a result. -/
def State.lysZN (s : State) (n : Fin 16) (v : Half) : State := s.onSeq n fun q => { q with z := v == 0, n := v.msb }

/-- Flags of a sum and of a difference (R338). -/
def State.lysAddF (s : State) (n : Fin 16) (a b : Half) : State :=
  let r := a + b
  (s.lysZN n r).onSeq n fun q => { q with c := decide (2 ^ 18 ≤ a.toNat + b.toNat), v := a.msb == b.msb && r.msb != a.msb }

def State.lysSubF (s : State) (n : Fin 16) (a b : Half) : State :=
  let r := a - b
  (s.lysZN n r).onSeq n fun q => { q with c := decide (a.toNat < b.toNat), v := a.msb != b.msb && r.msb != a.msb }

/-- An instruction that writes a result without flags, and one that sets Z and N. -/
def State.lysPut (s : State) (n : Fin 16) (d : SReg) (f : State → Half) : State :=
  s.lysRun n 1 false fun t => some (t.setLys n d (f t), none)

def State.lysLogic (s : State) (n : Fin 16) (d : SReg) (f : State → Half) : State :=
  s.lysRun n 1 false fun t => some ((t.setLys n d (f t)).lysZN n (f t), none)

def execLysMov (n : Fin 16) (d a : SReg) (s : State) : Host.Outcome State Fault Refusal :=
  .next (s.lysPut n d fun t => t.lysReg n a)

def execLysAdd (n : Fin 16) (d a b : SReg) (s : State) : Host.Outcome State Fault Refusal :=
  .next (s.lysRun n 1 false fun t =>
    some ((t.setLys n d (t.lysReg n a + t.lysReg n b)).lysAddF n (t.lysReg n a) (t.lysReg n b), none))

def execLysSub (n : Fin 16) (d a b : SReg) (s : State) : Host.Outcome State Fault Refusal :=
  .next (s.lysRun n 1 false fun t =>
    some ((t.setLys n d (t.lysReg n a - t.lysReg n b)).lysSubF n (t.lysReg n a) (t.lysReg n b), none))

def execLysAnd (n : Fin 16) (d a b : SReg) (s : State) : Host.Outcome State Fault Refusal :=
  .next (s.lysLogic n d fun t => t.lysReg n a &&& t.lysReg n b)

def execLysOr (n : Fin 16) (d a b : SReg) (s : State) : Host.Outcome State Fault Refusal :=
  .next (s.lysLogic n d fun t => t.lysReg n a ||| t.lysReg n b)

def execLysXor (n : Fin 16) (d a b : SReg) (s : State) : Host.Outcome State Fault Refusal :=
  .next (s.lysLogic n d fun t => t.lysReg n a ^^^ t.lysReg n b)

/-- Shifts by Sb [4:0]; 18 or more gives 0, or 18 copies of bit 17. -/
def lysAmount (b : Half) : Nat := b.toNat % 32

def execLysShl (n : Fin 16) (d a b : SReg) (s : State) : Host.Outcome State Fault Refusal :=
  .next (s.lysLogic n d fun t => t.lysReg n a <<< lysAmount (t.lysReg n b))

def execLysShr (n : Fin 16) (d a b : SReg) (s : State) : Host.Outcome State Fault Refusal :=
  .next (s.lysLogic n d fun t => t.lysReg n a >>> lysAmount (t.lysReg n b))

def execLysSar (n : Fin 16) (d a b : SReg) (s : State) : Host.Outcome State Fault Refusal :=
  .next (s.lysLogic n d fun t => (t.lysReg n a).sshiftRight (lysAmount (t.lysReg n b)))

def execLysCmp (n : Fin 16) (a b : SReg) (s : State) : Host.Outcome State Fault Refusal :=
  .next (s.lysRun n 1 false fun t => some (t.lysSubF n (t.lysReg n a) (t.lysReg n b), none))

def execLysMin (n : Fin 16) (d a b : SReg) (s : State) : Host.Outcome State Fault Refusal :=
  .next (s.lysLogic n d fun t => if (t.lysReg n b).slt (t.lysReg n a) then t.lysReg n b else t.lysReg n a)

def execLysMax (n : Fin 16) (d a b : SReg) (s : State) : Host.Outcome State Fault Refusal :=
  .next (s.lysLogic n d fun t => if (t.lysReg n a).slt (t.lysReg n b) then t.lysReg n b else t.lysReg n a)

def execLysMovi (n : Fin 16) (d : SReg) (imm : BitVec 10) (s : State) : Host.Outcome State Fault Refusal :=
  .next (s.lysPut n d fun _ => imm.signExtend 18)

def execLysAddi (n : Fin 16) (d : SReg) (imm : BitVec 10) (s : State) : Host.Outcome State Fault Refusal :=
  .next (s.lysRun n 1 false fun t =>
    some ((t.setLys n d (t.lysReg n d + imm.signExtend 18)).lysAddF n (t.lysReg n d) (imm.signExtend 18), none))

def execLysCmpi (n : Fin 16) (d : SReg) (imm : BitVec 10) (s : State) : Host.Outcome State Fault Refusal :=
  .next (s.lysRun n 1 false fun t => some (t.lysSubF n (t.lysReg n d) (imm.signExtend 18), none))

def execLysAndi (n : Fin 16) (d : SReg) (imm : BitVec 10) (s : State) : Host.Outcome State Fault Refusal :=
  .next (s.lysLogic n d fun t => t.lysReg n d &&& imm.zeroExtend 18)

def execLysOri (n : Fin 16) (d : SReg) (imm : BitVec 10) (s : State) : Host.Outcome State Fault Refusal :=
  .next (s.lysLogic n d fun t => t.lysReg n d ||| imm.zeroExtend 18)

def execLysLui (n : Fin 16) (d : SReg) (imm : Byte) (s : State) : Host.Outcome State Fault Refusal :=
  .next (s.lysPut n d fun _ => imm.zeroExtend 18 <<< 10)

/-- Half h of a sequencer's memory (chapter 10, Memory and the image); the protected region of a library set is ROM. -/
def State.seqHalf (s : State) (n : Fin 16) (h : Nat) : Half :=
  let w := if (s.seq n).src = .library && h / 2 < s.codeEnd n then Config.libWord n.val (h / 2) else s.seqWord n (h / 2)
  if h % 2 = 0 then (w >>> 18).truncate 18 else w.truncate 18

/-- The half that LDH and STH address. -/
def lysHalf (a : Half) (off : BitVec 7) : Nat := (a.toNat + off.toNat) % 4096

def execLysLdh (n : Fin 16) (d a : SReg) (off : BitVec 7) (s : State) : Host.Outcome State Fault Refusal :=
  .next (s.lysPut n d fun t => t.seqHalf n (lysHalf (t.lysReg n a) off))

def execLysSth (n : Fin 16) (d a : SReg) (off : BitVec 7) (s : State) : Host.Outcome State Fault Refusal :=
  .next (s.lysRun n 1 false fun t =>
    let h := lysHalf (t.lysReg n a) off
    if h / 2 < t.codeEnd n then none
    else
      let w := t.seqWord n (h / 2)
      let v := t.lysReg n d
      let w1 : Word := if h % 2 = 0 then v ++ w.truncate 18 else ((w >>> 18).truncate 18 : Half) ++ v
      some (t.onMem fun m => memWrite m (0x890000 + n.val * 0x800 + h / 2) w1, none))

/-- LYS_IN (R333, R338): three cycles; illegal at an unbound port. -/
def execLysIn (n : Fin 16) (d : SReg) (port : Fin 64) (s : State) : Host.Outcome State Fault Refusal :=
  .next (s.lysRun n 3 false fun t =>
    let b : Fin 8 := ⟨port.val / 8, by omega⟩
    (t.binding n b).map fun p =>
      let (v, t1) := t.bindRead n b p.1 p.2 (port.val % 8)
      ((t1.setLys n d v).lysZN n v, none))

/-- LYS_OUT (R335, R338): illegal at an unbound port. -/
def execLysOut (n : Fin 16) (d : SReg) (port : Fin 64) (s : State) : Host.Outcome State Fault Refusal :=
  .next (s.lysRun n 1 false fun t =>
    let b : Fin 8 := ⟨port.val / 8, by omega⟩
    (t.binding n b).map fun p => (t.bindWrite n b p.1 p.2 (port.val % 8) (t.lysReg n d), none))

/-- LYS_GET (R338, R339): codes above 3 are illegal. -/
def execLysGet (n : Fin 16) (d : SReg) (g : Fin 16) (s : State) : Host.Outcome State Fault Refusal :=
  .next (s.lysRun n 1 false fun t =>
    let a := (t.seq n).act
    let v : Option Half := match g.val with
      | 0 => a.map (·.s0)
      | 1 => some (BitVec.ofNat 18 (t.now / 100))
      | 2 => a.map fun x => BitVec.ofNat 18 x.cycles
      | 3 => some (BitVec.ofNat 18 n.val)
      | _ => none
    v.map fun x => (t.setLys n d x, none))

/-- A branch (R339): the target follows its delay slot; not taken, the half after it. -/
def State.lysBranch (s : State) (n : Fin 16) (f : State → State × Option (BitVec 12)) : State :=
  s.lysRun n 1 true fun t =>
    let (t1, tgt) := f t
    some (t1, some (tgt.getD ((t.seq n).pc + 2)))

/-- The conditions of B. -/
def lysCond (q : Seq) (c : Fin 8) : Bool :=
  match c.val with
  | 0 => true | 1 => q.z | 2 => !q.z | 3 => q.n != q.v | 4 => q.n == q.v | 5 => q.c | 6 => !q.c | _ => q.n

def execLysB (n : Fin 16) (cond : Fin 8) (rel : BitVec 10) (s : State) : Host.Outcome State Fault Refusal :=
  .next (s.lysBranch n fun t => (t, if lysCond (t.seq n) cond then some ((t.seq n).pc + rel.signExtend 12) else none))

def execLysJ (n : Fin 16) (tgt : BitVec 12) (s : State) : Host.Outcome State Fault Refusal :=
  .next (s.lysBranch n fun t => (t, some tgt))

def execLysCall (n : Fin 16) (tgt : BitVec 12) (s : State) : Host.Outcome State Fault Refusal :=
  .next (s.lysBranch n fun t => (t.setLys n 7 (((t.seq n).pc + 2).zeroExtend 18), some tgt))

def execLysJr (n : Fin 16) (a : SReg) (s : State) : Host.Outcome State Fault Refusal :=
  .next (s.lysBranch n fun t => (t, some ((t.lysReg n a).truncate 12)))

def execLysDbnz (n : Fin 16) (d : SReg) (rel : BitVec 10) (s : State) : Host.Outcome State Fault Refusal :=
  .next (s.lysBranch n fun t =>
    let v := t.lysReg n d - 1
    (t.setLys n d v, if v != 0 then some ((t.seq n).pc + rel.signExtend 12) else none))

/-- LYS_END (R338): the activation is complete. -/
def execLysEnd (n : Fin 16) (s : State) : Host.Outcome State Fault Refusal :=
  .next (s.lysRun n 1 true fun t =>
    let p := (t.seq n).act.map (·.slot)
    some (t.onSeq n fun q => { q with
      act := none, acts := satInc q.acts, aborts := match p with | some i => bset q.aborts i 0 | none => q.aborts }, none))

def execLysSig (n : Fin 16) (imm : Byte) (s : State) : Host.Outcome State Fault Refusal :=
  .next (s.lysRun n 1 false fun t => some (t.onSeq n fun q => { q with signal := q.signal ||| imm }, none))

/-- A half that stands for no instruction (R337 to R339): OP or FN undefined, a field that must be zero is not, a GET code not listed. -/
def illegalHalf (w : Half) : Bool :=
  let f (hi lo : Nat) : Nat := w.toNat / 2 ^ lo % 2 ^ (hi - lo + 1)
  match f 17 13 with
  | 0x00 => 0xB < f 3 0 || (f 3 0 = 9 && f 12 10 != 0)
  | 0x01 => false
  | 0x02 => false
  | 0x03 => false
  | 0x04 => false
  | 0x05 => false
  | 0x06 => f 9 8 != 0
  | 0x08 => false
  | 0x09 => false
  | 0x0C => f 3 0 != 0
  | 0x0D => f 3 0 != 0
  | 0x0F => 3 < f 9 0
  | 0x10 => false
  | 0x11 => f 12 12 != 0
  | 0x12 => f 12 12 != 0
  | 0x13 => f 12 10 != 0 || f 6 0 != 0
  | 0x14 => false
  | 0x18 => f 12 8 != 0
  | 0x19 => f 12 8 != 0
  | _ => true

/-- LYS_ILLEGAL (R339): the half that is reached is w; the activation is aborted and kind 2 is raised. -/
def execLysIllegal (n : Fin 16) (w : Half) (s : State) : Host.Outcome State Fault Refusal :=
  .next (if illegalHalf w then s.lysRun n 1 false fun _ => none else s)

/-! Loading (R341 to R344) -/

/-- A binding names a bindable block and one of its channels (R334). -/
def bindOk (blk ch : Nat) : Bool :=
  (0x30 ≤ blk && blk ≤ 0x38 && ch < 8) || ((blk = 0x39 || blk = 0x3A) && ch < 12) || (blk = 0x3B && ch < 12) ||
    blk = 0x3D || (blk = 0x3E && ch < 16) || (0x50 ≤ blk && blk ≤ 0x57 && ch = 0)

/-- The check of a loaded user image (R342), whose words stand in memory; what an OUT writes to CMD is checked as it runs (log 52). -/
def State.imageOk (s : State) (n : Fin 16) : Bool :=
  let ce := fld (s.seqWord n 0) 23 12
  let sum := (List.range ce).foldl (fun a i => if i = 1 then a else a + s.seqWord n i) 0
  0x20 ≤ ce && ce ≤ 0x800 && s.seqWord n 1 == sum &&
    (allFin 8).all (fun b => let w := s.seqWord n (8 + b.val); !w.getLsbD 35 || bindOk (fld w 33 27) (fld w 26 21)) &&
    (allFin 8).all (fun p => let c := slotOf (s.seqWord n (0x10 + 2 * p.val)) (s.seqWord n (0x11 + 2 * p.val))
      !c.en || (0x40 ≤ c.entry.toNat && c.entry.toNat < 2 * ce && 1 ≤ c.t && c.c ≤ 20 * c.t))

/-- Σ C ÷ T of a set's enabled slots, as a share of the sequencer (R96, R343). -/
def State.seqUse (s : State) (n : Fin 16) : Rat :=
  ((allFin 8).map fun p => let c := s.slot n p; if c.en then mkRat c.c (20 * c.t) else 0).foldl (· + ·) 0

/-- The bindings whose CMDEN another sequencer's binding of the same channel already has (R343). -/
def State.grantsLost (s : State) (n : Fin 16) : BitVec 8 :=
  (allFin 8).foldl (fun a b =>
    let w := s.seqWord n (8 + b.val)
    let taken := (s.binding n b).isSome && ((s.seq n).src == .library || w.getLsbD 34) &&
      (allFin 16).any fun m => m != n && (s.seq m).started && (allFin 8).any fun c => s.binding m c == s.binding n b && s.cmden m c
    if taken then a ||| BitVec.ofNat 8 (2 ^ b.val) else a) 0

/-- The words of a sequencer's memory replaced by an image and zeros (R341). -/
def seqMemory (m : Memory) (n : Fin 16) (image : List Word) : Memory :=
  let a := 0x890000 + n.val * 0x800
  memWriteN (m.filter fun e => e.1 < a || a + 0x800 ≤ e.1) a (image.take 0x800)

/-- The admission of a loaded set (R96, R107, R343): one that does not fit, or a CMDEN already granted, raises one re-admission event with reason
0x07 and kind 3 of block 0x06. -/
def State.seqAdmit (s : State) (n : Fin 16) : State :=
  let u := s.seqUse n
  let fits := decide (u ≤ 17 / 20)
  let lost := if fits then s.grantsLost n else 0
  let s1 := s.onSeq n fun q => { q with admitted := fits, cmdDeny := lost, util := if fits then (u * 1000).floor.toNat else 0 }
  if fits && lost = 0 then s1 else (s1.admEvent 5 3 n.val 0 0x07 (0x10 + n.val)).raise 0x06 3

/-- The loader loads a sequencer (R341 to R343): a failed check leaves it idle with kind 7; its set is then admitted. -/
def State.seqLoad (s : State) (n : Fin 16) (src : SeqSrc) (image : List Word) : State :=
  let s1 := (s.onMem fun m => seqMemory m n image).onSeq n fun _ => { Seq.reset with src := src }
  match src with
  | .idle => s1
  | _ =>
    if src = .user && !s1.imageOk n then (s1.onSeq n fun q => { q with src := .idle }).raiseSeq n 7
    else
      (s1.onSeq n fun q => { q with started := true }).seqAdmit n

/-- A memory error of a sequencer (R344). -/
def State.seqEcc (s : State) (n : Fin 16) : Ecc → State
  | .good => s
  | .corrected => s.raiseSeq n 3
  | .uncorrectable => ((s.onSeq n fun q => { q with merr := true, act := none, elig := [], waitT := [] }).programsLost s).raiseSeq n 4

/-! Window (R345) -/

/-- SSTAT. -/
def State.sstat (s : State) (n : Fin 16) : Word :=
  let q := s.seq n
  let src := match q.src with | .idle => 0 | .library => 1 | .user => 2
  wd (maskOf (fun p => s.slotRuns n p) * 2 ^ 12 + q.stopped.toNat * 2 ^ 4 + src * 4 + b1 q.act.isSome * 2 + b1 q.merr)

/-- A window word of sequencer n. -/
def State.seqWindow (s : State) (n : Fin 16) (off : Nat) : Word :=
  let q := s.seq n
  match off with
  | 0 => s.sstat n
  | 1 => q.acts
  | 2 => wd q.lastpc.toNat
  | 3 => wd q.util
  | 4 => wd q.signal.toNat
  | _ => 0

/-- SIGNAL is cleared by its read. -/
def State.signalTaken (s : State) (n : Fin 16) : State := s.onSeq n fun q => { q with signal := 0 }

end Sys2Proof.Machine
end

