-- ==== Sys2Proof/Machine/Domains.lean ====
section
/-!
DEFINITION. What a domain's stop does, at a reset or a power-off (R62, R142, R236, R241, R249, R335, R364, R418, R456, R520).
-/
namespace Sys2Proof.Machine

def State.onAcs (s : State) (f : AccessState → AccessState) : State := { s with acs := f s.acs }
def State.onRst (s : State) (f : ResetState → ResetState) : State := { s with rst := f s.rst }
def State.onCore (s : State) (p : Fin 2) (f : Core → Core) : State := { s with cores := bmod s.cores p f }

/-- A load that has gone off has no charge and no deferral (R99). -/
def State.freeLoad (s : State) (code : Nat) : State := (s.uncharge code).undefer code

/-- The sinks, the chain and the matrix when IOP stops (R236, R241, R249): off, with no latch left. -/
def State.lightStop (s : State) : State :=
  let s1 := (allFin 24).foldl (fun st n => st.freeLoad (sinkCode n)) s
  ((s1.freeLoad 0x98).freeLoad 0x99).sinksStop.chainStop

/-- The configurable pins when IOP stops (R364). -/
def State.ioStop (s : State) : State :=
  (allFin 16).foldl (fun st n => (st.ioOff n).onIo n fun p => { p with cmd := false, lcause := 0 }) s

/-- Every power output is turned off, its command state OFF: entry into PARK, and FORCEOFF (R145, R428). -/
def State.powerOff (s : State) : State :=
  let s1 := (allFin 72).foldl (fun st c => (st.hsOff c).onHs c fun h => { h with cmd := .off, policy := .none, rsp := false }) s
  let s2 := (allFin 8).foldl (fun st k => (st.pairOff k).onPair k fun p =>
    { p with cmd := .free, word := wd 0x200000000, done := true, policy := .none, rsp := false }) s1
  let s3 := (allFin 16).foldl (fun st n => (st.legOff n).onLeg n fun l => { l with cmd := .off, rsp := false }) s2
  (allFin 12).foldl (fun st n => (st.valveOff n).onVd n fun v => { v with cmd := false, policy := .none, rsp := false }) s3

/-- IOP stops: at a reset the reset policies act (R142, R182, R218); light and pins go dark, and SENSEOUT has no
source (R64, R140); a poll is abandoned (R456). -/
def State.stopIop (s : State) (policy : Bool) : State :=
  let s1 := if policy then
      let a := (allFin 72).foldl (fun st c => st.hsPolicy c) s
      let b := (allFin 8).foldl (fun st k => st.pairPolicy k) a
      let c := (allFin 12).foldl (fun st n => st.valvePolicy n) b
      (List.range 11).foldl (fun st g => st.raise (0x30 + g) 29) c
    else s.powerOff
  ({ s1.lightStop.ioStop with sout := none } : State).onAcs fun a => { a with poll := none }

/-- ENG stops: suppression ends (R335), sequencers and loops halt, and a pair that moves by RIPPLE brakes (R167). -/
def State.stopEng (s : State) : State :=
  let s1 := s.unsuppress
  let halt (q : Seq) : Seq := { q with act := none, elig := [], waitT := [], started := false, held := [] }
  let s2 := { s1 with seqs := ball s1.seqs fun _ q => halt q }
  let s3 := s2.onEng fun e => { e with loops := ball e.loops fun _ l => { l with rel := none, out := none }, remap := none }
  s3.programsLost s

/-- FAB stops: every transaction on the fabric is withdrawn and its tag freed (R520); staged and pending values, ownership, sessions and
what the object server had accepted are gone (R62); a dump in progress is cut off (R505); of the log's records only the one being
appended is kept (R514). -/
def State.stopFab (s : State) : State :=
  let s1 := s.onFab fun f => { f with
    tags := ball f.tags fun _ t => { t with tx := none, resp := none }
    subq := [], back := [], waiting := [], srcq := [], resps := Vector.replicate 10 none }
  let s2 := s1.onSrv fun v => { v with
    staged := [], cyc := [], per := [], bundles := [], commits := [], insts := Vector.replicate 12 CommitInst.reset, queue := []
    ldo := Vector.replicate 2 none, half := Vector.replicate 2 none, fw := [], fwd := [], heldAcc := [], subs := Vector.replicate 64 none
    blocks := [], sess := Vector.replicate 8 none, storing := false }
  let s3 := s2.onAdm fun a => { a with pendResv := none, rbaseW := false }
  let s4 := { s3 with
    adc := { s3.adc with pend := [] }
    eng := { s3.eng with resv := [] }
    upd := { s3.upd with busy := .none }
    log := { s3.log with queue := s3.log.queue.take 1 } }
  s4.onFlt fun f => { f with dstat := if f.dstat = 1 || f.dstat = 2 then 4 else f.dstat }

/-- NET stops: the bypass closes (R418); what was on a bus is cut off. -/
def State.stopNet (s : State) : State :=
  { s.ringLeave with
    cans := ball s.cans fun _ c => { c with bus := none, ready := false }
    lins := ball s.lins fun _ c => { c with wait := none, slotEnd := none, entry := none } }

/-- A pair stops (R321): its access is dropped, its latched words and its held half are gone (R69), and its staging ends (R60). -/
def State.stopPair (s : State) (p : Fin 2) : State :=
  let l := (s.srv.bundles.filter fun b => b.phase == .staging && b.owner == .pair p).map (·.index)
  let s1 := s.onSrv fun v => { (l.foldl Server.dropBundle v) with
    queue := v.queue.filter (·.by_ != .pair p), heldAcc := v.heldAcc.filter (·.by_ != .pair p), ldo := bset v.ldo p none, half := bset v.half p none }
  let s2 := if l.contains 0x2700 then s1.onAdm fun a => { a with pendResv := none, rbaseW := false } else s1
  s2.onCore p fun c => { c with run := .reset, stf := [] }

/-- CORE stops: both pairs, and the watchdog (R525). -/
def State.stopCore (s : State) : State :=
  { ((s.stopPair 0).stopPair 1) with rst := { s.rst with wdRun := none }, upd := { s.upd with coreAt := none } }

/-- A domain stops: it is held in reset, or its power goes. -/
def State.stopDomain (s : State) (d : Fin 7) (policy : Bool) : State :=
  match d with
  | 2 => s.stopFab
  | 3 => s.stopEng
  | 4 => s.stopIop policy
  | 5 => s.stopNet
  | 6 => s.stopCore
  | _ => s

end Sys2Proof.Machine
end

