-- ==== Sys2Proof/Machine/Power.lean ====
section
/-!
DEFINITION. Power states: IDLE, entry into PARK, wake events and polling (R359, R389, R424 to R436).
-/
namespace Sys2Proof.Machine

/-- Debug is attached (R431): the port is unlocked. -/
def State.dbgAttached (s : State) : Bool := s.dbg.level = 1 || s.dbg.level = 2

/-! REQ and IDLE -/

/-- A write of REQ (obj 0x1200.01). -/
def State.setReq (s : State) (v : Byte) : Code × State := (okc, s.onPwr fun p => { p with req := v })

/-- PARK_REQ_NONE (R428). -/
def execParkReqNone (r : Requester) (s : State) : Host.Outcome State Fault Refusal :=
  .next (s.objCmd r pwrIdx 1 [0] fun t => t.setReq 0)

/-- PARK_REQUEST (R428). -/
def execParkRequest (r : Requester) (s : State) : Host.Outcome State Fault Refusal :=
  .next (s.objCmd r pwrIdx 1 [1] fun t => t.setReq 1)

/-- DEEP_PARK_REQUEST (R428). -/
def execDeepParkRequest (r : Requester) (s : State) : Host.Outcome State Fault Refusal :=
  .next (s.objCmd r pwrIdx 1 [2] fun t => t.setReq 2)

/-- IDLE_ENTER (R425): IDLEEN = 1 and both pairs in WAIT. -/
def execIdleEnter (s : State) : Host.Outcome State Fault Refusal :=
  .next (if s.pwr.mode == .run && !s.sup.crank && s.up 6 && s.cfgB pwrIdx 3 && (allFin 2).all (fun p => (bget s.cores p).run == .waiting) then
    s.onPwr fun p => { p with mode := .idle }
  else s)

/-- IDLE_EXIT (R425): a source becomes takeable at a pair, or debug requests it. -/
def execIdleExit (s : State) : Host.Outcome State Fault Refusal :=
  .next (if s.pwr.mode == .idle then s.onPwr fun p => { p with mode := .run } else s)

/-- The device runs: RUN or IDLE (R425). -/
def State.running (s : State) : Bool := s.pwr.mode == .run || s.pwr.mode == .idle

/-! Refusals (R432) -/

/-- A refusal is recorded: `how` 0 local, 1 daisy, 2 commit. -/
def State.recordRefusal (s : State) (reason refuser how : Nat) : State :=
  let w := refuser * 65536 + reason
  let one (p : Power) : Power :=
    { p with refcnt := bmod (bmod p.refcnt 0 satInc) (Fin.ofNat 8 reason) satInc, lastref := wd w
             reflog := ([wd (w + how * 256), s.stamp] ++ p.reflog).take 32 }
  (s.onPwr one).raise 0x02 0

/-! Loads that stand in the way (R430, R431, R441) -/

/-- An output of a block is energised; a valve whose current decays is off. -/
def State.energised (s : State) (blk : Nat) : Bool :=
  if 0x30 ≤ blk && blk ≤ 0x38 then (allFin 72).any fun c => 0x30 + c.val / 8 = blk && ((bget s.hs c).out || (bget s.hs c).act != .off || (bget s.hs c).next.isSome)
  else if blk = 0x39 || blk = 0x3A then
    ((allFin 8).any fun k => 0x39 + k.val / 4 = blk && s.motor k && ((bget s.pairs k).stage == .drive || s.charged (pairCode k) != { code := pairCode k, na := 0, nw := 0, derat := false })) ||
      (allFin 16).any fun n => 0x39 + n.val / 8 = blk && !s.motor (pairOf n) && (bget s.legs n).act != .off
  else if blk = 0x3B then (allFin 12).any fun n => match (bget s.vd n).stage with | .off => false | .decay _ => false | _ => true
  else if blk = 0x40 then (allFin 24).any fun n => 0 < (bget s.sinks n).x
  else if blk = 0x3E then (allFin 16).any fun n => (bget s.ios n).on
  else false

/-- A deferral of a load of a block is pending. -/
def State.hasDeferral (s : State) (blk : Nat) : Bool := s.adm.defer.any fun d => loadBlock d.charge.code = blk

/-- The load blocks. -/
def loadBlocks : List Nat := (List.range 0x13).map (0x30 + ·)

/-- The lowest load block with an output energised or a deferral pending. -/
def State.loadInWay (s : State) : Option Nat := loadBlocks.find? fun b => s.energised b || s.hasDeferral b

/-- A block is drained but for its outputs (R430): queues of work, sub-queues and tags are empty; both pairs wait. -/
def State.blockBusy (s : State) (blk : Nat) : Bool :=
  if blk = 0x07 then !s.fab.subq.isEmpty || !s.fab.waiting.isEmpty || (allFin 64).any fun t => (bget s.fab.tags t).tx.isSome
  else if blk = 0x09 then !s.srv.queue.isEmpty || !s.srv.heldAcc.isEmpty || !s.srv.blocks.isEmpty || s.upd.busy != .none
  else if blk = 0x0A then !s.log.queue.isEmpty
  else if blk = 0x0B || blk = 0x0C then
    let c := bget s.cores (Fin.ofNat 2 (blk - 0x0B))
    c.run != .waiting || !c.stf.isEmpty
  else if 0x10 ≤ blk && blk ≤ 0x1F then (s.seq (Fin.ofNat 16 (blk - 0x10))).act.isSome
  else if 0x20 ≤ blk && blk ≤ 0x2F then (s.loopsOn (Fin.ofNat 16 (blk - 0x20))).any fun m => (s.loop m).rel.isSome || (s.loop m).out.isSome
  else if blk = 0x42 then s.acs.poll.isSome
  else if 0x48 ≤ blk && blk ≤ 0x4F then let c := s.can (Fin.ofNat 8 (blk - 0x48)); c.req != 0 || c.sends || !c.zopq.isEmpty
  else if 0x50 ≤ blk && blk ≤ 0x57 then (s.lin (Fin.ofNat 8 (blk - 0x50))).wait.isSome
  else if blk = 0x58 then !s.eth.store.isEmpty || s.eth.htxr != s.eth.htxw
  else if blk = 0x5D then !s.ring.objq.isEmpty || s.ring.txq.any (·.cls != 2)
  else false

/-- The lowest block that is not drained. -/
def State.undrained (s : State) : Option Nat := (List.range 0x5F).find? s.blockBusy

/-! Entry -/

/-- An entry is refused (R429, R431): the refusal is recorded, a latched wake is discarded, the device stays in RUN. -/
def State.refuseEntry (s : State) (reason blk : Nat) : State :=
  let s1 := s.recordRefusal reason blk s.pwr.viaRep.toNat
  s1.onPwr fun p => { p with mode := .run, latched := none, storing := false, req := 0, dstate := 0 }

/-- Every output is commanded off and every deferral withdrawn (FORCEOFF, R428). -/
def State.forceOff (s : State) : State :=
  let s1 := (allFin 24).foldl (fun st n => (st.sinkDark n).onSink n fun k => { k with last := 0 }) s.powerOff
  let s2 := (allFin 16).foldl (fun st n => (st.ioOff n).onIo n fun p => { p with cmd := false }) s1
  s2.onAdm fun a => { a with defer := [] }

/-- The next base-cycle boundary at or after TIME. -/
def State.nextStrobe (s : State) : Nat := (s.now + 99999) / 100000 * 100000

/-- ENTRY_START (R428, R431): REQ, or an accepted commit; an output energised, or debug attached, refuses it at once. -/
def execEntryStart (s : State) : Host.Outcome State Fault Refusal :=
  let net := s.cfgB pwrIdx 0x10
  .next (if !s.running || s.sup.crank || !(if net then s.pwr.due else s.pwr.req != 0) then s
  else
    let s1 := (s.at s.nextStrobe).onPwr fun p => { p with
      mode := .entering, start := s.nextStrobe, deep := p.req = 2, due := false, viaRep := if net then 2 else 0
      latched := none, storing := false }
    let s2 := s1.missItems s1.everyItem 6 0x02
    let s3 := if s.cfgB pwrIdx 5 then s2.forceOff else s2
    match s3.loadInWay, s3.dbgAttached with
    | some b, _ => s3.refuseEntry 2 b
    | none, true => s3.refuseEntry 6 0x0D
    | none, false => s3)

/-- WAKE_EVENT (R433, R434). -/
def execWakeEvent (src : WakeSrc) (num : BitVec 8) (s : State) : Host.Outcome State Fault Refusal := .next (s.wakePass src num.toNat)

/-- WAKE_TIMER_EXPIRE (R435): WTIMER s after the entry completed. -/
def execWakeTimerExpire (s : State) : Host.Outcome State Fault Refusal :=
  .next (if (s.pwr.mode == .park || s.pwr.mode == .deep) && s.pwr.wtimer != 0 then
    (s.at (s.pwr.start + secT s.pwr.wtimer)).wakePass .timer 0
  else s)

/-- Domains are powered off in the order of R425, with the root clock (R509), and SUP enters retention; memory that is off keeps nothing and
reads as log 5 says when its domain is back. -/
def State.unpower (s : State) : State :=
  let off (st : State) (d : Fin 7) : State :=
    { st with dom := bset st.dom d { powered := false, held := false } }.stopDomain d false
  let s0 := ([6, 5, 4, 3, 2] : List (Fin 7)).foldl off s
  let s1 : State := { s0 with mem := s0.mem.filter fun e => e.1 < 0x800000, rst := { s0.rst with xosc := false, lock := false, good := 0 } }
  { s1 with dom := bset s1.dom 1 { powered := true, held := true } }

/-- The entry completes (R425, R429, R431, R433, R538): POS of each pair is saved as it stands, the duo role goes OFF, a latched wake is
replayed at once. -/
def State.parkNow (s : State) : State :=
  let deep := s.pwr.deep
  let s1 := (if s.duo.role == .off then s else (s.duoRole .off).onDuo fun d => { d with due := none }).unpower
  let cause (i : Fin 80) : Bool := s.pwr.latched.any fun w => w.src = 1 && w.num.toNat = i.val
  let s2 := { s1.boostStop with
    inputs := ball s1.inputs fun i u => { u with entry := u.rep, poll := none, agree := 0, wakec := cause i }
    acs := { s1.acs with searchAt := s.now, acks := 0 } }
  let s3 := s2.onPwr fun p => { p with
    mode := if deep then .deep else .park, start := s.now, req := 0, entries := satInc p.entries, storing := false }
  match s.pwr.latched with
  | none => s3
  | some w =>
    (s3.onPwr fun p => { p with mode := .returning, latched := none, wake := some { w with replay := true }, next := 1 }).raise 0x02 1

/-- ENTRY_COMPLETE (R431): once every block is drained the changed saved objects are stored; when that is done the entry completes. -/
def execEntryComplete (s : State) : Host.Outcome State Fault Refusal :=
  .next (if s.pwr.mode != .entering || s.undrained.isSome || s.loadInWay.isSome || s.srv.storing then s
  else if s.dbgAttached then s.refuseEntry 6 0x0D
  else if s.srv.dirty.isSome then (s.onSrv fun v => { v with storing := true, dirty := none }).onPwr fun p => { p with storing := true }
  else s.parkNow)

/-- ENTRY_DRAIN_TIMEOUT (R431, R432): DRTO after entry start, with the lowest block that is not drained, or the store. -/
def execEntryDrainTimeout (s : State) : Host.Outcome State Fault Refusal :=
  .next (if s.pwr.mode != .entering then s
  else
    let s1 := s.at (s.pwr.start + msT (s.cfg pwrIdx 4))
    match s1.undrained, s1.loadInWay with
    | some b, some l => if b < l then s1.refuseEntry 1 b else s1.refuseEntry 2 l
    | some b, none => s1.refuseEntry 1 b
    | none, some l => s1.refuseEntry 2 l
    | none, none => if s1.srv.storing || s1.srv.dirty.isSome then s1.refuseEntry 3 0x09 else s)

/-! Polling and wake detectors while parked -/

/-- PARK_POLL (R359): input n is polled at TIME ≡ n × 1 000 (mod 5 000 000). -/
def execParkPoll (n : Fin 64) (mV : Nat) (s : State) : Host.Outcome State Fault Refusal :=
  let i : Fin 80 := ⟨n.val, by omega⟩
  let w := s.cfg (0x2300 + n.val) 8
  let deep := s.pwr.mode == .deep
  .next (if !(s.pwr.mode == .park || deep) || !(w % 4 = 2 || (w % 4 = 1 && !deep)) then s
  else
    let s1 := s.at (gridFrom 5000000 (n.val * 1000) s.now)
    let u := bget s1.inputs i
    let c := s1.inClass i mV
    let agree := if u.poll = some c then u.agree + 1 else 1
    let s2 := s1.onIn i fun u => { u with poll := some c, agree := agree }
    let bit := match c with | .open_ => 4 | .inactive => 5 | .active => 6 | .short => 7
    if c != u.entry && s.cfg (0x2300 + n.val) 9 ≤ agree && w.testBit bit then s2.wakePass .input n.val else s2)

/-- AON watches a channel: parked, or during an entry (R433, R434). -/
def State.watching (s : State) : Bool :=
  s.pwr.mode == .park || s.pwr.mode == .deep || s.pwr.mode == .entering || s.pwr.mode == .returning

/-- CAN_WUP_DETECT (R389, R434): with SWK a WUP powers the frame decoder, except in DEEP PARK, where it wakes. -/
def execCanWupDetect (ch : Fin 8) (s : State) : Host.Outcome State Fault Refusal :=
  let w := s.cfg (0x3000 + ch.val) 0x10
  .next (if !s.watching || w % 4 = 0 || s.cfg (0x3000 + ch.val) 2 != 0 then s
  else if w.testBit 2 && !s.pwr.deep then s.onCan ch fun c => { c with decode := some s.now, wufErr := if c.decode.isSome then c.wufErr else 0 }
  else s.wakePass .canWup ch.val)

/-- A frame is the wake-up frame of a channel (R389). -/
def State.isWuf (s : State) (ch : Fin 8) (f : CanFrame) : Bool :=
  let x := 0x3000 + ch.val
  let id := (s.obj x 0x11).getD 0 0
  let mask := fld ((s.obj x 0x11).getD 1 0) 28 0
  let dat := (((s.obj x 0x12).getD 0 0).toNat * 2 ^ 36 + ((s.obj x 0x12).getD 1 0).toNat)
  let bits := f.data.foldl (fun a o => a * 256 + o.toNat) 0 * 2 ^ (64 - 8 * Nat.min 8 f.data.length)
  let m := dat % 2 ^ 64
  f.ide == id.getLsbD 32 && (f.id.toNat &&& mask) = (fld id 28 0 &&& mask) && f.dlc.toNat = dat / 2 ^ 68 &&
    (m = 0 || (bits &&& m) != 0)

/-- CAN_WUF_DETECT (R389): a frame that the powered decoder reads. -/
def execCanWufDetect (ch : Fin 8) (frame : CanFrame) (error : Bool) (s : State) : Host.Outcome State Fault Refusal :=
  .next (match s.watching, (s.can ch).decode with
    | true, some _ =>
      let n := (s.can ch).wufErr
      if error then
        let s1 := s.onCan ch fun c => { c with decode := some s.now, wufErr := n + 1 }
        if 31 < n + 1 then s1.wakePass .canWuf ch.val else s1
      else if frame.fdf then s.onCan ch fun c => { c with decode := some s.now }
      else
        let s1 := s.onCan ch fun c => { c with decode := some s.now, wufErr := n - 1 }
        if s.isWuf ch frame then s1.wakePass .canWuf ch.val else s1
    | _, _ => s)

/-- WUF_DECODER_TIMEOUT (R389): after 1.0 s of silence the decoder returns to WUP detection. -/
def execWufDecoderTimeout (ch : Fin 8) (s : State) : Host.Outcome State Fault Refusal :=
  .next (match (s.can ch).decode with
    | some t => (s.at (t + secT 1)).onCan ch fun c => { c with decode := none, wufErr := 0 }
    | none => s)

/-! Status -/

/-- STATE (obj 0x1200.02). -/
def State.pwrState (s : State) : Nat :=
  match s.pwr.mode with
  | .entering => 3 | .park => 4 | .deep => 5 | .returning => 6
  | .idle => if s.sup.crank then 2 else 1
  | _ => if s.sup.crank then 2 else 0

/-- WCAUSE of a wake. -/
def Wake.word (w : Wake) : Word := wd (w.src.toNat * 2 ^ 28 + w.num.toNat * 2 ^ 20 + b1 w.replay * 2 ^ 19 + b1 w.multi * 2 ^ 18)

end Sys2Proof.Machine
end

