-- ==== Sys2Proof/Machine/Daisy.lean ====
section
/-!
DEFINITION. Network sleep: the daisy and the wake replay (R437, R439 to R445).
-/
namespace Sys2Proof.Machine

/-- A node list entry (R439). -/
structure Node where
  num  : Nat
  med  : Nat
  ch   : Nat
  priv : Bool
  deriving DecidableEq, Repr

/-- The enabled entries, in order. -/
def nodeList (v : ObjView) : List Node :=
  (v pwrIdx 0x13).filterMap fun w =>
    if w.getLsbD 35 then some { num := fld w 34 27, med := fld w 26 25, ch := fld w 24 22, priv := w.getLsbD 21 } else none

def State.myNode (s : State) : Nat := s.cfg pwrIdx 0x11

/-- This node's own entry. -/
def State.ownEntry (s : State) : Option Node := (nodeList s.obj).find? (·.num = s.myNode)

/-- The medium of an entry. -/
def Node.medium (n : Node) : DaisyMed := if n.med = 0 then .can (Fin.ofNat 8 n.ch) else if n.med = 1 then .eth else .ring

/-- The media of the list. -/
def State.media (s : State) : List DaisyMed := ((nodeList s.obj).map Node.medium).eraseDups

/-- The octets of a daisy message (R440). -/
def daisyOctets (type : Byte) (m : DaisyMsg) : List Byte :=
  [type, m.gen, m.orig, m.nxt, BitVec.ofNat 8 (b1 m.ovr * 128 + m.excl.length), BitVec.ofNat 8 m.entries.length] ++ m.excl ++
    m.entries.flatMap fun e => [e.1, e.2]

/-- A message leaves on media (R440); on the ring as a DAISY frame. -/
def State.daisySend (s : State) (type : Byte) (m : DaisyMsg) (media : List DaisyMed) : State :=
  let s1 := s.onPwr fun p => { p with sent := media.map fun d => (type, d, m) }
  if media.contains .ring && s.up 5 then s1.ringQueue { cls := 3, bc := true, dst := 0, words := packFrame (daisyOctets type m) } else s1

/-- No privileged KEEP has been seen within TQUIET (R441). -/
def State.quietNow (s : State) : Bool :=
  match s.pwr.quietAt with
  | some t => t + secT (s.cfg pwrIdx 0x16) ≤ s.now
  | none => true

/-- The node's verdict (R441): none for consent, or the low octet of the refuser code of the first failing cause, block 0x02 for a missing wish
and the whole node for a keep-alive (DEDUCED, log 17); `wish` stands for REQ ≠ 0. -/
def State.verdict (s : State) (wish : Bool) : Option Byte :=
  if !wish then some 0x02
  else match s.cfgB pwrIdx 5, loadBlocks.find? s.energised with
    | false, some b => some (BitVec.ofNat 8 b)
    | _, _ => if s.quietNow then none else some 0x80

/-- This node's entry of a round. -/
def State.ownVote (s : State) (wish : Bool) : Byte × Byte := (BitVec.ofNat 8 s.myNode, (s.verdict wish).getD 0xFF)

/-- The next enabled daisy node after this one that is not excluded, the last entry wrapping to the first (R441). -/
def State.nextNode (s : State) (excl : List Byte) : Option Node :=
  let l := nodeList s.obj
  let i := (l.findIdx? (·.num = s.myNode)).getD 0
  (l.drop (i + 1) ++ l.take (i + 1)).find? fun n => !n.priv && !excl.contains (BitVec.ofNat 8 n.num)

/-- A ROUND goes on to the next node. -/
def State.passRound (s : State) (m : DaisyMsg) : State :=
  match s.nextNode m.excl with
  | some n => s.daisySend 1 { m with nxt := BitVec.ofNat 8 n.num } [n.medium]
  | none => s

/-- The master may sleep by the daisy. -/
def State.sleepMaster (s : State) : Bool := s.cfgB pwrIdx 0x12 && s.cfgB pwrIdx 0x10

/-- A round is opened (R441, R443). -/
def State.openRound (s : State) (ovr : Bool) : State :=
  let g := s.pwr.gen + 1
  let excl := if ovr then s.pwr.excl else []
  let s1 := s.onPwr fun p => { p with
    round := some { gen := g, opened := s.now, ovr := ovr }, rounds := satInc p.rounds, dstate := if ovr then 5 else 1 }
  s1.passRound { gen := g, orig := BitVec.ofNat 8 s.myNode, nxt := 0, ovr := ovr, excl := excl, entries := [s.ownVote (ovr || s.pwr.req != 0)] }

/-- DAISY_ROUND_OPEN (R441). -/
def execDaisyRoundOpen (s : State) : Host.Outcome State Fault Refusal :=
  .next (if !s.sleepMaster || !s.running || s.sup.crank || s.pwr.req = 0 || s.pwr.round.isSome || s.pwr.commit.isSome || s.pwr.due then s
  else
    let a := match s.pwr.quietAt with | some t => t + secT (s.cfg pwrIdx 0x16) | none => 0
    let b := match s.pwr.failAt with | some t => t + secT (s.cfg pwrIdx 0x19) | none => 0
    (s.at (Nat.max a b)).openRound false)

/-- The message of a COMMIT. -/
def State.commitMsg (s : State) (g : Byte) (ovr : Bool) : DaisyMsg :=
  { gen := g, orig := BitVec.ofNat 8 s.myNode, nxt := 0, ovr := ovr, excl := if ovr then s.pwr.excl else [], entries := [] }

/-- The master commits: the first of three COMMITs (R441). -/
def State.commitRound (s : State) (r : Round) : State :=
  let s1 := s.onPwr fun p => { p with
    round := none, gen := r.gen, ovr := r.ovr, dstate := 3, commit := some { gen := r.gen, ovr := r.ovr, sent := 1, last := s.now } }
  s1.daisySend 2 (s1.commitMsg r.gen r.ovr) s1.media

/-- NODE of a refuser code: 0x00 for this device (R28). -/
def State.refuserNode (s : State) (n : Byte) : Nat := if n.toNat = s.myNode then 0 else n.toNat

/-- A refusal in a round is recorded (R432, R441): reason 0x04 for a keep-alive, with the privileged node heard last, or the node that tells of it
where this one heard none (log 17); else 0x05. -/
def State.recordVote (s : State) (e : Byte × Byte) : State :=
  if e.2 = 0x80 then s.recordRefusal 4 ((if s.pwr.quietAt.isSome then s.pwr.lastka.toNat else s.refuserNode e.1) * 256 + 0x80) 1
  else s.recordRefusal 5 (s.refuserNode e.1 * 256 + e.2.toNat) 1

/-- A KEEP of a privileged node has been seen since a round opened. -/
def State.keepSince (s : State) (t : Nat) : Bool := match s.pwr.quietAt with | some q => t ≤ q | none => false

/-- A round fails (R441). -/
def State.failRound (s : State) (refusers : List Byte) : State :=
  s.onPwr fun p => { p with round := none, failAt := some s.now, refused := refusers, dstate := 0 }

/-- The ROUND returns to the master (R441, R443). -/
def State.roundReturn (s : State) (r : Round) (m : DaisyMsg) : State :=
  let no := m.entries.filter (·.2 != 0xFF)
  let held := s.keepSince r.opened
  let s1 := no.foldl (fun st e => st.recordVote e) s
  let s2 := if held && no.all (·.2 != 0x80) then s1.recordRefusal 4 (s.pwr.lastka.toNat * 256 + 0x80) 1 else s1
  if held || (!r.ovr && !no.isEmpty) then s2.failRound (no.map (·.1)) else s2.commitRound r

/-- DAISY_ROUND_RECEIVE (R440, R441): acted on when NEXT is this node. -/
def execDaisyRoundReceive (m : DaisyMsg) (_med : DaisyMed) (s : State) : Host.Outcome State Fault Refusal :=
  .next (if !s.up 5 || !s.running || m.nxt.toNat != s.myNode then s
  else match s.pwr.round, decide (m.orig.toNat = s.myNode) with
    | some r, true => if m.gen = r.gen then s.roundReturn r m else s
    | _, true => s
    | _, false =>
      let v := s.ownVote (s.pwr.req != 0)
      let s1 := s.onPwr fun p => { p with dstate := if v.2 = 0xFF then 2 else if v.2 = 0x80 then 4 else 0 }
      s1.passRound { m with entries := m.entries ++ [v] })

/-- DAISY_ROUND_TIMEOUT (R441, R443): RTO after it opened; an overrule round is committed as if it had returned. -/
def execDaisyRoundTimeout (s : State) : Host.Outcome State Fault Refusal :=
  .next (match s.pwr.round with
    | none => s
    | some r =>
      let s1 := s.at (r.opened + msT (s.cfg pwrIdx 0x18))
      if r.ovr then s1.roundReturn r { gen := r.gen, orig := BitVec.ofNat 8 s.myNode, nxt := 0, ovr := true, excl := s.pwr.excl, entries := [] }
      else ((s1.recordRefusal 7 0x02 1).raise 0x02 3).failRound [])

/-- DAISY_COMMIT_REPEAT (R441): 10 ms after the one before; after the third the master starts its own entry. -/
def execDaisyCommitRepeat (s : State) : Host.Outcome State Fault Refusal :=
  .next (match s.pwr.commit with
    | none => s
    | some c =>
      let s1 := (s.at (c.last + msT 10)).daisySend 2 (s.commitMsg c.gen c.ovr) s.media
      s1.onPwr fun p =>
        if c.sent = 2 then { p with commit := none, due := true }
        else { p with commit := some { c with sent := c.sent + 1, last := s1.now } })

/-- DAISY_COMMIT_RECEIVE (R442, R443): a newer generation is accepted and passed on; it starts an entry unless this node has withdrawn its
wish. -/
def execDaisyCommitReceive (m : DaisyMsg) (med : DaisyMed) (s : State) : Host.Outcome State Fault Refusal :=
  .next (if !s.up 5 || !newer m.gen s.pwr.gen then s
  else
    let s1 := (s.onPwr fun p => { p with gen := m.gen, ovr := m.ovr }).daisySend 2 m (s.media.filter (· != med))
    if s.pwr.req = 0 && !m.ovr then (s1.recordRefusal 5 0x80 2).onPwr fun p => { p with dstate := 0 }
    else if s.running then s1.onPwr fun p => { p with due := true, dstate := 3 }
    else s1)

/-- DAISY_KEEP_RECEIVE (R444). -/
def execDaisyKeepReceive (m : DaisyMsg) (_med : DaisyMed) (s : State) : Host.Outcome State Fault Refusal :=
  .next (if !s.up 5 then s
  else if (nodeList s.obj).any fun n => n.num = m.orig.toNat && n.priv then
    s.onPwr fun p => { p with quietAt := some s.now, lastka := m.orig, dstate := if p.dstate = 2 then 4 else p.dstate }
  else s.raise 0x02 4)

/-- DAISY_KEEP_SEND (R444). -/
def execDaisyKeepSend (s : State) : Host.Outcome State Fault Refusal :=
  .next (if s.up 5 && s.pwr.keep && s.ownEntry.any (·.priv) then
    let s1 := s.at (s.pwr.keepAt + msT (s.cfg pwrIdx 0x1B))
    let m : DaisyMsg := { gen := 0, orig := BitVec.ofNat 8 s.myNode, nxt := 0, ovr := false, excl := [], entries := [] }
    (s1.onPwr fun p => { p with keepAt := s1.now }).daisySend 3 m s.media
  else s)

/-- DAISY_WAKE_RECEIVE (R437): a node that has not begun its entry stays awake. -/
def execDaisyWakeReceive (_m : DaisyMsg) (_med : DaisyMed) (s : State) : Host.Outcome State Fault Refusal :=
  .next (if s.up 5 && s.running then s.onPwr fun p => { p with due := false, commit := none, round := none, dstate := 0 } else s)

/-- MAXAWAKE_EXPIRE (R443): the refusers of the last failed round that are not privileged are excluded, and an overrule round opens.  The
master, whose wish is taken as given, is never excluded (DEDUCED, log 18). -/
def execMaxawakeExpire (s : State) : Host.Outcome State Fault Refusal :=
  .next (match s.pwr.awakeAt with
    | none => s
    | some t =>
      if !s.sleepMaster || !s.running then s
      else
        let s1 := s.at (t + secT (60 * s.cfg pwrIdx 0x17))
        let daisy (b : Byte) : Bool := (nodeList s.obj).any fun n => n.num = b.toNat && !n.priv && n.num != s.myNode
        let s2 := (s1.onPwr fun p => { p with
          awakeAt := none, excl := (p.refused.filter daisy).take 15, ovrs := satInc p.ovrs, round := none }).raise 0x02 2
        s2.openRound true)

/-- A write of KEEP (obj 0x1200.1A). -/
def State.setKeep (s : State) (v : Nat) : Code × State :=
  if v = 1 && !s.ownEntry.any (·.priv) then ((0x07, 0), s)
  else (okc, s.onPwr fun p => { p with keep := v = 1 })

/-- WAKE_REPLAY (R437): within 1 ms of the release of NET, onto each medium that REPLAY selects: WAKE messages, a wake-up signal on each LIN
channel in MODE 1, and a run of 256 WUP symbols on the ring. -/
def execWakeReplay (s : State) : Host.Outcome State Fault Refusal :=
  .next (match s.pwr.replay, s.up 5 with
    | some _, true =>
      let sel := s.cfg pwrIdx 0x0F
      let m : DaisyMsg := { gen := 0, orig := BitVec.ofNat 8 s.myNode, nxt := 0, ovr := false, excl := [], entries := [] }
      let cans := s.media.filter fun d => match d with | .can ch => s.cfg (0x3000 + ch.val) 1 = 1 | _ => false
      let out := (if sel.testBit 0 then cans else []) ++ (if sel.testBit 2 then [.eth] else [])
      let lins := (allFin 8).foldl (fun a n => if sel.testBit 1 && s.cfg (0x3100 + n.val) 1 = 1 then a ||| 1#8 <<< n.val else a) (0 : BitVec 8)
      s.onPwr fun p => { p with replay := none, sent := out.map (fun d => (4, d, m)), linWakes := lins, wupRun := sel.testBit 3 }
    | _, _ => s)

/-- DSTAT (obj 0x1200.1D). -/
def State.dstat (s : State) : Word :=
  let q := match s.pwr.quietAt with | some t => Nat.min 255 ((s.now - t) / secT 1) | none => 255
  wd (s.pwr.dstate.val * 2 ^ 20 + q * 2 ^ 12 + s.pwr.lastka.toNat * 16 + b1 s.pwr.ovr * 8 + b1 (s.ownEntry.any (·.priv)) * 4)

/-- The check of bundle 0x1200 (R439, R445). -/
def pwrCheck (v : ObjView) : Bool :=
  let l := nodeList v
  let me := v.num pwrIdx 0x11
  let id := (v pwrIdx 0x14).headD 0
  (l.filter (·.num = me)).length = 1 &&
    (l.filter (!·.priv)).length ≤ 16 && (l.filter (·.priv)).length ≤ 8 &&
    l.all (fun n => n.med != 0 || (id.getLsbD 35 && v.num (0x3000 + n.ch) 1 = 1))

end Sys2Proof.Machine
end

