-- ==== Sys2Proof/Machine/Access.lean ====
section
/-!
DEFINITION. Immobiliser and keyless access (R448 to R464).
-/
namespace Sys2Proof.Machine

def acsIdx : Nat := 0x2900

/-! Polls -/

/-- A fresh 128-bit challenge (R451): free values. -/
def State.drawChal (s : State) : BitVec 128 × State :=
  let (a, s1) := s.draw
  let (b, s2) := s1.draw
  let (c, s3) := s2.draw
  let (d, s4) := s3.draw
  let g (n : Nat) : Nat := (Config.freeWord n).toNat % 2 ^ 32
  (BitVec.ofNat 128 (((g a * 2 ^ 32 + g b) * 2 ^ 32 + g c) * 2 ^ 32 + g d), s4)

/-- A lock-out runs (R457). -/
def State.lockedOut (s : State) : Bool :=
  match s.acs.lockEnd with
  | some e => s.now < e
  | none => false

/-- Minutes of a lock-out that remain, rounded up. -/
def State.lockMinutes (s : State) : Nat :=
  match s.acs.lockEnd with
  | some e => ceilDiv (e - s.now) (secT 60)
  | none => 0

/-- A poll request (R454): merged into a running poll; refused while locked out, shed, latched or disabled, and in an OFF safe state (R490). -/
def State.requestPoll (s : State) : Code × State :=
  if s.lockedOut then ((0x07, BitVec.ofNat 16 s.lockMinutes), s)
  else if !s.iop || !s.cfgB acsIdx 1 || s.acs.latched || s.isShed 0xAA || s.safeOff 0xAA then ((0x07, 0), s)
  else if s.acs.poll.isSome then (okc, s)
  else
    let (c, s1) := s.drawChal
    (okc, s1.onAcs fun a => { a with
      polls := satInc a.polls
      poll := some { phase := .powering, start := s.now, round := 0, chal := c, frame := [], hit := false, clash := false, valid := 0, invalid := 0, coll := 0
                     tids := Vector.replicate 8 0, tokens := 0 } })

/-- POLL_REQUEST (R454, R459, R460): a touch counts in RUN with MODE.HANDLE, a search acknowledgement after its wake. -/
def execPollRequest (cause : PollCause) (s : State) : Host.Outcome State Fault Refusal :=
  .next (match cause with
    | .write r => s.objCmd r acsIdx 0x0B [1] fun t => t.requestPoll
    | .touch e => if s.running && (bget s.acs.caps e).touched && (s.cfg acsIdx 2).testBit 0 then s.requestPoll.2 else s
    | .search => if s.acs.wakePoll then (s.requestPoll.2).onAcs fun a => { a with wakePoll := false } else s)

/-- The challenge frame and the turnaround: 20.98 ms (R450). -/
def chalTicks : Nat := 2098000

/-- CRC-16 with the polynomial 0x1021 and the initial value 0xFFFF (R451). -/
def crc16Bit (c : BitVec 16) (b : Bool) : BitVec 16 := if c.msb != b then (c <<< 1) ^^^ 0x1021#16 else c <<< 1
def crc16 (os : List Byte) : BitVec 16 := os.foldl (fun c o => (List.range 8).foldl (fun c i => crc16Bit c (o.getLsbD (7 - i))) c) 0xFFFF

/-- The challenge frame of a round (R451): sync, flags, C, CRC-16; 160 bits. -/
def challengeFrame (round nslot : Nat) (chal : BitVec 128) : List Byte :=
  let body : List Byte := [0xA5, BitVec.ofNat 8 (round % 4 * 64 + (nslot - 1) % 8)] ++ (List.range 16).map fun k => chal.extractLsb' (120 - 8 * k) 8
  body ++ [(crc16 body).extractLsb' 8 8, (crc16 body).extractLsb' 0 8]

/-- The challenge frame of a round is sent at `t`; slot 0 begins after it and the turnaround (R453). -/
def State.sendChallenge (s : State) (p : Poll) (t : Nat) : State :=
  s.onAcs fun a => { a with
    poll := some { p with phase := .slot 0, start := t + chalTicks, frame := challengeFrame p.round (s.cfg acsIdx 5) p.chal } }

/-- The driver is latched (R449): off, kind 1, and a poll in progress has no field (log 58). -/
def State.lfLatch (s : State) : State :=
  (((s.onAcs fun a => { a with latched := true, poll := none }).raise 0x42 1).applyOwned acsIdx).setExtra

/-- The coil current amplitude in mA as the powering phase shows it (R449): open below 20 % of ILF, detuned up to 70 %. -/
def State.coilSeen (s : State) (amp : Nat) : State :=
  let ilf := s.cfg acsIdx 3
  let o := decide (5 * amp < ilf)
  let d := !o && decide (10 * amp ≤ 7 * ilf)
  ((s.onAcs fun a => { a with open_ := o, detune := d }).raiseIf (o && !s.acs.open_) 0x42 0).raiseIf (d && !s.acs.detune) 0x42 2

/-- POLL_POWERING_END (R449, R450, R453): PWRT ms of carrier, then the challenge frame; an amplitude above 1.5 A latches the driver. -/
def execPollPoweringEnd (s : State) (amp : Nat := 500) : Host.Outcome State Fault Refusal :=
  .next (match s.acs.poll with
    | some p =>
      if p.phase = .powering then
        let t := p.start + msT (s.cfg acsIdx 4)
        if 1500 < amp then (s.at t).lfLatch else ((s.at t).coilSeen amp).sendChallenge p t
      else s
    | none => s)

/-- Token t of TOKENS: enrolled slot, TID and key slot (R461 map). -/
def tokenAt (v : ObjView) (t : Fin 8) : Option (Nat × BitVec 32 × Nat) :=
  let w := (v acsIdx 9).getD (2 * t.val) 0
  if w.getLsbD 35 then some (fld w 34 32, BitVec.ofNat 32 (fld w 31 0), fld ((v acsIdx 9).getD (2 * t.val + 1) 0) 35 28) else none

/-- The token that an answer proves (R451, R452): the enabled token of its TID, whose key gives the leftmost 64 bits of AES of C. -/
def State.provenToken (s : State) (c : BitVec 128) (tid : BitVec 32) (resp : BitVec 64) : Option (Fin 8) :=
  (allFin 8).find? fun t => match tokenAt s.obj t with
    | none => false
    | some (_, id, k) => id = tid && match bget s.upd.keys (Fin.ofNat 32 k) with
      | some key => (aes key c).toNat / 2 ^ 64 = resp.toNat
      | none => false

/-- A slot is classified (R452). -/
def State.slotSeen (s : State) (p : Poll) (k : Fin 8) (obs : SlotObs) : Poll :=
  let bit : Byte := BitVec.ofNat 8 (2 ^ k.val)
  match obs with
  | .empty => p
  | .collision => { p with clash := true, coll := p.coll ||| bit }
  | .answer tid resp =>
    match s.provenToken p.chal tid resp with
    | some t => { p with hit := true, valid := p.valid ||| bit, tokens := p.tokens ||| BitVec.ofNat 8 (2 ^ t.val), tids := bset p.tids k tid }
    | none => { p with invalid := p.invalid ||| bit, tids := bset p.tids k tid }

/-- The valid token of the lowest enrolled slot (R453). -/
def State.granted (s : State) (p : Poll) : Option (Fin 8 × Nat) :=
  (allFin 8).foldl (fun best t =>
    match p.tokens.getLsbD t.val, tokenAt s.obj t with
    | true, some (e, _, _) => match best with
      | some (_, e0) => if e < e0 then some (t, e) else best
      | none => some (t, e)
    | _, _ => best) none

/-- A deny counts (R457): FAILS, and from 5 on a lock-out. -/
def State.countFail (s : State) : State :=
  let f := satByte (s.acs.fails.toNat + 1)
  let s1 := (s.onAcs fun a => { a with fails := f, flashFails := f, denials := satInc a.denials }).raise 0x42 3
  if f.toNat < 5 then s1
  else
    let mins := Nat.min 160 (10 * 2 ^ (f.toNat - 5))
    ((s1.onAcs fun a => { a with lockEnd := some (s.now + secT (60 * mins)), locks := satInc a.locks }).raise 0x42 4).logEvent 5
      [wd (2 ^ 32), wd f.toNat, wd mins]

/-- The poll ends (R453, R455, R457, R461). -/
def State.pollEnd (s : State) (p : Poll) : State :=
  let g := s.granted p
  let outcome := if g.isSome then 1 else if p.invalid != 0 then 2 else if p.coll != 0 then 3 else 4
  let (tok, es) := match g with | some (t, e) => (t.val, e) | none => (0, 0)
  let w := wd (outcome * 2 ^ 32 + tok * 2 ^ 29 + es * 2 ^ 26 + p.round * 2 ^ 24 + p.valid.toNat * 2 ^ 16 + p.invalid.toNat * 2 ^ 8 + p.coll.toNat)
  let s1 := (s.onAcs fun a => { a with poll := none, result := w, laststamp := s.stamp, line0 := true }).askNotes (acsIdx * 256 + 0x0E)
  let s2 := if outcome = 4 then s1 else
    s1.logEvent 5 ([w, wd (p.chal.toNat / 2 ^ 96)] ++ (allFin 8).map fun k => wd (bget p.tids k).toNat)
  let s3 :=
    if outcome = 1 then
      s2.onAcs fun a => { a with fails := 0, flashFails := 0, grants := satInc a.grants, lastGrant := s.now, sstop := false }
    else if outcome = 2 then s2.countFail
    else if outcome = 3 then s2.raise 0x42 5
    else s2
  (s3.applyOwned acsIdx).setExtra

/-- POLL_SLOT_END (R450, R452, R453): 15.0 ms a slot; after the last, a further round with a new challenge, or the end. -/
def execPollSlotEnd (obs : SlotObs) (s : State) : Host.Outcome State Fault Refusal :=
  .next (match s.acs.poll with
    | none => s
    | some p =>
      match p.phase with
      | .powering => s
      | .slot k =>
        let t := p.start + usT 15000
        let s1 := s.at t
        let q := s1.slotSeen p k obs
        if k.val + 1 < s.cfg acsIdx 5 then
          s1.onAcs fun a => { a with poll := some { q with phase := .slot (Fin.ofNat 8 (k.val + 1)), start := t } }
        else if !q.hit && q.clash && q.round < s.cfg acsIdx 6 then
          let (c, s2) := s1.drawChal
          s2.sendChallenge { q with round := q.round + 1, chal := c, hit := false, clash := false } t
        else s1.pollEnd q)

/-! Lock-out, driver, result -/

/-- LOCKOUT_EXPIRE (R457). -/
def execLockoutExpire (s : State) : Host.Outcome State Fault Refusal :=
  .next (match s.acs.lockEnd with
    | some e => (s.at e).onAcs fun a => { a with lockEnd := none }
    | none => s)

/-- LOCKCLR = 1 (R458). -/
def State.lockClear (s : State) : Code × State :=
  (okc, (s.onAcs fun a => { a with lockEnd := none, fails := 0, flashFails := 0 }).logEvent 5 [wd (2 * 2 ^ 32)])

/-- LOCKOUT_CLEAR (R458). -/
def execLockoutClear (r : Requester) (s : State) : Host.Outcome State Fault Refusal :=
  .next (s.objCmd r acsIdx 0x0D [1] fun t => t.lockClear)

/-- LF_DRIVER_CLEAR (R449): CLR = 1. -/
def execLfDriverClear (r : Requester) (s : State) : Host.Outcome State Fault Refusal :=
  .next (s.objCmd r acsIdx 0x0C [1] fun t => (okc, t.onAcs fun a => { a with latched := false }))

/-- LF_SHORT (R449). -/
def execLfShort (s : State) : Host.Outcome State Fault Refusal :=
  .next (if s.iop && s.acs.poll.isSome then s.lfLatch else s)

/-- RESULT as read (R455): line 0 is released. -/
def State.resultRead (s : State) : State := s.onAcs fun a => { a with line0 := false }

/-- RESULT_READ (R455). -/
def execResultRead (r : Requester) (s : State) : Host.Outcome State Fault Refusal :=
  let a : HeldAcc := { by_ := r, hdr := none, index := acsIdx, sub := 0x0E, value := none }
  .next (if !s.up 2 then s
  else s.accept (.acc a) (·.tell r (0x10, 0) []) fun s =>
    let t := s.noteAccess r
    match t.access r acsIdx 0x0E false with
    | .inr c => t.tell r (c, 0) []
    | .inl _ => if t.iop then t.resultRead.tell r okc [t.acs.result] else t.holdAcc a)

/-! Handles and search -/

/-- HANDLE_MEASURE (R459): the capacitance in 0.1 pF. -/
def execHandleMeasure (e : Fin 4) (code : Nat) (s : State) : Host.Outcome State Fault Refusal :=
  let w := (s.obj acsIdx 0x0A).headD 0
  let c := bget s.acs.caps e
  .next (if !w.getLsbD (32 + e.val) then s
  else
    let s1 := s.at (c.last + msT (fld w 23 16))
    let set (f : CapSense → CapSense) : State := s1.onAcs fun a => { a with caps := bmod a.caps e fun u => { f u with last := s1.now } }
    match c.base with
    | none => set fun u => { u with base := some (64 * code) }
    | some b =>
      if 64 * (code : Int) < b + 64 * fld w 31 24 then
        set fun u => { u with base := some (b + (64 * (code : Int) - b) / 64), highs := 0, ignored := false, touched := false }
      else if c.ignored then set fun u => u
      else
        let n := c.highs + 1
        let since := if c.highs = 0 then s1.now else c.since
        if secT 30 ≤ s1.now - since then
          (set fun u => { u with highs := n, since := since, ignored := true, touched := false }).raise 0x43 1
        else
          let s2 := set fun u => { u with highs := n, since := since, touched := fld w 15 12 ≤ n }
          if n != fld w 15 12 || !(s.cfg acsIdx 2).testBit 0 then s2
          else if s.running then s2.requestPoll.2
          else s2.wakePass .handle e.val)

/-- Ticks in a week. -/
def weekT : Nat := secT 604800

/-- LF_SEARCH (R460): every PPER ms in PARK; an acknowledgement is followed 20 ms later by a second search, and two in a row wake. -/
def execLfSearch (ack : Option (BitVec 32)) (s : State) : Host.Outcome State Fault Refusal :=
  .next (if s.pwr.mode != .park || !s.cfgB acsIdx 1 || !(s.cfg acsIdx 2).testBit 1 || s.acs.sstop || s.isShed 0xAA || s.lockedOut then s
  else if s.acs.lastGrant + weekT * s.cfg acsIdx 8 ≤ s.now then s.onAcs fun a => { a with sstop := true }
  else
    let t := s.acs.searchAt + (if s.acs.acks = 0 then msT (s.cfg acsIdx 7) else msT 20)
    let s1 := s.at t
    match ack with
    | none => s1.onAcs fun a => { a with acks := 0, searchAt := s1.now }
    | some _ =>
      if s.acs.acks = 0 then s1.onAcs fun a => { a with acks := 1, searchAt := s1.now }
      else (s1.onAcs fun a => { a with acks := 0, searchAt := s1.now }).wakePass .handle 4)

/-- SEARCH_STOP (R460): STOPW weeks after the last grant. -/
def execSearchStop (s : State) : Host.Outcome State Fault Refusal :=
  .next (if s.acs.sstop || !(s.cfg acsIdx 2).testBit 1 then s
  else (s.at (s.acs.lastGrant + weekT * s.cfg acsIdx 8)).onAcs fun a => { a with sstop := true })

/-! Release, status, check -/

/-- The IOP part of block 0x42 at its release; a handle or search wake requests a poll (R459, R460). -/
def State.accessRelease (s : State) : State :=
  let s1 := s.onAcs fun a => { a with poll := none, latched := false, open_ := false, detune := false, result := 0, line0 := false
                                      laststamp := 0, wakePoll := false }
  if s.acs.wakePoll then s1.requestPoll.2 else s1

/-- STATUS (obj 0x2900.0F). -/
def State.accessStatus (s : State) : Word :=
  let a := s.acs
  let st := if !s.cfgB acsIdx 1 then 0 else if a.poll.isSome then 2 else if s.lockedOut then 3 else if a.latched then 4
    else if s.isShed 0xAA then 5 else 1
  let touch := (allFin 4).foldl (fun n e => n + b1 (bget a.caps e).touched * 2 ^ e.val) 0
  wd (st * 2 ^ 20 + b1 a.open_ * 2 ^ 19 + b1 a.latched * 2 ^ 18 + b1 a.detune * 2 ^ 17 + b1 a.sstop * 2 ^ 16 + touch * 2 ^ 12)

/-- LOCKREM (obj 0x2900.11), in seconds, rounded up. -/
def State.lockRem (s : State) : Nat :=
  match s.acs.lockEnd with
  | some e => ceilDiv (e - s.now) (secT 1)
  | none => 0

/-- The check of bundle 0x2900 but for its charge (R462). -/
def State.accessCheck (s : State) (v : ObjView) : Bool :=
  let ts := (allFin 8).filterMap (tokenAt v)
  ts.all (fun t => t.1 < v.num acsIdx 5) && ts.all (fun t => t.2.2 < 32 && (bget s.upd.keys (Fin.ofNat 32 t.2.2)).isSome)

end Sys2Proof.Machine
end

