-- ==== Sys2Proof/Machine/Map.lean ====
section
/-!
DEFINITION. The memory map and the blocks (R26, R29), the isolation wrappers (R520), and the queues, credits and tags of the data fabric
(R11 to R21).
-/
namespace Sys2Proof.Machine

/-! Blocks -/

/-- The domain in which a reset can reach a block (R26, R521); none: the number is not assigned. -/
def blockDom (b : Nat) : Option (Fin 7) :=
  if b ≤ 0x02 then some 0
  else if b ≤ 0x05 then some 1
  else if b ≤ 0x0A then some 2
  else if b ≤ 0x0D then some 6
  else if b ≤ 0x0F then none
  else if b ≤ 0x2F then some 3
  else if b = 0x3C then some 1
  else if b = 0x43 then some 0
  else if b ≤ 0x42 then some 4
  else if b ≤ 0x47 then none
  else if b ≤ 0x5E then some 5
  else none

/-- Every assigned block. -/
def allBlocks : List Nat := (List.range 128).filter fun b => (blockDom b).isSome

/-- The fabric port of a block (R11). -/
def blockPort (b : Nat) : Option (Fin 10) :=
  if b = 0x07 || (blockDom b).isNone then none
  else if b = 0x08 then some 7
  else if b = 0x09 then some 8
  else if b = 0x0B then some 0
  else if b = 0x0C then some 1
  else if b ≤ 0x0D then some 9
  else if b ≤ 0x1F then some 3
  else if b ≤ 0x2F then some 2
  else if b ≤ 0x3C || b = 0x40 || b = 0x41 then some 5
  else if b ≤ 0x43 then some 6
  else some 4

/-- A block's wrapper is closed: its domain is off or held in reset, or a reset of the block alone is asserted (R520). -/
def State.closed (s : State) (b : Nat) : Bool :=
  match blockDom b with
  | none => true
  | some d => !s.up d || s.rst.blocks.any (·.blk == b)

/-! The memory map (R29) -/

/-- The port through which an address is reached; none outside every region. -/
def portOf (a : Nat) : Option (Fin 10) :=
  if a < 0x004000 then some 8
  else if a < 0x100000 then none
  else if a < 0x410000 then some 8
  else if a < 0x800000 then none
  else if a < 0x860000 then some 7
  else if a < 0x870000 then some 4
  else if a < 0x878000 then some 5
  else if a < 0x880000 then none
  else if a < 0x890000 then some 2
  else if a < 0x898000 then some 3
  else if a < 0xC00000 then none
  else if a < 0xC10000 && (blockDom ((a - 0xC00000) / 512)).isSome then some 9
  else none

/-- The block whose memory an address names, but for the management window (R26, R374, R398). -/
def blockAt (a : Nat) : Nat :=
  if a < 0x800000 then 0x09
  else if a < 0x860000 then 0x08
  else if a < 0x863000 then 0x48 + (a - 0x860000) / 0x600
  else if a < 0x864000 then 0x50 + (a - 0x863000) / 0x200
  else if a < 0x86E000 then 0x58
  else if a < 0x870000 then 0x5D
  else if a < 0x880000 then 0x41
  else if a < 0x890000 then 0x20 + (a - 0x880000) / 0x1000
  else 0x10 + (a - 0x890000) / 0x800

/-- A flow whose source is SRAM reads memory (R93). -/
def State.flowReads (s : State) (n : Fin 256) : Bool := epBlock (s.cfg (ctIdx n) 1) = 0x08

/-- The port at which a flow's transactions are initiated (R15, R93). -/
def State.flowPort (s : State) (n : Fin 256) : Option (Fin 10) :=
  blockPort (epBlock (if s.flowReads n then s.cfg (ctIdx n) 2 else s.cfg (ctIdx n) 1))

/-- The target port and block of a transaction: its address names them, or the sink endpoint of the flow that posts it. -/
def State.txTarget (s : State) (x : FabTx) : Option (Fin 10 × Nat) :=
  let byAddr := (portOf x.addr.toNat).map fun p => (p, if p = 9 then 0x06 else blockAt x.addr.toNat)
  match x.flow with
  | some n =>
    let b := epBlock (s.cfg (ctIdx n) 2)
    if s.flowReads n || b = 0x08 then byAddr else (blockPort b).map fun p => (p, b)
  | none => byAddr

/-! Credits (R18) -/

/-- Words of a transaction. -/
def txWords (x : FabTx) : Nat := x.len.val + 1

/-- The hops of R18: into an egress's sub-queue, from a port's cluster, from an egress to its cluster, and of the responses to a port.  The queues
of the last three hold 8 words as a sub-queue does (DESIGN CHOICE, log 21). -/
def subHop (e i : Fin 10) (c : Fin 4) : Fin 430 := ⟨e.val * 40 + i.val * 4 + c.val, by omega⟩
def clusterHop (p : Fin 10) : Fin 430 := ⟨400 + p.val, by omega⟩
def downHop (p : Fin 10) : Fin 430 := ⟨410 + p.val, by omega⟩
def respHop (p : Fin 10) : Fin 430 := ⟨420 + p.val, by omega⟩

/-- Ports 0, 1, 7 and 8 serve a single block: they have no cluster hop. -/
def hasCluster (p : Fin 10) : Bool := p.val != 0 && p.val != 1 && p.val != 7 && p.val != 8

/-- A producer subtracts credits. -/
def Fabric.spend (f : Fabric) (h : Fin 430) (n : Nat) : Fabric := { f with credits := bmod f.credits h (· - n) }

/-- The consumer frees words: the credits are on their way back. -/
def Fabric.giveBack (f : Fabric) (h : Fin 430) (n : Nat) : Fabric := { f with back := f.back ++ [{ hop := h, n := n }] }

/-- Words pass a hop whose consumer frees them at once (log 21). -/
def Fabric.pass (f : Fabric) (h : Fin 430) (n : Nat) : Fabric := (f.spend h n).giveBack h n

/-- The producer of a hop holds credits for n words (R18). -/
def Fabric.holds (f : Fabric) (h : Fin 430) (n : Nat) : Bool := n ≤ bget f.credits h

/-- Credits reach the producer. -/
def Fabric.credit (f : Fabric) (h : Fin 430) (n : Nat) : Fabric := { f with credits := bmod f.credits h (· + n) }

/-! Tags (R14 to R16) -/

/-- The first of the four tags reserved for an initiator port. -/
def reserveOf (p : Fin 10) : Option Nat :=
  if p.val ≤ 6 then some (4 * p.val) else if p = 9 then some 28 else none

/-- E_p: the shared tags bound to a port (R15), for contracts that satisfy `live`. -/
def State.boundTags (s : State) (live : Fin 256 → Bool) (p : Fin 10) : Nat :=
  ((allFin 256).filter fun n => live n && s.flowPort n == some p).foldl (fun a n => a + (s.ct n).tags.toNat) 0 - 4

/-- Σ E_p over the ports. -/
def State.boundTotal (s : State) (live : Fin 256 → Bool) : Nat := (allFin 10).foldl (fun a p => a + s.boundTags live p) 0

/-- Contracts in force. -/
def State.live (s : State) (n : Fin 256) : Bool := (s.ct n).inForce

/-- The transactions that hold a tag in a range and satisfy a condition. -/
def Fabric.held (f : Fabric) (lo hi : Nat) (p : FabTx → Bool) : Nat :=
  ((allFin 64).filter fun t => lo ≤ t.val && t.val < hi && (bget f.tags t).tx.any p).length

/-- The first free tag in a range. -/
def Fabric.freeTag (f : Fabric) (lo hi : Nat) : Option (Fin 64) :=
  (allFin 64).find? fun t => lo ≤ t.val && t.val < hi && (bget f.tags t).tx.isNone

/-- The tag that a transaction draws: an admitted flow from its port's reserve, then from its port's bound tags, up to its grant; background
traffic from shared tags that are not bound (R15). -/
def State.drawTag (s : State) (x : FabTx) : Option (Fin 64) :=
  match x.flow with
  | some n =>
    if (s.ct n).tags.toNat ≤ s.fab.held 0 64 (·.flow == some n) then none
    else
      let mine (y : FabTx) : Bool := y.flow.isSome && y.ini == x.ini
      match (reserveOf x.ini).bind fun r => s.fab.freeTag r (r + 4) with
      | some t => some t
      | none => if s.fab.held 32 64 mine < s.boundTags s.live x.ini then s.fab.freeTag 32 64 else none
  | none =>
    if s.fab.held 32 64 (·.flow.isNone) + s.boundTotal s.live < 32 then s.fab.freeTag 32 64 else none

/-! Movement -/

/-- A transaction is posted only where R13 allows it: not to port 8 or 9, and only a write. -/
def State.isPosted (s : State) (x : FabTx) : Bool :=
  x.write && x.posted && (s.txTarget x).all fun t => t.1.val != 8 && t.1.val != 9

/-- A tag is issued to a transaction: its generation advances (R17). -/
def State.issue (s : State) (t : Fin 64) (x : FabTx) : State :=
  s.onFab fun f => { f with tags := bmod f.tags t fun g => { g with gen := g.gen + 1, tx := some x, issued := s.now, resp := none } }

/-- The target, or a wrapper, answers. -/
def State.respond (s : State) (t : Fin 64) (r : Resp) : State :=
  s.onFab fun f => { f with tags := bmod f.tags t fun g => { g with resp := some r, born := s.now } }

/-- An error response. -/
def errResp (wrapped : Option Nat) : Resp := { error := true, wrapped := wrapped, data := [] }

/-- The order in which transactions of one initiator, class and kind wait. -/
def waitKey (w : Waiting) : Fin 10 × Fin 4 × Bool × Bool := (w.tx.ini, w.tx.cls, w.tx.flow.isSome, w.inCluster)

/-- A waiting transaction moves on if it can (R16, R18): into its cluster's queue, then with a tag into the crossbar; none while it waits. -/
def State.advance (s : State) (w : Waiting) : Option State :=
  let n := txWords w.tx
  let cl := clusterHop w.tx.ini
  if hasCluster w.tx.ini && !w.inCluster then
    if bget s.fab.credits cl < n then none
    else some (s.onFab fun f => { f.spend cl n with waiting := f.waiting.map fun v => if v == w then { v with inCluster := true } else v })
  else
    let leave (st : State) : State :=
      st.onFab fun f =>
        let g := { f with waiting := f.waiting.erase w }
        if w.inCluster then g.giveBack cl n else g
    match s.txTarget w.tx with
    | none =>
      if s.isPosted w.tx then some ((leave s).raise 0x07 3)
      else (s.drawTag w.tx).map fun t => ((leave s).issue t w.tx |>.respond t (errResp none)).raise 0x07 3
    | some (e, _) =>
      let h := subHop e w.tx.ini w.tx.cls
      if bget s.fab.credits h < n then none
      else
        let enter (st : State) (t : Option (Fin 64)) : State :=
          st.onFab fun f => { f.spend h n with subq := f.subq ++ [{ egress := e, tx := w.tx, tag := t, born := w.born }] }
        if s.isPosted w.tx then some (enter (leave s) none)
        else (s.drawTag w.tx).map fun t => enter ((leave s).issue t w.tx) (some t)

/-- One pass over the waiting transactions, oldest first; one that waits holds those behind it of its own kind. -/
def State.pumpPass (s : State) : State × Bool :=
  let r := s.fab.waiting.foldl (fun (a : State × List (Fin 10 × Fin 4 × Bool × Bool) × Bool) w =>
    if a.2.1.contains (waitKey w) then a
    else match a.1.advance w with
      | some s1 => (s1, a.2.1, true)
      | none => (a.1, waitKey w :: a.2.1, a.2.2)) (s, [], false)
  (r.1, r.2.2)

/-- Passes until nothing moves: each transaction moves at most twice. -/
def State.pumpN (s : State) : Nat → State
  | 0 => s
  | n + 1 => let r := s.pumpPass; if r.2 then r.1.pumpN n else s

/-- Everything that can move does. -/
def State.pump (s : State) : State := s.pumpN (2 * s.fab.waiting.length)

/-- A transaction as R13 admits it: an initiator port, no crossing of an aligned 8-word boundary, and the words of a write. -/
def txOk (x : FabTx) : Bool :=
  (reserveOf x.ini).isSome && x.addr.toNat % 8 + txWords x ≤ 8 && (if x.write then x.data.length = txWords x else x.data.isEmpty)

/-- The words that a flow's transaction carries wait at its source (R93), and it is initiated as its contract says. -/
def State.flowTxOk (s : State) (n : Fin 256) (x : FabTx) : Bool :=
  s.live n && s.flowPort n == some x.ini && x.cls.val = s.cfg (ctIdx n) 3 && txWords x ≤ s.cfg (ctIdx n) 7 && x.write != s.flowReads n &&
    (s.flowReads n || (x.posted && x.data == ((s.fab.srcq.filter (·.ct == n.val)).map (·.word)).take (txWords x)))

/-- The first k words that wait for contract n leave the source. -/
def takeSrc (n k : Nat) : List SrcWord → List SrcWord
  | [] => []
  | e :: r => if e.ct = n && k != 0 then takeSrc n (k - 1) r else e :: takeSrc n k r

/-- FABRIC_TRANSACTION (R13, R16, R18): the transaction waits for its tag and its credits, and goes as far as it can.  A transaction against
R13, or of a flow without the words, does not occur (log 3). -/
def execFabricTransaction (tx : FabTx) (s : State) : Host.Outcome State Fault Refusal :=
  let ok := s.up 2 && txOk tx && tx.flow.all fun n => s.flowTxOk n tx
  if !ok then .next s
  else
    let born := match tx.flow with
      | some n => ((s.fab.srcq.find? (·.ct == n.val)).map (·.born)).getD s.now
      | none => s.now
    let s1 := match tx.flow with
      | some n => if s.flowReads n then s else s.onFab fun f => { f with srcq := takeSrc n.val (txWords tx) f.srcq }
      | none => s
    .next (s1.onFab fun f => { f with waiting := f.waiting ++ [{ tx := tx, inCluster := false, born := born }] }).pump

/-- CREDIT_RETURN (R18): the oldest credits on their way back reach their producer. -/
def execCreditReturn (s : State) : Host.Outcome State Fault Refusal :=
  match s.fab.back with
  | [] => .next s
  | c :: r => .next (s.onFab fun f => { f.credit c.hop c.n with back := r }).pump

/-- A tag is freed. -/
def State.freeTag (s : State) (t : Fin 64) (late : Bool) : State :=
  s.onFab fun f => { f with
    tags := bmod f.tags t fun g => { g with tx := none, resp := none, late := g.late + b1 late }
    subq := f.subq.map fun e => if e.tag = some t then { e with tag := none } else e }

/-- RESPONSE_TIMEOUT (R17): 20 µs without a response. -/
def execResponseTimeout (tag : Fin 64) (s : State) : Host.Outcome State Fault Refusal :=
  let g := bget s.fab.tags tag
  match g.tx, g.resp with
  | some x, none =>
    if !s.up 2 then .next s
    else
      let s1 := (s.at (g.issued + usT 20)).freeTag tag true
      .next ((s1.onFab fun f => { f with resps := bset f.resps x.ini (some (errResp none)) }).raise 0x07 1).pump
  | _, _ => .next s

/-- STALE_RESPONSE (R17): a response of an earlier generation is discarded and counted. -/
def execStaleResponse (tag : Fin 64) (s : State) : Host.Outcome State Fault Refusal :=
  if s.up 2 && 0 < (bget s.fab.tags tag).late then
    .next (s.onFab fun f => { f with stale := satInc f.stale, tags := bmod f.tags tag fun g => { g with late := g.late - 1 } })
  else .next s

/-- SRAM_SCRUB (R21): the scrubber reads a word of main SRAM and writes back a corrected one. -/
def execSramScrub (ecc : Ecc) (s : State) : Host.Outcome State Fault Refusal :=
  if !s.up 2 then .next s
  else match ecc with
    | .good => .next s
    | .corrected => .next (s.raise 0x08 0)
    | .uncorrectable => .next (s.raise 0x08 1)

/-! The isolation wrapper (R520) -/

/-- The block that started a transaction, as far as its port and flow tell: a core pair, or the source of a flow. -/
def State.txSource (s : State) (x : FabTx) : Option Nat :=
  match x.flow with
  | some n => some (epBlock (s.cfg (ctIdx n) (if s.flowReads n then 2 else 1)))
  | none => if x.ini = 0 then some 0x0B else if x.ini = 1 then some 0x0C else none

/-- A domain that is held takes with it all that its ports started. -/
def portDom (p : Fin 10) : Fin 7 :=
  if p.val ≤ 1 then 6 else if p.val ≤ 3 then 3 else if p.val = 4 then 5 else if p.val ≤ 6 then 4 else 2

/-- Wrappers close over blocks (R520): requests to them are answered with an error response, posted writes are discarded and counted,
transactions of theirs are withdrawn, and responses to those are discarded. -/
def State.wrapClose (s : State) (blks : Nat → Bool) (doms : Fin 7 → Bool) : State :=
  let toIt (x : FabTx) : Option Nat := ((s.txTarget x).map (·.2)).filter blks
  let ofIt (x : FabTx) : Bool := (s.txSource x).any blks || doms (portDom x.ini)
  let f := s.fab
  let drops := (f.subq.filter fun e => e.tag.isNone && !ofIt e.tx && (toIt e.tx).isSome && s.isPosted e.tx).length
  let gone := f.subq.filter fun e => ofIt e.tx || (toIt e.tx).isSome
  let f1 := gone.foldl (fun g e => g.credit (subHop e.egress e.tx.ini e.tx.cls) (txWords e.tx)) f
  let f2 := (f.waiting.filter fun w => ofIt w.tx && w.inCluster).foldl (fun g w => g.credit (clusterHop w.tx.ini) (txWords w.tx)) f1
  let queued (t : Fin 64) : Bool := f.subq.any (·.tag == some t)
  let tags := ball f2.tags fun t g =>
    match g.tx with
    | none => g
    | some x =>
      if ofIt x then { g with tx := none, resp := none, late := g.late + b1 (g.resp.isNone && !queued t) }
      else match toIt x, g.resp with
        | some b, none => { g with resp := some (errResp (some b)) }
        | _, _ => g
  let src (e : SrcWord) : Bool := blks (epBlock (s.cfg (0x1100 + e.ct) 1))
  let s1 := s.onFab fun _ => { f2 with
    tags := tags
    subq := f.subq.filter fun e => !(ofIt e.tx || (toIt e.tx).isSome)
    waiting := f.waiting.filter fun w => !ofIt w.tx
    srcq := f.srcq.filter fun e => !src e }
  { s1 with rst := { s1.rst with isodrop := Nat.repeat satInc drops s1.rst.isodrop } }

end Sys2Proof.Machine
end

