-- ==== Sys2Proof/Machine/Reset.lean ====
section
/-!
DEFINITION. Reset sources and their assertion, the watchdog and the root clock (R508 to R528); what the release of a domain or block does
is in Release.
-/
namespace Sys2Proof.Machine

def rstIdx : Nat := 0x1400

/-- The number of a reset source, its kind at block 0x01 and its reach (R512, R527); the watchdog's kind is 5 or 12. -/
def srcKind (i : Fin 12) : Nat := i.val

/-- The reach of the sources that hold FAB, ENG, IOP, NET and CORE, and of those that hold SUP too. -/
def coreReach : BitVec 7 := 0x7C
def supReach : BitVec 7 := 0x7E

/-- Minimum assertion of a source, in ticks (R512). -/
def minAssert (i : Fin 12) : Nat := if i = 0 || i = 5 || i = 9 then msT 1 else usT 70

/-- A source that releases by itself when its minimum assertion has passed. -/
def isPulse (i : Fin 12) : Bool := i = 5 || i = 6 || i = 7 || i = 10 || i = 11

def State.srcOf (s : State) (i : Fin 12) : ResetSrc := bget s.rst.srcs i
def State.asserted (s : State) (i : Fin 12) : Bool := (s.srcOf i).since.isSome

/-- SUP is in retention: PARK, DEEP PARK and a return that has not released it (R424). -/
def State.retained (s : State) : Bool :=
  s.pwr.mode == .park || s.pwr.mode == .deep || (s.pwr.mode == .returning && s.pwr.next ≤ 1)

/-- A domain is held in reset. -/
def State.inReset (s : State) (d : Fin 7) : Bool :=
  (bget s.dom d).powered && (bget s.dom d).held && !(d = 1 && s.retained)

/-- Domains held, as in HELD. -/
def State.heldMask (s : State) : Nat := (allFin 7).foldl (fun a d => a + b1 (s.inReset d) * 2 ^ d.val) 0

/-- No source is asserted and no domain is held: the next source starts an event of its own (R526). -/
def State.noReset (s : State) : Bool := (allFin 12).all (fun i => !s.asserted i) && s.heldMask = 0

/-! Assertion -/

/-- Reaction shadows open over blocks while SUP runs (R497). -/
def State.openShadows (s : State) (blks : Nat → Bool) (ref : BitVec 12) : State :=
  if !s.up 1 then s
  else s.onFlt fun f =>
    let isOpen (b : Nat) : Bool := f.shadows.any fun x => x.blk == b && x.ends.isNone
    { f with shadows := f.shadows ++ ((allBlocks.filter fun b => blks b && !isOpen b).map fun b => { blk := b, ref := ref, ends := none }) }

/-- SUP stops: its latches, counters, ledger, rule states and safe states go with it, and every output is off. -/
def State.stopSup (s : State) : State :=
  let sup := { Supply.reset with vbat := s.sup.vbat, tcase := s.sup.tcase, tj := s.sup.tj }
  let adm := { s.adm with
    charges := [], resv := [], extraResv := [], defer := [], heldEv := [], heldLost := 0, prev := 0, fresh := true, inh := 0, flags := 0
    fired := 0, unres := false, reason := 0, rnum := 0, edge := Vector.replicate 116 none, level := Vector.replicate 116 none }
  let flt := { FaultState.reset with dumps := s.flt.dumps }
  { s with
    flt := flt, sup := sup, adm := adm, sout := none, boost := { Boost.reset with vout := s.boost.vout }
    hs := Vector.replicate 72 HsChannel.reset, th := Vector.replicate 13 ThermState.reset
    legs := Vector.replicate 16 Leg.reset, pairs := Vector.replicate 8 Pair.reset
    sinks := ball s.sinks fun _ k => { k with shedAt := none }, chain := { s.chain with shedAt := none }, matrix := { s.matrix with shedAt := none }
    vd := Vector.replicate 12 Valve.reset, vb := Vector.replicate 4 ValveBank.reset }

/-- Domains stop together: held first, then each stopped, SUP last, its wrappers closed (R515, R520). -/
def State.hold (s : State) (doms : List (Fin 7)) : State :=
  let s1 := doms.foldl (fun st d => { st with dom := bset st.dom d { powered := true, held := true } }) s
  let inDoms (b : Nat) : Bool := (blockDom b).any fun d => doms.contains d
  let s2 := s1.wrapClose inDoms fun d => doms.contains d
  let s3 := doms.foldl (fun st d => st.stopDomain d true) s2
  if doms.contains 1 then s3.stopSup else s3

/-- Domains lose what the object server kept for them when FAB is held with them (R62, R64). -/
def State.markLost (s : State) : State :=
  if s.up 2 then s
  else s.onRst fun r => { r with unkept := (allFin 7).foldl (fun a d => if s.up d then a else a ||| 1#7 <<< d.val) r.unkept }

/-- A reset ends an entry into PARK and an IDLE; in PARK and DEEP PARK, and during a return, it brings the device back as in RUN (R513,
R519): SUP leaves retention and the clocks start. -/
def State.leavePark (s : State) : State :=
  let s1 := match s.pwr.mode with
    | .park | .deep => s.onPwr fun p => { p with mode := .returning, start := s.now, wake := none, next := 7 }
    | .returning => s.onPwr fun p => { p with next := 7 }
    | .entering => s.onPwr fun p => { p with mode := .run, req := 0, storing := false }
    | .idle => s.onPwr fun p => { p with mode := .run }
    | _ => s
  if s.retained then { s1 with
    dom := bset s1.dom 1 { powered := true, held := false }
    rst := if s.rst.lossAt.isNone then { s1.rst with xosc := true, lock := true, good := 0x1F } else s1.rst }
  else s1

/-- A source asserts (R512, R515 to R517): every domain in its reach, and each that is off, is held, shadows open with its reference, and a release sequence in
progress starts afresh. -/
def State.assertSrc (s : State) (i : Fin 12) (reach : BitVec 7) (ref : BitVec 12) : State :=
  let newEvent := s.noReset
  let s0 := s.leavePark
  let doms := (allFin 7).filter fun d => reach.getLsbD d.val || !(bget s0.dom d).powered
  let fresh := doms.filter fun d => !s0.inReset d
  let src : ResetSrc := { since := some s.now, reach := reach, blk := none, ref := ref, clear := isPulse i }
  let bit : BitVec 12 := 1#12 <<< i.val
  let dmask (l : List (Fin 7)) : BitVec 7 := l.foldl (fun a d => a ||| 1#7 <<< d.val) 0
  let s1 := s0.onRst fun r => { r with
    srcs := bset r.srcs i src
    srcCnt := bmod r.srcCnt i satInc
    first := if newEvent then ref else r.first
    seen := (if newEvent then 0 else r.seen) ||| bit
    held := (if newEvent then 0 else r.held) ||| dmask doms
    domSrc := ball r.domSrc fun d b => if doms.contains d then b ||| bit else b
    domRef := ball r.domRef fun d b => if fresh.contains d then ref else b
    relAt := none }
  let inReach (b : Nat) : Bool := (blockDom b).any fun d => doms.contains d
  let s2 := if doms.contains 1 then s1 else s1.openShadows inReach ref
  (s2.hold fresh).markLost

/-- As `assertSrc`, with the kind of block 0x01 that the source raises at once (R527). -/
def State.fireSrc (s : State) (i : Fin 12) (reach : BitVec 7) (kind : Nat) : State :=
  (s.assertSrc i reach (BitVec.ofNat 12 (0x20 + kind))).raiseIf (!reach.getLsbD 1) 0x01 kind

/-! Resets of one block (R512, R521) -/

/-- The blocks that SWBLK accepts. -/
def swblkOk (b : Nat) : Bool :=
  b = 0x0B || b = 0x0C || (0x10 ≤ b && b ≤ 0x3B) || (0x3D ≤ b && b ≤ 0x42) || (0x48 ≤ b && b ≤ 0x5E)

/-- What is reset of a block stops: its channels take their policies, its engines halt (R142, R182, R218, R236, R241, R364, R456, R520). -/
def State.stopBlock (s : State) (b : Nat) : State :=
  if b = 0x0B || b = 0x0C then s.stopPair (Fin.ofNat 2 (b - 0x0B))
  else if b ≤ 0x1F then
    let n : Fin 16 := Fin.ofNat 16 (b - 0x10)
    ({ s with seqs := bmod s.seqs n fun q => { q with act := none, elig := [], waitT := [], started := false, held := [] } } : State).programsLost s
  else if b ≤ 0x2F then
    let t : Fin 16 := Fin.ofNat 16 (b - 0x20)
    s.onEng fun e => { e with loops := ball e.loops fun _ l => if l.place.any (·.1 == t) then { l with rel := none, out := none } else l }
  else if b ≤ 0x38 then ((allFin 8).foldl (fun st c => st.hsPolicy (hsOf (Fin.ofNat 9 (b - 0x30)) c)) s).raise b 29
  else if b ≤ 0x3A then ((allFin 4).foldl (fun st k => st.pairPolicy (pairIn (Fin.ofNat 2 (b - 0x39)) k)) s).raise b 29
  else if b = 0x3B then (allFin 12).foldl (fun st n => st.valvePolicy n) s
  else if b = 0x3E then s.ioStop
  else if b = 0x40 then
    ((allFin 24).foldl (fun st n => st.freeLoad (sinkCode n)) s).sinksStop
  else if b = 0x41 then
    ((s.freeLoad 0x98).freeLoad 0x99).chainStop
  else if b = 0x42 then s.onAcs fun a => { a with poll := none }
  else if 0x48 ≤ b && b ≤ 0x4F then s.onCan (Fin.ofNat 8 (b - 0x48)) fun c => { c with bus := none, ready := false }
  else if 0x50 ≤ b && b ≤ 0x57 then s.onLin (Fin.ofNat 8 (b - 0x50)) fun c => { c with wait := none, slotEnd := none, entry := none }
  else if b = 0x5D then s.ringLeave
  else s

/-- A source reaches one block: a lock-up or a write of SWBLK (R512). -/
def State.resetBlock (s : State) (b : Nat) (lock : Bool) (ref : BitVec 12) : State :=
  let i : Fin 12 := if lock then 10 else 11
  let s1 := s.onRst fun r => { r with
    blocks := r.blocks.filter (·.blk != b) ++ [{ blk := b, since := s.now, lock := lock }]
    srcs := bmod r.srcs i fun x => { x with since := some s.now, ref := ref, clear := true, blk := some b }
    srcCnt := bmod r.srcCnt i satInc }
  ((s1.openShadows (· == b) ref).wrapClose (· == b) fun _ => false).stopBlock b

/-- The lock-up reset of a pair (R295, R320): kind 0 or 1 of the pair is its reference. -/
def State.lockUp (s : State) (p : Fin 2) (kind : Nat) : State :=
  let b := 0x0B + p.val
  if !s.up 6 || s.rst.blocks.any (·.blk == b) then s
  else (s.resetBlock b true (BitVec.ofNat 12 (b * 32 + kind))).onCore p fun c => { c with lkcnt := satInc c.lkcnt }

/-! Rows of the sources -/

/-- AON_BROWNOUT (R425, R512): the device goes OFF. -/
def execAonBrownout (s : State) : Host.Outcome State Fault Refusal :=
  let off (st : State) (d : Fin 7) : State :=
    if (bget st.dom d).powered then
      let st1 := { st with dom := bset st.dom d { powered := false, held := false } }
      if d = 1 then st1.stopSup else st1.stopDomain d false
    else st
  let s1 := ([6, 5, 4, 3, 2, 1, 0] : List (Fin 7)).foldl off s
  .next { s1.onPwr (fun p => { p with mode := .off }) with mem := s1.mem.filter fun e => e.1 < 0x800000 }

/-- SUP_BROWNOUT (R512). -/
def execSupBrownout (s : State) : Host.Outcome State Fault Refusal :=
  .next (if s.pwr.mode == .off then s else s.fireSrc 1 supReach 1)

/-- CORE_BROWNOUT (R472, R512). -/
def execCoreBrownout (s : State) : Host.Outcome State Fault Refusal :=
  .next (if s.pwr.mode == .off then s else s.fireSrc 2 coreReach 2)

/-- RSTN_FALL (R513): the form is chosen by RSTNF at the assertion. -/
def execRstnFall (s : State) : Host.Outcome State Fault Refusal :=
  .next (if s.pwr.mode == .off || s.rst.rstn then s
  else
    let s1 := s.onRst fun r => { r with rstn := true }
    let again (i : Fin 12) : State := s1.onRst fun r => { r with srcs := bmod r.srcs i fun x => { x with clear := false } }
    if s.asserted 3 then again 3
    else if s.asserted 4 then again 4
    else if s.cfgB rstIdx 1 then s1.fireSrc 4 supReach 4
    else s1.fireSrc 3 coreReach 3)

/-- What a write of SWRST is answered (R522). -/
def swrstCode (v : Nat) : Code := if v = 0 || v &&& 0x83 != 0 then (0x07, 0) else okc

/-- What a write of SWBLK is answered (R521). -/
def swblkCode (v : Nat) : Code := if swblkOk v then okc else (0x07, 0)

/-- The software source asserts, once the writing access has completed (R522). -/
def State.softReset (s : State) (v : Nat) : State := s.fireSrc 6 (BitVec.ofNat 7 v) 6

/-- A block is reset, once the writing access has completed (R521, R522); one whose wrapper is closed is in reset already. -/
def State.softBlock (s : State) (v : Nat) : State :=
  if s.closed v then s else (s.resetBlock v false 0x02A).raise 0x01 10

/-- A write of SWRST or SWBLK: the answer, then the reset (R522). -/
def State.resetCmd (s : State) (r : Requester) (sub v : Nat) (c : Code) (f : State → State) : State :=
  if !s.served r .reset then s
  else match s.writeCheck r rstIdx sub [wd v] with
    | .inr e => s.tell r (e, 0) []
    | .inl _ => if c.1 = 0 then f (s.tell r c []) else s.tell r c []

/-- SWRST. -/
def execSwrst (r : Requester) (v : Byte) (s : State) : Host.Outcome State Fault Refusal :=
  .next (s.resetCmd r 9 v.toNat (swrstCode v.toNat) (·.softReset v.toNat))

/-- SWBLK. -/
def execSwblk (r : Requester) (v : Byte) (s : State) : Host.Outcome State Fault Refusal :=
  .next (s.resetCmd r 0x0A v.toNat (swblkCode v.toNat) (·.softBlock v.toNat))

/-- DEBUG_RESET_REQUEST (R523): through a port unlocked at level 2 (R574) or in FACTORY (R554), CORE and the domains of DBGREACH. -/
def execDebugResetRequest (s : State) : Host.Outcome State Fault Refusal :=
  .next (if !(s.dbg.level = 2 || !s.upd.field) || s.asserted 8 || s.pwr.mode == .off then s
  else s.fireSrc 8 (0x40 ||| BitVec.ofNat 7 (s.cfg rstIdx 0x0B)) 8)

/-! The watchdog (R524, R525) -/

/-- The watchdog starts, or restarts with a full period: each pair owes 0x5A. -/
def State.wdStart (s : State) : State :=
  s.onRst fun r => { r with
    wdRun := if s.cfgB rstIdx 2 then some s.now else none
    wdWarn := false
    wdPairs := Vector.replicate 2 { served := false, next := 0x5A } }

/-- WDSRV names the pair. -/
def State.wdNames (s : State) (p : Fin 2) : Bool := (s.cfg rstIdx 5).testBit p.val

/-- A named pair has not served in this period. -/
def State.wdOwed (s : State) : Bool := (allFin 2).any fun p => s.wdNames p && !(bget s.rst.wdPairs p).served

/-- The watchdog source asserts with kind 5 or 12. -/
def State.wdFire (s : State) (kind : Nat) : State := (s.onRst fun r => { r with wdRun := none }).fireSrc 5 coreReach kind

/-- A service (R524). -/
def State.wdKick (s : State) (p : Fin 2) (v : Byte) : Code × State :=
  match s.rst.wdRun with
  | none => (okc, s)
  | some t =>
    let q := bget s.rst.wdPairs p
    if !s.wdNames p then (okc, s)
    else if s.now < t + s.cfg rstIdx 3 * 1000 * s.cfg rstIdx 4 || v != q.next then (okc, s.wdFire 12)
    else
      let s1 := s.onRst fun r => { r with
        wdPairs := bset r.wdPairs p { served := true, next := if q.next = 0x5A then Config.wdOther else 0x5A } }
      if s1.wdOwed then (okc, s1)
      else (okc, s1.onRst fun r => { r with
        wdRun := some s.now, wdWarn := false, wdPairs := ball r.wdPairs fun _ x => { x with served := false } })

/-- WDKICK. -/
def execWdkick (p : Fin 2) (v : Byte) (s : State) : Host.Outcome State Fault Refusal :=
  .next (s.objCmd (.pair p) rstIdx 6 [wd v.toNat] (·.wdKick p v))

/-- WATCHDOG_WARNING (R524): 75 % of the period. -/
def execWatchdogWarning (s : State) : Host.Outcome State Fault Refusal :=
  .next (match s.rst.wdRun with
  | some t => if s.wdOwed && !s.rst.wdWarn then
      ((s.at (t + s.cfg rstIdx 3 * 75000)).onRst fun r => { r with wdWarn := true }).raise 0x01 11 else s
  | none => s)

/-- WATCHDOG_EXPIRE (R524): the period ends with a named pair not served. -/
def execWatchdogExpire (s : State) : Host.Outcome State Fault Refusal :=
  .next (match s.rst.wdRun with
  | some t => if s.wdOwed then (s.at (t + msT (s.cfg rstIdx 3))).wdFire 5 else s
  | none => s)

/-- WDLOCK (R525): a write of 0 is refused. -/
def execWdlock (r : Requester) (s : State) : Host.Outcome State Fault Refusal :=
  .next (s.objCmd r rstIdx 8 [1] fun st => (okc, st.onRst fun x => { x with wdLock := true }))

/-- A debug halt or resume of a named pair with WDDBG = 1 stops or restarts the watchdog (R525). -/
def State.wdDebug (s : State) : State :=
  let halted := s.cfgB rstIdx 7 && (allFin 2).any fun p => s.wdNames p && (bget s.cores p).run == .halted
  if halted then s.onRst fun r => { r with wdRun := none }
  else if s.rst.wdRun.isNone && s.up 6 then s.wdStart
  else s

/-! The root clock (R508 to R511) -/

/-- The crystal and the PLL are monitored: not in PARK or DEEP PARK, nor OFF. -/
def State.rootOn (s : State) : Bool := !(s.pwr.mode == .park || s.pwr.mode == .deep || s.pwr.mode == .off)

/-- The root clock is lost: SUP moves to the backup oscillator, TIME continues under R48 with SRC 11, and clock failure asserts (R510, R517). -/
def State.clockFail (s : State) : State :=
  let s1 := (s.onRst fun r => { r with bkup := true, lossAt := some s.now, lock := false, good := 0 }).onTime fun t =>
    { t with src := 3, disc := false }
  if s1.asserted 9 then s1 else s1.fireSrc 9 coreReach 9

/-- ROOT_LOSS (R510). -/
def execRootLoss (s : State) : Host.Outcome State Fault Refusal := .next (if !s.rootOn || s.rst.lossAt.isSome then s else s.clockFail)

/-- ROOT_RESTART (R510): every 10 ms while the root is not good. -/
def execRootRestart (s : State) : Host.Outcome State Fault Refusal :=
  .next (match s.rst.lossAt with
  | some t => (s.at (t + msT 10)).onRst fun r => { r with lossAt := some (t + msT 10), xosc := true }
  | none => s)

/-- AON_OSC_CHECK (R511). -/
def execAonOscCheck (dev : Bool) (s : State) : Host.Outcome State Fault Refusal :=
  .next (if !s.rst.good.getLsbD 1 then s else (s.onRst fun r => { r with aonok := !dev }).raiseIf dev 0x01 13)

/-- A domain's clocks are good (R508): bits 4 to 0 are CLK_CORE, CLK_NET, CLK_PER, CLK_PWR, CLK_CAN. -/
def clocksOf (d : Fin 7) : BitVec 5 :=
  match d with
  | 2 => 0b10010
  | 3 => 0b10000
  | 4 => 0b00100
  | 5 => 0b01101
  | 6 => 0b10000
  | _ => 0

/-- The next domain of the release sequence (R518): it has begun, and no source is asserted. -/
def State.nextRelease (s : State) : Option (Fin 7 × Nat) :=
  match s.rst.relAt with
  | some t => if (allFin 12).any fun i => i.val < 10 && s.asserted i then none
    else ((allFin 7).find? s.inReset).map fun d => (d, t)
  | none => none

/-- CLOCK_GOOD_TIMEOUT (R518): 100 µs, or 10 ms at the first root step after power-on. -/
def execClockGoodTimeout (s : State) : Host.Outcome State Fault Refusal :=
  .next (match s.nextRelease with
  | some (d, t) =>
    if clocksOf d = 0 then s
    else (s.at (t + if s.rst.firstUp then msT 10 else usT 100)).clockFail
  | none => s)

/-! Words (R526) -/

def Cause.word (c : Cause) : Word := wd (c.ref.toNat * 2 ^ 24 + min 4095 c.rcnt * 2 ^ 12 + c.src.toNat)
def Cause.wordX (c : Cause) : Word := wd (c.ref.toNat * 2 ^ 24 + c.dom.toNat * 2 ^ 17 + c.src.toNat)

/-- CLKST (obj 0x1400.0C). -/
def State.clkst (s : State) : Word :=
  let r := s.rst
  wd (b1 r.xosc * 2 ^ 11 + b1 r.lock * 2 ^ 10 + r.good.toNat * 2 ^ 5 + b1 r.bkup * 2 ^ 4 + b1 r.aonok * 2 ^ 3)

/-- HELD (obj 0x1400.0E). -/
def State.heldWord (s : State) : Word :=
  wd ((allFin 12).foldl (fun a i => a + b1 (s.asserted i) * 2 ^ (7 + i.val)) s.heldMask)

/-- The consistency check of bundle 0x1400: WDSRV names no pair whose RUN field reads 0 (R322). -/
def State.rstCheck (s : State) (v : ObjView) : Bool :=
  (allFin 2).all fun p => !(v.num rstIdx 5).testBit p.val || (bget s.cores p).run != .reset

end Sys2Proof.Machine
end

