-- ==== Sys2Proof/Machine/Faults.lean ====
section
/-!
DEFINITION. The fault collector, block 0x05 (R486 to R507): severities, latch, shadows, ERRN, safe states, reactions, freeze and dump.
-/
namespace Sys2Proof.Machine

def faultIdx : Nat := 0x1300
def dumpIdx : Nat := 0x6000

/-! Severities -/

/-- A source that its owning chapter can raise (R486). -/
def canRaise (src : Nat) : Bool := src % 32 < (blockSevs (src / 32)).length

/-- The severity in force for a source (R487, R488): 0x029 and 0x063 are fixed at S3, and an entry that fails its parity check reads as S3. -/
def State.sevOf (s : State) (src : Nat) : Nat :=
  if src = 0x029 || src = 0x063 || s.flt.sevBad.any (·.toNat = src) then 3 else nibble (s.obj faultIdx 1) src % 8

/-- A block's bit in SRCH (R489). -/
def State.srch (s : State) (b : Nat) : Bool := ((s.obj faultIdx 5).getD (b / 32) 0).getLsbD (b % 32)

/-! Safe states (R489 to R492) -/

/-- The reach of a reaction raised by block b, as load codes of R466 (R489). -/
def State.inReach (s : State) (b code : Nat) : Bool := loadCodes.contains code && (s.srch b || loadBlock code = b)

/-- A load enters its safe state (R490); one that is in it stays.  What stood deferred for it does not act (R491). -/
def State.enterSafe (s : State) (code : Nat) : State :=
  if s.flt.safe.getLsbD code then s
  else
    let mode := nibble (s.obj faultIdx 4) code
    let s1 := (s.undefer code).onFlt fun f => { f with safe := f.safe ||| 1#192 <<< code }
    if code < 0x48 then s1.hsSafe (Fin.ofNat 72 code) mode
    else if code < 0x58 then
      let n : Fin 16 := Fin.ofNat 16 (code - 0x48)
      if !s1.motor (pairOf n) then s1.legSafe n mode
      else if code % 2 = 0 then s1.pairSafe (pairOf n) mode
      else s1
    else if code < 0x64 then s1.valveSafe (Fin.ofNat 12 (code - 0x58)) mode
    else if mode = 1 then s1
    else if code < 0x98 then s1.sinkDark (Fin.ofNat 24 (code - 0x80))
    else if code = 0x98 then s1.onChain fun c => { c with sent := c.sent.map fun _ => 0 }
    else if code = 0x99 then s1
    else if code < 0xAA then s1.ioOff (Fin.ofNat 16 (code - 0x9A))
    else s1.onAcs fun a => { a with poll := none }

/-- Every load in the reach of a reaction of block b enters its safe state, and the items it is on the path of miss (R491). -/
def State.safeReach (s : State) (b : Nat) : State :=
  let codes := (List.range 0xAB).filter (s.inReach b)
  let s1 := codes.foldl State.enterSafe s
  let blks := (codes.map loadBlock).eraseDups
  s1.missItems (s1.itemsIn fun x => blks.contains x) 4 b

/-- A load leaves its safe state and takes its command state as it stands (R492). -/
def State.leaveSafe (s : State) (code : Nat) : State :=
  if code < 0x48 then s.hsUnsafe (Fin.ofNat 72 code)
  else if code < 0x58 then
    let n : Fin 16 := Fin.ofNat 16 (code - 0x48)
    if !s.motor (pairOf n) then s.legUnsafe n
    else if code % 2 = 0 then s.pairUnsafe (pairOf n)
    else s
  else if code < 0x64 then s.valveUnsafe (Fin.ofNat 12 (code - 0x58))
  else if 0x80 ≤ code && code < 0x98 then s.sinkFollow (Fin.ofNat 24 (code - 0x80))
  else if 0x9A ≤ code && code < 0xAA then s.ioFollow (Fin.ofNat 16 (code - 0x9A))
  else s

/-- Places a fault event entry, before the wrap marker if its stamp is of before the wrap (R40); one that is lost raises kind 0, but for that
kind's own (R500, R506). -/
def State.faultEntry (s : State) (w0 w1 : Word) (src : Nat) : State :=
  let full := s.flt.q.full 256
  let put (q : EvQ) : EvQ := if s.stamp < w1 then q.pushBefore 256 [w0, w1] else q.push 256 [w0, w1]
  (s.onFlt fun f => { f with q := put f.q }).raiseIf (full && src != 0xA0) 0x05 0

/-- SREL = 1 (R492): every safe state ends, and an entry of TYPE 0x3 is placed. -/
def State.safeRelease (s : State) : State :=
  let codes := (List.range 0xAB).filter fun c => s.flt.safe.getLsbD c
  let s1 := (s.onFlt fun f => { f with safe := 0 }).faultEntry (wd (3 * 2 ^ 32)) s.stamp 0
  codes.foldl State.leaveSafe s1

/-! The freeze (R502, R503) -/

/-- LATCH (obj 0x1300.08). -/
def State.latchWord (s : State) : Word :=
  let f := s.flt
  wd (b1 f.valid * 2 ^ 35 + b1 f.ovf * 2 ^ 34 + f.sev.toNat * 2 ^ 31 + f.src.toNat)

/-- Words 0x00 to 0x04 of a pair's window (R322). -/
def Core.stat (c : Core) : Word :=
  let run := match c.run with | .reset => 0 | .running => 1 | .waiting => 2 | .halted => 3
  wd (run * 4 + b1 c.lockup * 2)
def Core.rsp (c : Core) : Word := wd (c.rs.length * 2 ^ 24 + c.ssp.toNat)
def Core.windowWord (c : Core) (off : Nat) : Word :=
  match off with
  | 0 => c.stat
  | 1 => wd c.pcs.toNat
  | 2 => wd c.psw.toNat
  | 3 => c.lkcnt
  | 4 => c.rsp
  | _ => 0

/-- Domain words of the freeze image, offset 0x0A1. -/
def State.domWord (s : State) : Word :=
  wd ((allFin 7).foldl (fun a d =>
    let x := bget s.dom d
    let good := (s.rst.good &&& clocksOf d) = clocksOf d
    a + (b1 x.powered * 8 + b1 (s.inReset d) * 4 + b1 good * 2 + b1 (!s.up d)) * 2 ^ (4 * d.val)) 0)

/-- SSTAT of obj 0x2800. -/
def State.supStat (s : State) : Word :=
  let u := s.sup
  wd (b1 u.crank * 2 ^ 11 + b1 u.ov * 2 ^ 10 + b1 u.gloss * 2 ^ 9 + b1 (s.cfg 0x1010 1 = 24) * 2 ^ 8 + (u.shed &&& 0xFE).toNat)

/-- Words held in a sub-queue of the crossbar. -/
def Fabric.occ (f : Fabric) (e i : Fin 10) (c : Fin 4) : Nat :=
  ((f.subq.filter fun x => x.egress == e && x.tx.ini == i && x.tx.cls == c).map fun x => txWords x.tx).sum

/-- A tag as the image shows it: port 0xF where the address names none. -/
def State.tagWord (s : State) (t : Fin 64) : Word :=
  let g := bget s.fab.tags t
  match g.tx with
  | none => wd (g.gen.toNat * 2 ^ 33)
  | some x =>
    let p := ((s.txTarget x).map (·.1.val)).getD 15
    wd (2 ^ 35 + g.gen.toNat * 2 ^ 33 + x.ini.val * 2 ^ 29 + p * 2 ^ 25 + b1 x.write * 2 ^ 24 + x.addr.toNat)

/-- The 512 words of the freeze image as they stand (R503). -/
def State.freezeImage (s : State) (src sev : Nat) : List Word :=
  let f := s.flt
  let word (o : Nat) : Word :=
    if o = 0 then s.latchWord
    else if o = 1 then f.lstamp
    else if o = 2 then wd (sev * 2 ^ 12 + src)
    else if o < 0x10 then 0
    else if o < 0x90 then wd (bget f.sticky (Fin.ofNat 128 (o - 0x10))).toNat
    else if o ≤ 0x94 then (bget s.cores 0).windowWord (o - 0x90)
    else if o < 0x98 then 0
    else if o ≤ 0x9C then (bget s.cores 1).windowWord (o - 0x98)
    else if o = 0xA0 then wd s.pwrState
    else if o = 0xA1 then s.domWord
    else if o = 0xA2 then s.supStat
    else if o = 0xA3 then wd s.sup.vbat
    else if o = 0xA4 then BitVec.ofInt 36 s.sup.tcase
    else if o ≥ 0xA5 && o ≤ 0xAB then (bget s.rst.causes (Fin.ofNat 7 (o - 0xA5))).word
    else if o = 0xAC then s.rst.causex.wordX
    else if 0x140 ≤ o && o < 0x180 then s.tagWord (Fin.ofNat 64 (o - 0x140))
    else if 0x130 ≤ o && o ≤ 0x139 then wd (bget s.fab.credits (clusterHop (Fin.ofNat 10 (o - 0x130))))
    else 0
  let occs := packNibbles (fun j => s.fab.occ (Fin.ofNat 10 (j / 40)) (Fin.ofNat 10 (j / 4 % 10)) (Fin.ofNat 4 j)) 45
  ((List.range 0x100).map word) ++ occs.take 0x2D ++ ((List.range 0xD3).map fun i => word (0x12D + i))

/-- A freeze starts, or is not taken because the buffer is valid: FRZLOST and kind 4.  Words held in SUP and AON are copied at once; it completes
40 µs after detection (R502, R507). -/
def State.freeze (s : State) (src sev : Nat) (stamp : Word) (rst : Bool) : State :=
  if s.flt.frzValid || s.flt.freezing.isSome then
    (s.onFlt fun f => { f with frzLost := satInc f.frzLost }).raise 0x05 4
  else s.onFlt fun f => { f with
    freezing := some { src := BitVec.ofNat 12 src, sev := BitVec.ofNat 3 sev, stamp := stamp, ends := s.now + usT 40, reset := rst }
    image := s.freezeImage src sev }

/-- The reset of an S4 reaction (R493): a pair's own lock-up reset, which kinds 0 and 1 have brought about themselves (R295, R320), or the collector's source with the domains of S4REACH; items of the
domains it holds miss, but for those the safe states have reached. -/
def State.s4Reset (s : State) (src : Nat) : State :=
  let b := src / 32
  if b = 0x0B || b = 0x0C then
    let s1 := s.missItems (s.itemsIn (· = b)) 4 b
    if src % 32 ≤ 1 then s1 else s1.lockUp (Fin.ofNat 2 (b - 0x0B)) (src % 32)
  else
    let reach := BitVec.ofNat 7 (s.cfg faultIdx 6)
    let safe (x : Nat) : Bool := (List.range 0xAB).any fun c => s.inReach b c && loadBlock c = x
    let held (x : Nat) : Bool := (blockDom x).any fun d => reach.getLsbD d.val
    let old := s.itemsIn safe
    let new := s.itemsIn held
    let s1 := s.missItems { flow := fun n => new.flow n && !old.flow n, loop := fun m => new.loop m && !old.loop m
                            seq := fun n => new.seq n && !old.seq n, rule := fun n => new.rule n && !old.rule n } 4 b
    (s1.assertSrc 7 reach (BitVec.ofNat 12 src)).raise 0x01 7

/-! Delivery (R486, R494 to R500) -/

/-- The report of a lock-up itself, which opened a shadow and is not its consequence (R497). -/
def lockReport (src : Nat) (ref : BitVec 12) : Bool := src = ref.toNat && (src / 32 = 0x0B || src / 32 = 0x0C) && src % 32 ≤ 1

/-- The reference under which a report is consequential (R498): the shadow that opened first, over its block or over the block whose
wrapper it arises from. -/
def State.shadowRef (s : State) (r : Report) : Option (BitVec 12) :=
  (s.flt.shadows.find? fun x => (x.blk = r.src / 32 || r.wrapped = some x.blk) && !lockReport r.src x.ref).map (·.ref)

/-- ERRN goes low, and its pulse starts or starts again (R499). -/
def State.errnLow (s : State) : State :=
  s.onFlt fun f => { f with errnLvl := false, held := false, pulse := some (s.now + msT 1) }

/-- The reports of a batch that qualify for the latch, with the one that takes it (R496): highest severity, then lowest source. -/
def latchPick (l : List (Report × Nat)) : Option (Report × Nat) :=
  l.foldl (fun best x => match best with
    | none => some x
    | some y => if y.2 < x.2 || (y.2 = x.2 && x.1.src < y.1.src) then some x else best) none

/-- A report inside a shadow: its sticky bit and an entry of TYPE 0x2. -/
def State.takeConseq (s : State) (r : Report) (ref : BitVec 12) : State :=
  let w0 := wd (2 * 2 ^ 32 + s.sevOf r.src * 2 ^ 29 + r.src * 2 ^ 12 + ref.toNat)
  (s.onFlt fun f => { f with conseq := satInc f.conseq }).faultEntry w0 r.stamp r.src

/-- A report outside every shadow (R487, R490, R493, R499, R502): entry, DEGRADED, ERRN, and the reaction of its severity. -/
def State.takeReport (s : State) (r : Report) (first : Bool) : State :=
  let sev := s.sevOf r.src
  let b := r.src / 32
  let s1 := s.faultEntry (wd (2 ^ 32 + sev * 2 ^ 29 + b1 first * 2 ^ 28 + r.src * 2 ^ 12)) r.stamp r.src
  let s2 := if 2 ≤ sev then s1.onFlt fun f => { f with degraded := f.degraded ||| 1#128 <<< b } else s1
  let s3 := if s2.cfg faultIdx 3 ≤ sev then s2.errnLow else s2
  if sev < 3 then s3
  else
    let s4 := (s3.onFlt fun f => { f with safes := satInc f.safes, resets := if sev = 4 then satInc f.resets else f.resets }).safeReach b
    if sev = 3 then (if s4.cfgB faultIdx 7 then s4.freeze r.src 3 r.stamp false else s4)
    else
      let s5 := s4.duoAlarm
      let busy := s5.flt.frzValid || s5.flt.freezing.isSome
      let s6 := s5.freeze r.src 4 r.stamp true
      if busy then s6.s4Reset r.src else s6

/-- Reports that arrive in one CLK_PWR cycle (R494 to R496): sticky bits, the latch, then each report's own effect. -/
def State.collect (s : State) (batch : List Report) : State :=
  let stick (st : State) (r : Report) : State :=
    st.onFlt fun f => { f with faults := satInc f.faults, sticky := bmod f.sticky (Fin.ofNat 128 (r.src / 32)) fun w => w ||| 1#32 <<< (r.src % 32) }
  let s1 := batch.foldl stick s
  let qual := (batch.filter fun r => (s.shadowRef r).isNone && s.cfg faultIdx 2 ≤ s.sevOf r.src).map fun r => (r, s.sevOf r.src)
  let pick := if s1.flt.valid then none else latchPick qual
  let s2 := match pick with
    | some (r, v) => s1.onFlt fun f => { f with valid := true, sev := BitVec.ofNat 3 v, src := BitVec.ofNat 12 r.src, lstamp := r.stamp }
    | none => s1
  let others := if pick.isSome then 1 < qual.length else !qual.isEmpty
  let s3 := if others then s2.onFlt fun f => { f with ovf := true } else s2
  batch.foldl (fun st r => match s.shadowRef r with
    | some ref => st.takeConseq r ref
    | none => st.takeReport r (pick.any fun p => p.1 == r)) s3

/-- The first report of each block among the n oldest, and what stays on its way (R486). -/
def splitBatch : Nat → List Nat → List Report → List Report × List Report
  | _, _, [] => ([], [])
  | 0, _, l => ([], l)
  | n + 1, seen, r :: rest =>
    let b := r.src / 32
    if seen.contains b then
      let p := splitBatch n seen rest
      (p.1, r :: p.2)
    else
      let p := splitBatch n (b :: seen) rest
      (r :: p.1, p.2)

/-- Entries of SEVMAP fail their parity check: each reads as S3 until the map is committed anew, and raises kind 1 (R488). -/
def State.sevParity (s : State) (bad : List (BitVec 12)) : State :=
  (bad.eraseDups.filter fun x => !s.flt.sevBad.contains x).foldl (fun st x =>
    (st.onFlt fun f => { f with sevBad := x :: f.sevBad }).raise 0x05 1) s

/-- SEVMAP is written anew by a commit of its bundle (R487, R488). -/
def State.sevRenew (s : State) : State := s.onFlt fun f => { f with sevBad := [] }

/-- FAULT_REPORT (R486): of the n oldest reports on their way one of each block arrives, and with them conditions that no other command
shows, by source, each detected now; `bad` are the sources whose SEVMAP entries fail their parity check (R488). -/
def execFaultReport (n : Nat) (fresh : List (BitVec 12)) (s0 : State) (bad : List (BitVec 12) := []) : Host.Outcome State Fault Refusal :=
  .next (if !s0.up 1 then s0
  else
    let s := s0.sevParity bad
    let p := splitBatch n [] s.flt.inflight
    let new := ((fresh.filter fun x => canRaise x.toNat).map fun x => ({ src := x.toNat, stamp := s.stamp, wrapped := none } : Report))
    (s.onFlt fun f => { f with inflight := p.2 }).collect (p.1 ++ new))

/-- A word of the image that is copied over the management tree: a pair's window or a fabric word (R502). -/
def treeWord (o : Nat) : Bool := (0x90 ≤ o && o < 0xA0) || (0x100 ≤ o && o < 0x180)

/-- FREEZE_COMPLETE (R493, R502): the image is valid, and the reset of an S4 source follows. -/
def execFreezeComplete (s : State) : Host.Outcome State Fault Refusal :=
  .next (match s.flt.freezing with
  | none => s
  | some z =>
    let s0 := s.at z.ends
    let late := s0.freezeImage z.src.toNat z.sev.toNat
    let image := (List.range 512).map fun o => (if treeWord o then late else s0.flt.image).getD o 0
    let s1 := s0.onFlt fun f => { f with
      freezing := none, frzValid := true, frzSev := z.sev, frzSrc := z.src, frzStamp := z.stamp, image := image }
    if z.reset then s1.s4Reset z.src.toNat else s1)

/-- ERRN_PULSE_END (R499): the pin follows ERRNLVL, with a held write. -/
def execErrnPulseEnd (s : State) : Host.Outcome State Fault Refusal :=
  .next (match s.flt.pulse with
  | some t => (s.at t).onFlt fun f => { f with pulse := none, errnLvl := f.held }
  | none => s)

/-- ERRN_MISMATCH (R499). -/
def execErrnMismatch (s : State) : Host.Outcome State Fault Refusal := .next (if s.up 1 then s.raise 0x05 2 else s)

/-- A write of ERRNLVL: held during a pulse (R499). -/
def State.setErrn (s : State) (v : Bool) : State :=
  s.onFlt fun f => if f.pulse.isSome then { f with held := v } else { f with errnLvl := v }

/-- ERRNLVL_WRITE. -/
def execErrnlvlWrite (r : Requester) (v : Bool) (s : State) : Host.Outcome State Fault Refusal :=
  .next (s.objCmd r faultIdx 0x0D [wd (b1 v)] fun t => (okc, t.setErrn v))

/-- What reads as ERRNLVL. -/
def FaultState.errnRead (f : FaultState) : Bool := if f.pulse.isSome then f.held else f.errnLvl

/-- FCLR = 1 (R495). -/
def State.latchClear (s : State) : State := s.onFlt fun f => { f with valid := false, ovf := false }

/-- FCLR. -/
def execFclr (r : Requester) (s : State) : Host.Outcome State Fault Refusal :=
  .next (s.objCmd r faultIdx 0x0A [1] fun t => (okc, t.latchClear))

/-- STCLR (R494): one source's sticky bit, or with 0xFFFF all. -/
def State.stickyClear (s : State) (v : Nat) : State :=
  s.onFlt fun f =>
    if v = 0xFFFF then { f with sticky := Vector.replicate 128 0 }
    else { f with sticky := bmod f.sticky (Fin.ofNat 128 (v / 32)) fun w => w &&& ~~~(1#32 <<< (v % 32)) }

/-- STCLR. -/
def execStclr (r : Requester) (v : BitVec 16) (s : State) : Host.Outcome State Fault Refusal :=
  .next (s.objCmd r faultIdx 0x0C [wd v.toNat] fun t => (okc, t.stickyClear v.toNat))

/-- SREL. -/
def execSrel (r : Requester) (s : State) : Host.Outcome State Fault Refusal :=
  .next (s.objCmd r faultIdx 0x0F [1] fun t => (okc, t.safeRelease))

/-- DGCLR: one block's DEGRADED bit, or with 0xFF all. -/
def State.degradeClear (s : State) (v : Nat) : State :=
  s.onFlt fun f => { f with degraded := if v = 0xFF then 0 else f.degraded &&& ~~~(1#128 <<< v) }

/-- DGCLR. -/
def execDgclr (r : Requester) (v : Byte) (s : State) : Host.Outcome State Fault Refusal :=
  .next (s.objCmd r faultIdx 0x12 [wd v.toNat] fun t => (okc, t.degradeClear v.toNat))

/-- SHADOW_END (R497): the shadow whose block has been released for 20 µs closes. -/
def execShadowEnd (blk : BitVec 7) (s : State) : Host.Outcome State Fault Refusal :=
  .next (match s.flt.shadows.find? fun x => x.blk = blk.toNat && x.ends.isSome with
  | some x => (s.at (x.ends.getD 0)).onFlt fun f => { f with shadows := f.shadows.erase x }
  | none => s)

/-- The shadows over blocks that are released now end 20 µs later (R497). -/
def State.endShadows (s : State) (blks : Nat → Bool) : State :=
  s.onFlt fun f => { f with
    shadows := f.shadows.map fun x => if blks x.blk && x.ends.isNone then { x with ends := some (s.now + usT 20) } else x }

/-- FSTAT (obj 0x1300.10). -/
def State.fstat (s : State) : Word :=
  let f := s.flt
  wd (b1 (f.pulse.isNone && f.errnLvl) * 128 + b1 f.pulse.isSome * 64 + b1 (f.safe != 0) * 32 + b1 (!f.shadows.isEmpty) * 16 + b1 f.frzValid * 8)

/-- FRZ (obj 0x6000.05). -/
def FaultState.frzWord (f : FaultState) : Word :=
  if f.frzValid then wd (2 ^ 35 + f.frzSev.toNat * 2 ^ 32 + f.frzSrc.toNat) else 0

/-- Lines 0 to 3 of block 0x05 (R501). -/
def State.faultLine (s : State) (l : Nat) : Bool :=
  match l with
  | 0 => !s.flt.q.items.isEmpty
  | 1 => s.flt.valid
  | 2 => s.flt.safe != 0
  | 3 => s.flt.frzValid
  | _ => false

/-- The check of bundle 0x1300: S4REACH within R493; what its other members exclude is refused at their writes (R59, R487 to R490). -/
def faultCheck (v : ObjView) : Bool := v.num faultIdx 6 &&& 0x83 = 0

end Sys2Proof.Machine
end

