-- ==== Sys2Proof/Machine/Flows.lean ====
section
/-!
DEFINITION. Flow contracts: what a check of a contract charges and computes, and its admission, change and withdrawal (R85 to R94,
R104, R597).
-/
namespace Sys2Proof.Machine

/-- The parameters of a contract (obj 0x1100 + n). -/
structure FlowP where
  src   : Nat
  sink  : Nat
  cls   : Nat
  rate  : Nat
  burst : Nat
  bound : Nat
  txn   : Nat

def flowP (v : ObjView) (n : Fin 256) : FlowP :=
  let g := v.num (ctIdx n)
  { src := g 1, sink := g 2, cls := g 3, rate := g 4, burst := g 5, bound := g 6, txn := g 7 }

/-- The flow reads memory (R93). -/
def FlowP.reads (p : FlowP) : Bool := epBlock p.src = 0x08

/-- The tags that it is granted (R93). -/
def FlowP.tags (p : FlowP) : Nat := if p.reads then ceilDiv p.burst p.txn else 0

/-- What a check sees (R86, R87): the values under it, and for each contract the admissions that may be in force from now on: the one in
force and one claimed by a pending commit; for a contract that the request names, the requested one alone (R89). -/
structure FlowEnv where
  v     : ObjView
  items : Fin 256 → List FlowP
  loops : Fin 360 → List ObjView   -- the settings under which a loop's data paths count (R94)

/-- The bundles that pending commits name. -/
def State.claimed (s : State) : List Nat := ((s.srv.commits.filter (·.checked)).flatMap (·.indices))

/-- The environment of a check of a request that names some bundles. -/
def State.flowEnv (s : State) (named : List Nat) : FlowEnv :=
  let v := s.view (named ++ s.claimed)
  let on (n : Fin 256) : List FlowP := if v.num (ctIdx n) 8 = 1 then [flowP v n] else []
  let runs (m : Fin 360) : List ObjView := if v.num (loopIdx m) 2 = 1 then [v] else []
  { v := v
    loops := fun m =>
      if named.contains (loopIdx m) then runs m
      else (if (s.loop m).place.isSome then [s.obj] else []) ++ if s.claimed.contains (loopIdx m) then runs m else []
    items := fun n =>
      if named.contains (ctIdx n) then on n
      else (if (s.ct n).inForce then [flowP s.obj n] else []) ++ if s.claimed.contains (ctIdx n) then on n else [] }

/-- The admissions in force. -/
def State.flowsNow (s : State) : FlowEnv :=
  { v := s.obj, items := fun n => if (s.ct n).inForce then [flowP s.obj n] else []
    loops := fun m => if (s.loop m).place.isSome then [s.obj] else [] }

def FlowEnv.live (e : FlowEnv) (n : Fin 256) : Bool := !(e.items n).isEmpty

/-- The largest value of a measure over a contract's admissions. -/
def most {α : Type} (l : List α) (f : α → Nat) : Nat := l.foldl (fun a p => Nat.max a (f p)) 0

/-! Lanes (R92, R94) -/

/-- A path through the crossbar: its class, rate and burst, and the lanes it uses. -/
structure Path where
  cls   : Nat
  rate  : Nat
  burst : Nat
  inP   : Option (Fin 10)
  outP  : Option (Fin 10)

def FlowP.path (p : FlowP) : Path :=
  { cls := p.cls, rate := p.rate, burst := p.burst, inP := blockPort (epBlock p.src), outP := blockPort (epBlock p.sink) }

/-- The path uses the lane of a port: its ingress, or its egress. -/
def Path.uses (p : Path) (out : Bool) (port : Fin 10) : Bool := if out then p.outP == some port else p.inP == some port

/-- A path that admission shapes besides the contracts, charged as a P1 flow (R94): RATE and BURST are Config's (log 7). -/
def servicePath (m k : Nat) (i o : Option (Fin 10)) : Path :=
  { cls := 1, rate := (Config.pathLoad m k).1, burst := (Config.pathLoad m k).2, inP := i, outP := o }

/-- The block from which a loop's source is read (R260): an object's owner, or a flow queue's block. -/
def sourceBlock (w : Nat) : Option Nat :=
  match w / 2 ^ 32 with
  | 1 => (famOf (w / 65536 % 65536)).map fun f => famBlock f.1 f.2
  | 2 => some (epBlock (w / 65536 % 65536))
  | _ => none

/-- The data paths of loop m under its settings (R94): its output, and each of its inputs. -/
def loopPaths (v : ObjView) (m : Fin 360) : List Path :=
  let x := v.num (loopIdx m)
  let outs := match loopSinkOf (x 0x18) with | some b => [servicePath m.val 0 (some 2) (blockPort b)] | none => []
  outs ++ ((allFin 4).filterMap fun j => (sourceBlock (x (([0x07, 0x0A, 0x0F, 0x12] : List Nat).getD j.val 0))).map fun b =>
    servicePath m.val (1 + j.val) (blockPort b) (some 2))

/-- The paths of the duo's STATE items, to and from the ring (R94, R413, R541). -/
def duoPaths (v : ObjView) : List Path :=
  if v.num 0x1600 1 = 0 then [] else [servicePath 360 0 (blockPort 0x00) (blockPort 0x5D), servicePath 360 1 (blockPort 0x5D) (blockPort 0x00)]

/-- The largest value of a measure over the alternatives of an item, each a list of paths: the sum over the paths that count. -/
def pathUse (c : Path → Bool) (f : Path → Nat) (alts : List (List Path)) : Nat := most alts fun l => ((l.filter c).map f).sum

/-- Everything that uses lanes but contract `skip`: of each item its alternatives, of each alternative its paths. -/
def FlowEnv.lanePaths (e : FlowEnv) (skip : Option (Fin 256)) : List (List (List Path)) :=
  ((allFin 256).filter fun n => some n != skip).map (fun n => (e.items n).map fun p => [p.path]) ++
    (allFin 360).map (fun m => (e.loops m).map fun v => loopPaths v m) ++ [[duoPaths e.v]]

/-- Σ of a measure over the paths that satisfy a condition. -/
def sumPaths (l : List (List (List Path))) (c : Path → Bool) (f : Path → Nat) : Nat := (l.map (pathUse c f)).sum

/-- The cycles that a path waits at a lane, Q of R92; a lane without room offers no bound. -/
def laneWait (l : List (List (List Path))) (p : Path) (out : Bool) (port : Fin 10) : Nat :=
  let hi (q : Path) : Bool := q.uses out port && q.cls < p.cls
  let b := sumPaths l hi (·.burst) + sumPaths l (fun q => q.uses out port && q.cls = p.cls) (·.burst) + p.burst
  let r := sumPaths l hi (·.rate)
  if r < 200000000 then 8 + ceilDiv (b * 200000000) (200000000 - r) else 2 ^ 36

/-! Endpoints (R90, R93, R385, R405) -/

/-- BUFCFG of a CAN buffer under a view. -/
def canCfg (v : ObjView) (ch b : Nat) : Word := (v (0x3000 + ch) 6).getD b 0

/-- An endpoint code names a queue that is a source, or a sink, of contract n. -/
def endpointOk (v : ObjView) (n : Fin 256) (code : Nat) (sink : Bool) : Bool :=
  let b := epBlock code
  let q := epQueue code
  if 0x8000 ≤ code then false
  else if b = 0x0B || b = 0x0C then q = 0 && !sink
  else if b = 0x08 then q = 0
  else if (0x30 ≤ b && b ≤ 0x3B) || b = 0x40 || b = 0x41 then q = 0 && sink
  else if b = 0x3D then q = 0 && !sink
  else if b = 0x3F then q < 16 && !sink
  else if 0x48 ≤ b && b ≤ 0x4F then
    let w := canCfg v (b - 0x48) q
    q ≤ 0x41 && w.getLsbD 35 && w.getLsbD 34 == sink && (!sink || fld w 30 26 = 16)
  else if 0x50 ≤ b && b ≤ 0x57 then
    let w := (v (0x3100 + (b - 0x50)) 4).getD q 0
    q ≤ 0x3F && w.getLsbD 35 && w.getLsbD 34 == sink
  else if b = 0x58 then ethEndpointOk v n code sink
  else if b = 0x5D then ringEndpointOk v code sink
  else false

/-- The block named by reason 0x0D, where a parameter or an endpoint is invalid. -/
def paramBad (v : ObjView) (n : Fin 256) (p : FlowP) : Option Nat :=
  if !endpointOk v n p.src false then some (epBlock p.src)
  else if !endpointOk v n p.sink true then some (epBlock p.sink)
  else if p.rate = 0 || p.bound = 0 then some 0x06
  else if p.reads && !((blockPort (epBlock p.sink)).any fun q => (reserveOf q).isSome) then some (epBlock p.sink)
  else none

/-- The stage bound of an endpoint in ns (R91), without the medium bound. -/
def stageNs (v : ObjView) (n : Fin 256) (code : Nat) (sink : Bool) : Nat :=
  let b := epBlock code
  if b = 0x08 then 20
  else if b = 0x0B || b = 0x0C then 0
  else if sink then (if b ≤ 0x3B || b = 0x40 then 4000 else 2000)
  else if b = 0x3D then 1000
  else if b = 0x3F then 500
  else if b ≤ 0x4F then 2000
  else if b ≤ 0x57 then 5000
  else if b = 0x58 then 2000 + 5 * (((streamOf v n).map fun x => ceilDiv x.flen 4).getD 0)
  else 1000

/-! The CAN medium (R384); times in units of 25 ns -/

/-- Bit times of the nominal and the data phase. -/
def canBits (v : ObjView) (ch : Nat) : Nat × Nat :=
  let w := (v (0x3000 + ch) 4).headD 0
  let d := (v (0x3000 + ch) 5).headD 0
  ((fld w 35 26 + 1) * (3 + fld w 25 18 + fld w 17 11), (fld d 35 31 + 1) * (3 + fld d 30 26 + fld d 25 22))

/-- C of a frame of n octets. -/
def canTime (t : Nat × Nat) (ide fdf brs : Bool) (n : Nat) : Nat :=
  if fdf then
    let d := if n ≤ 16 then 34 + 10 * n else 39 + 10 * n
    (if ide then 56 else 33) * t.1 + d * (if brs then t.2 else t.1)
  else ((if ide then 80 else 55) + 10 * n) * t.1

/-- C of the frame that a transmit buffer holds. -/
def State.bufTime (s : State) (v : ObjView) (ch : Fin 8) (b : Fin 66) : Nat :=
  let f := s.canFrameOf ch b
  canTime (canBits v ch.val) f.ide f.fdf f.brs (frameCount f)

/-- Words that a frame of a flow takes at a transmit buffer, WPF. -/
def State.wpf (s : State) (v : ObjView) (ch : Fin 8) (b : Fin 66) : Nat :=
  let n := frameCount (s.canFrameOf ch b)
  match fld (canCfg v ch.val b.val) 33 32 with
  | 0 => 3 + ceilDiv n 4
  | 1 => ceilDiv n 4
  | _ => ceilDiv (8 * n) 36

/-- A term of the bus: the flow it comes from, its arbitration field, C, T as a fraction, and the frames that a burst adds. -/
structure BusTerm where
  flow  : Option (Fin 256)
  id    : Nat
  c     : Nat
  t     : Frac
  extra : Nat

/-- The foreign load that FLOAD declares. -/
def foreign (v : ObjView) (ch : Fin 8) : List BusTerm :=
  let ws := v (canIdx ch) 0x0A
  (List.range 32).filterMap fun i =>
    let w0 := ws.getD (2 * i) 0
    let w1 := ws.getD (2 * i + 1) 0
    if w0.getLsbD 35 then
      let fdf := w0.getLsbD 31
      some { flow := none, id := fld w0 28 0, c := canTime (canBits v ch.val) (w0.getLsbD 32) fdf (w0.getLsbD 30) (dlcOctets fdf (fld w1 35 32))
             t := (fld w1 23 0 * 40, 1), extra := 0 }
    else none

/-- The transmit buffer of a channel that is the sink of a flow. -/
def canSinkOf (p : FlowP) (ch : Fin 8) : Option (Fin 66) :=
  if epBlock p.sink = canBlk ch then (if h : epQueue p.sink < 66 then some ⟨epQueue p.sink, h⟩ else none) else none

/-- The term of an own admitted flow. -/
def State.ownTerm (s : State) (v : ObjView) (ch : Fin 8) (n : Fin 256) (p : FlowP) : Option BusTerm :=
  (canSinkOf p ch).map fun b =>
    let w := s.wpf v ch b
    { flow := some n, id := (s.canFrameOf ch b).id.toNat, c := s.bufTime v ch b, t := (w * 40000000, Nat.max 1 p.rate)
      extra := ceilDiv p.burst w - 1 }

/-- Everything that is offered to a channel's bus. -/
def State.busTerms (s : State) (e : FlowEnv) (ch : Fin 8) : List BusTerm :=
  (allFin 256).flatMap (fun n => (e.items n).filterMap (s.ownTerm e.v ch n)) ++ foreign e.v ch

/-- The frames that flows from a channel's receive buffers bring (R98), at the size of the frame that the buffer holds; an identifier that
FLOAD declares is charged there (log 34). -/
def State.recvTerms (s : State) (e : FlowEnv) (ch : Fin 8) : List BusTerm :=
  let known := (foreign e.v ch).map (·.id)
  (allFin 256).flatMap fun n => (e.items n).filterMap fun p =>
    if h : epBlock p.src = canBlk ch ∧ epQueue p.src < 66 then
      let b : Fin 66 := ⟨epQueue p.src, h.2⟩
      let id := (s.canFrameOf ch b).id.toNat
      if known.contains id then none
      else some { flow := some n, id := id, c := s.bufTime e.v ch b, t := (s.wpf e.v ch b * 40000000, Nat.max 1 p.rate), extra := 0 }
    else none

/-- Σ C ÷ T exceeds 85 %; a frame without an interval fills the bus. -/
def busFull (l : List BusTerm) : Bool :=
  l.any (·.t.1 = 0) || !(Frac.le (Frac.sum (l.map fun x => (x.c * x.t.2, x.t.1))) (85, 100))

/-- w of R384, none when it exceeds 1 s. -/
def busWait (hp : List BusTerm) (b tbit : Nat) : Nat → Nat → Option Nat
  | 0, _ => none
  | k + 1, w =>
    let w1 := b + (hp.map fun x => (Frac.ceil ((w + tbit) * x.t.2, x.t.1) + x.extra) * x.c).sum
    if 40000000 < w1 then none else if w1 = w then some w else busWait hp b tbit k w1

/-- The medium bound of a CAN transmit sink; none refuses the contract with reason 0x05. -/
def State.canMedium (s : State) (e : FlowEnv) (n : Fin 256) (p : FlowP) (ch : Fin 8) (b : Fin 66) : Option Nat :=
  let l := s.busTerms e ch
  let id := (s.canFrameOf ch b).id.toNat
  let own := ((allFin 66).filter fun k => (canCfg e.v ch.val k.val).getLsbD 35).map (s.bufTime e.v ch)
  let blk := most (own ++ (foreign e.v ch).map (·.c)) id_
  if busFull (l ++ s.recvTerms e ch) then none
  else (busWait (l.filter fun x => x.id ≤ id && x.flow != some n) blk (canBits e.v ch.val).1 40000001 blk).map fun w =>
    w + ((s.ownTerm e.v ch n p).map (·.c)).getD 0
where id_ (x : Nat) : Nat := x

/-! The LIN medium (R395) -/

/-- The slots of the running table: identifier and length in 100 µs, in order. -/
def linSlots (v : ObjView) (ch : Fin 8) : List (Nat × Nat) :=
  ((v (linIdx ch) 3).filter fun w => w.getLsbD 35 && fld w 32 31 = v.num (linIdx ch) 5).map fun w => (fld w 30 25, fld w 24 13)

/-- The longest interval from one slot of an identifier to the next, with that slot's length, in 100 µs; none when it has no slot. -/
def linGap (slots : List (Nat × Nat)) (fid : Nat) : Option Nat :=
  let l := slots ++ slots
  let step (a : Option Nat × Nat) (x : Nat × Nat) : Option Nat × Nat :=
    match a with
    | (none, best) => (if x.1 = fid then some x.2 else none, best)
    | (some d, best) => if x.1 = fid then (some x.2, Nat.max best (d + x.2)) else (some (d + x.2), best)
  if slots.any (·.1 = fid) then some (l.foldl step (none, 0)).2 else none

/-- The identifiers of a channel that flows use. -/
def linFids (e : FlowEnv) (ch : Fin 8) : List Nat :=
  ((allFin 256).flatMap fun n => (e.items n).flatMap fun p => [p.src, p.sink].filter (epBlock · = linBlk ch)).map epQueue

/-- The flows of a channel use more than 85 % of its bit rate. -/
def linFull (e : FlowEnv) (ch : Fin 8) : Bool :=
  let slots := linSlots e.v ch
  let total := (slots.map (·.2)).sum
  let bits := ((linFids e ch).map fun f =>
    (34 + 10 * (fld ((e.v (linIdx ch) 4).getD f 0) 32 29 + 1)) * (slots.filter (·.1 = f)).length).sum
  85 * e.v.num (linIdx ch) 2 * total < bits * 1000000

/-! The medium of a flow -/

/-- The block of a flow's source, where the flow would fill that medium beyond 85 % (R85, R98). -/
def State.sourceFull (s : State) (e : FlowEnv) (n : Fin 256) (p : FlowP) : Option Nat :=
  let b := epBlock p.src
  if 0x48 ≤ b && b ≤ 0x4F then
    let ch := Fin.ofNat 8 (b - 0x48)
    if busFull (s.busTerms e ch ++ s.recvTerms e ch) then some b else none
  else if 0x50 ≤ b && b ≤ 0x57 then (if linFull e (Fin.ofNat 8 (b - 0x50)) then some b else none)
  else if b = 0x58 then (s.ethFull e.v e.live n).map portBlk
  else if b = 0x5D then (if ringFits e.v e.live then none else some b)
  else none

/-- The medium bound of a flow in ns (R91, R384, R395, R407, R417), or the block that refuses it with reason 0x05; none where a LIN identifier
has no slot. -/
def State.medium (s : State) (e : FlowEnv) (n : Fin 256) (p : FlowP) : Option Frac ⊕ Nat :=
  let b := epBlock p.sink
  match s.sourceFull e n p with
  | some q => .inr q
  | none =>
    if h : 0x48 ≤ b ∧ b ≤ 0x4F then
      match canSinkOf p ⟨b - 0x48, by omega⟩ with
      | some k => match s.canMedium e n p ⟨b - 0x48, by omega⟩ k with
        | some w => .inl (some (25 * w, 1))
        | none => .inr b
      | none => .inr b
    else if 0x50 ≤ b ∧ b ≤ 0x57 then
      if linFull e (Fin.ofNat 8 (b - 0x50)) then .inr b
      else .inl ((linGap (linSlots e.v (Fin.ofNat 8 (b - 0x50))) (epQueue p.sink)).map fun g => (100000 * g, 1))
    else if b = 0x58 then
      match s.ethFull e.v e.live n with
      | some q => .inr (portBlk q)
      | none => .inl (some (s.ethBound e.v e.live n))
    else if b = 0x5D then
      if ringFits e.v e.live then .inl (some (s.ringBound e.v n, 1)) else .inr b
    else .inl (some (0, 1))

/-! CBOUND (R92) -/

/-- CBOUND, and the block and port of its largest term; none where the medium offers no bound. -/
structure BoundOf where
  ticks : Nat
  blk   : Nat
  port  : Nat

def FlowEnv.cbound (e : FlowEnv) (n : Fin 256) (p : FlowP) (m : Option Frac) : BoundOf :=
  let q := p.path
  let l := e.lanePaths (some n)
  let hops := b1 (q.inP.any hasCluster) + b1 (q.outP.any hasCluster)
  let wait (out : Bool) (port : Option (Fin 10)) : Nat := match port with | some x => laneWait l q out x | none => 0
  let qi := wait false q.inP
  let qo := wait true q.outP
  let src := stageNs e.v n p.src false
  let sink := stageNs e.v n p.sink true
  let mf := m.getD (0, 1)
  let ns := Frac.add mf (src + sink + 5 * (2 * hops + 3 + qi + qo), 1)
  let terms : List (Frac × Nat × Nat) :=
    [((src, 1), epBlock p.src, 0xFF), ((sink, 1), epBlock p.sink, 0xFF), (mf, epBlock p.sink, 0xFF),
     ((5 * qi, 1), 0x07, (q.inP.map (·.val)).getD 0xFF), ((5 * qo, 1), 0x07, (q.outP.map (·.val)).getD 0xFF)]
  let big := terms.foldl (fun a t => if Frac.le t.1 a.1 then a else t) ((0, 1), epBlock p.src, 0xFF)
  match m with
  | none => { ticks := 2 ^ 36 - 1, blk := epBlock p.sink, port := 0xFF }
  | some _ => { ticks := Nat.min (2 ^ 36 - 1) (Frac.ceil (ns.1, 10 * ns.2)), blk := big.2.1, port := big.2.2 }

/-! Valve start latency (R203) -/

/-- A start of valve k that arrives over a path of the given bound in ticks keeps its STARTMAX. -/
def startOk (v : ObjView) (k : Fin 12) (path : Nat) : Bool :=
  let x (j : Fin 12) (sub : Nat) : Nat := v.num (valveIdx j) sub
  let others := ((allFin 12).filter fun j => bankOf j = bankOf k && j != k).map fun j => x j 7
  x k 0x0A = 0 || path + others.sum * 10000 ≤ x k 0x0A * 100000

/-- Every valve keeps its STARTMAX: a flow of command words can switch on all of them. -/
def startsOk (v : ObjView) (path : Nat) : Bool := (allFin 12).all fun k => startOk v k path

/-! The check of a contract (R89, R104, R597) -/

/-- The result of a check, as REASON, RPORT, CBOUND and HURT report it; reason 0: admitted. -/
structure FlowCheck where
  reason : Nat
  blk    : Nat
  rport  : Nat
  cbound : Option Nat
  hurt   : Nat

def FlowCheck.fail (reason blk rport : Nat) : FlowCheck := { reason := reason, blk := blk, rport := rport, cbound := none, hurt := 0xFFFF }

/-- A lane beyond 170 M words/s that a path uses. -/
def laneOver (l : List (List (List Path))) (q : Path) : Option (Fin 10) :=
  let tooMuch (out : Bool) (port : Fin 10) : Bool := 170000000 < sumPaths l (·.uses out port) (·.rate)
  match q.inP.filter (tooMuch false), q.outP.filter (tooMuch true) with
  | some p, _ => some p
  | none, o => o

/-- Σ E_p over the initiator ports (R15, R93). -/
def tagsBound (e : FlowEnv) : Nat :=
  ((allFin 10).map fun p => ((allFin 256).map fun n =>
    most ((e.items n).filter fun q => q.reads && blockPort (epBlock q.sink) == some p) FlowP.tags).sum - 4).sum

/-- An admitted flow that would fail because of the request (R597): its number, and whether its bound (0x04) or its start check (0x0E) breaks. -/
def State.hurtBy (s : State) (e : FlowEnv) (named : List Nat) (q : Path) : Option (Fin 256 × Nat × BoundOf) :=
  let shares (p : FlowP) : Bool :=
    let r := p.path
    (q.inP.any fun x => r.uses false x) || (q.outP.any fun x => r.uses true x)
  (allFin 256).findSome? fun n =>
    if named.contains (ctIdx n) then none
    else ((e.items n).filter shares).findSome? fun p =>
      let m : Option Frac := match s.medium e n p with | .inl m => m | .inr _ => none
      let b := e.cbound n p m
      if p.bound < b.ticks then some (n, 0x04, b)
      else if epBlock p.sink = 0x3B && !startsOk e.v b.ticks then some (n, 0x0E, b)
      else none

/-- The admission of contract n, which the request names (R89, R104). -/
def State.checkFlow (s : State) (e : FlowEnv) (named : List Nat) (n : Fin 256) : FlowCheck :=
  let p := flowP e.v n
  let l := e.lanePaths none
  match paramBad e.v n p, laneOver l p.path with
  | some b, _ => .fail 0x0D b 0xFF
  | none, some q => .fail 0x01 0x07 q.val
  | none, none =>
    if 12800000000 < 32 * sumPaths l (fun _ => true) (·.rate) then .fail 0x02 0x07 0xFF
    else if 22 < tagsBound e then .fail 0x03 0x07 0xFF
    else match s.medium e n p with
      | .inr b => .fail 0x05 b 0xFF
      | .inl m =>
        let c := e.cbound n p m
        let res (reason blk port hurt : Nat) : FlowCheck := { reason := reason, blk := blk, rport := port, cbound := some c.ticks, hurt := hurt }
        if epBlock p.sink = 0x3B && !startsOk e.v c.ticks then res 0x0E 0x3B 0xFF 0xFFFF
        else if p.bound < c.ticks then res 0x04 c.blk c.port 0xFFFF
        else match s.hurtBy e named p.path with
          | some (j, r, b) => if r = 0x0E then res r 0x3B 0xFF j.val else res r b.blk b.port j.val
          | none => res 0 0 0xFF 0xFFFF

/-- The data paths of loop m under the settings that a check sees keep the caps and the admitted flows (R85, R94, R597). -/
def State.loopLanes (s : State) (e : FlowEnv) (named : List Nat) (m : Fin 360) : Bool :=
  let l := e.lanePaths none
  sumPaths l (fun _ => true) (·.rate) * 32 ≤ 12800000000 &&
    (loopPaths e.v m).all fun q => (laneOver l q).isNone && (s.hurtBy e named q).isNone

/-- The result of a check is reported (R89). -/
def State.report_ (s : State) (n : Fin 256) (c : FlowCheck) : State :=
  s.onCt n fun k => { k with
    reason := BitVec.ofNat 16 (c.reason * 256 + c.blk)
    rport := BitVec.ofNat 8 c.rport
    cbound := (c.cbound.map wd).getD k.cbound
    hurt := BitVec.ofNat 16 c.hurt
    state := if c.reason = 0 then k.state else if k.inForce then 1 else 2 }

/-- The contracts that a commit names. -/
def ctsOf (named : List Nat) : List (Fin 256) := (allFin 256).filter fun n => named.contains (ctIdx n)

/-- The check of every contract that a commit names (R86): what fails, ascending; the state then reports each result. -/
def State.checkFlows (s : State) (named : List Nat) : List Nat × State :=
  let e := s.flowEnv named
  (ctsOf named).foldl (fun a n =>
    if e.v.num (ctIdx n) 8 != 1 then (a.1, a.2.report_ n { reason := 0, blk := 0, rport := 0xFF, cbound := none, hurt := 0xFFFF })
    else
      let c := s.checkFlow e named n
      (if c.reason = 0 then a.1 else a.1 ++ [ctIdx n], a.2.report_ n c)) ([], s)

/-- CBOUND of every flow in force follows the lanes (R597). -/
def State.rebound (s : State) : State :=
  let e := s.flowsNow
  (allFin 256).foldl (fun st n => match e.items n with
    | [] => st
    | p :: _ =>
      let m : Option Frac := match s.medium e n p with | .inl m => m | .inr _ => none
      st.onCt n fun k => { k with cbound := wd (e.cbound n p m).ticks }) s

/-- The XG egress ports of a transmit stream, with the linked rate each was charged at (R403). -/
def State.chargedRates (s : State) (n : Fin 256) : List EthRate :=
  match streamOf s.obj n with
  | none => []
  | some x =>
    if x.dir then []
    else ((allFin 2).filter fun k => x.crosses ⟨k.val + 1, by omega⟩).map fun k =>
      let p : Fin 5 := ⟨k.val + 1, by omega⟩
      let u := s.eport p
      { contract := n, port := k, missing := false
        speed := if u.link then u.speed else if s.portRuns p = 1 then 3 else 2 }

/-- A contract takes its admission (R89, R93, R383): its tags, and a full account of RATE and BURST. -/
def State.admitFlow (s : State) (n : Fin 256) : State :=
  let p := flowP s.obj n
  let s1 := s.onCt n fun k => { k with inForce := true, state := 1, tags := BitVec.ofNat 8 p.tags, tok := p.burst * 100000000, tokAt := s.now }
  s1.onEth fun u => { u with rates := u.rates.filter (·.contract != n) ++ if epBlock p.sink = 0x58 then s.chargedRates n else [] }

/-- A contract is withdrawn (R87); words that still wait at its source are discarded. -/
def State.withdrawFlow (s : State) (n : Fin 256) : State :=
  let s1 := s.onCt n fun k => { k with inForce := false, state := 3, tags := 0 }
  let s2 := s1.onEth fun u => { u with rates := u.rates.filter (·.contract != n) }
  s2.onFab fun f => { f with srcq := f.srcq.filter (·.ct != n.val) }

/-- Bundle 0x1100 + n has applied. -/
def State.flowFollow (s : State) (n : Fin 256) : State :=
  if s.cfg (ctIdx n) 8 = 1 then s.admitFlow n
  else if (s.ct n).state = 0 then s else s.withdrawFlow n

/-- The admitted contracts with an endpoint that satisfies a condition still fit under a view (R390, R406, R417). -/
def State.flowsFit (s : State) (named : List Nat) (blk : Nat → Bool) : Bool :=
  let e := s.flowEnv named
  (allFin 256).all fun n => named.contains (ctIdx n) || (e.items n).all fun p =>
    !(blk (epBlock p.src) || blk (epBlock p.sink)) ||
      ((paramBad e.v n p).isNone && match s.medium e n p with
        | .inl m => decide ((e.cbound n p m).ticks ≤ p.bound)
        | .inr _ => false)

/-- The admitted flows of command words keep the valve start latencies under a view (R203). -/
def State.valveFlowsFit (s : State) (named : List Nat) : Bool :=
  let e := s.flowEnv named
  (allFin 256).all fun n => (e.items n).all fun p =>
    epBlock p.sink != 0x3B || startsOk e.v (e.cbound n p (some (0, 1))).ticks

/-- The saved contracts are admitted again at a release of FAB, in ascending index (R88): one that does not fit takes STATE 2 and raises its
event and kind 3. -/
def State.readmitFlows (s : State) : State :=
  ((allFin 256).foldl (fun st n =>
    if st.cfg (ctIdx n) 8 != 1 then st
    else
      let named := [ctIdx n]
      let c := st.checkFlow (st.flowEnv named) named n
      let s1 := st.report_ n c
      if c.reason = 0 then s1.admitFlow n
      else (s1.admEvent 0x5 0 n.val 0 c.reason c.blk).raise 0x06 3) s).rebound

end Sys2Proof.Machine
end

