-- ==== Sys2Proof/Machine/Supply.lean ====
section
/-!
DEFINITION. Supply sag, heat and live plugging (R465 to R485): shed classes, CRANK HOLD, over-voltage, ground loss, what the governor
does at each base-cycle strobe, and the re-check of deferrals (R101).
-/
namespace Sys2Proof.Machine

def shedIdx : Nat := 0x2800

/-! Loads by their code (R466) -/

/-- A load sheds (R469). -/
def State.shedLoad (s : State) (code : Nat) : State :=
  if h : code < 72 then s.hsShed ⟨code, h⟩
  else if h : code - 0x48 < 16 then
    let n : Fin 16 := ⟨code - 0x48, h⟩
    if s.motor (pairOf n) then (if n.val % 2 = 0 then s.pairShed (pairOf n) else s) else s.legShed n
  else if h : code - 0x58 < 12 then s.valveShed ⟨code - 0x58, h⟩
  else if code < 0x80 then s
  else if h : code - 0x80 < 24 then s.sinkShed ⟨code - 0x80, h⟩
  else if code = 0x98 then s.chainShed
  else if code = 0x99 then s.matrixShed
  else if h : code - 0x9A < 16 then s.ioOff ⟨code - 0x9A, h⟩
  else s

/-- A load whose class is restored returns to its command state (R470). -/
def State.restoreLoad (s : State) (code : Nat) : State :=
  if h : code < 72 then s.hsFollow ⟨code, h⟩
  else if h : code - 0x48 < 16 then
    let n : Fin 16 := ⟨code - 0x48, h⟩
    if s.motor (pairOf n) then (if n.val % 2 = 0 then s.pairRestore (pairOf n) else s) else s.legFollow n
  else if h : code - 0x58 < 12 then s.valveFollow ⟨code - 0x58, h⟩
  else if code < 0x80 then s
  else if h : code - 0x80 < 24 then s.sinkFollow ⟨code - 0x80, h⟩
  else if code = 0x98 then s.chainRestore
  else if code = 0x99 then s.matrixRestore
  else if h : code - 0x9A < 16 then s.ioFollow ⟨code - 0x9A, h⟩
  else s

/-- A ground loss turns a load off (R482). -/
def State.cutLoad (s : State) (code : Nat) : State :=
  if h : code < 72 then s.hsOff ⟨code, h⟩
  else if h : code - 0x48 < 16 then
    let n : Fin 16 := ⟨code - 0x48, h⟩
    if s.motor (pairOf n) then (if n.val % 2 = 0 then s.pairOff (pairOf n) else s) else s.legOff n
  else if h : code - 0x58 < 12 then s.valveOff ⟨code - 0x58, h⟩
  else if code < 0x80 then s
  else if h : code - 0x80 < 24 then s.sinkDark ⟨code - 0x80, h⟩
  else if h : code - 0x9A < 16 then s.ioOff ⟨code - 0x9A, h⟩
  else s

/-- After a ground loss each output follows its command state (R482). -/
def State.returnLoad (s : State) (code : Nat) : State :=
  if h : code - 0x48 < 16 then
    let n : Fin 16 := ⟨code - 0x48, h⟩
    if 0x48 ≤ code && s.motor (pairOf n) then (if n.val % 2 = 0 then s.pairResume (pairOf n) else s) else s.restoreLoad code
  else s.restoreLoad code

/-- Loads whose class is k. -/
def State.loadsOf (s : State) (k : Nat) : List Nat := loadCodes.filter fun c => (s.classOf c).val = k

/-! Shed classes (R468 to R470) -/

/-- A block holds a load of class k. -/
def State.holdsClass (s : State) (k blk : Nat) : Bool := (s.loadsOf k).any (loadBlock · == blk)

/-- The load that is a loop's sink (R263). -/
def State.loopSinkLoad (s : State) (m : Fin 360) : Option Nat :=
  let w := s.cfg (loopIdx m) 0x18
  match w / 2 ^ 32 with
  | 1 => some (w % 256)
  | 2 => some (0x48 + 2 * (w % 256))
  | 3 => some (0x80 + w % 256)
  | _ => none

/-- The blocks of the media that stop with class 1 (R469): LIN0 to LIN7, the Ethernet ports and the switch. -/
def shedMedium (b : Nat) : Bool := 0x50 ≤ b && b ≤ 0x5C

/-- What a shed of class k reaches (R469). -/
def State.shedReach (s : State) (k : Nat) : Reach :=
  let media (b : Nat) : Bool := k = 1 && shedMedium b
  { flow := fun n => s.holdsClass k (epBlock (s.cfg (ctIdx n) 2)) || s.flowTouches n (media <| epBlock ·)
    loop := fun m => (s.loopSinkLoad m).any (fun c => (s.classOf c).val = k) || (s.loopStreams m).any (media <| epBlock ·)
    seq := fun n => s.seqTouches n fun b => s.holdsClass k b || media b
    rule := fun n => s.ruleTouches n fun c => s.holdsClass k (loadBlock c) }

/-- Class k sheds: its loads, kind 0 and one exception of cause 3. -/
def State.shedOne (s : State) (k : Fin 8) : State :=
  let s1 := s.onSup fun u => { u with
    shed := u.shed ||| BitVec.ofNat 8 (2 ^ k.val), sheds := satInc u.sheds
    restoreQ := u.restoreQ.filter fun c => s.classOf c != k }
  let s2 := (s.loadsOf k.val).foldl State.shedLoad s1
  let stop (c : LinCh) : LinCh := { c with wait := none }
  let s3 := if k = 1 then { s2 with lins := ball s2.lins fun _ => stop } else s2
  (s3.raise 0x03 0).missItems (s.shedReach k.val) 3 0x03

/-- Class k and every class above it that is not shed yet shed, from class 7 downwards. -/
def State.shedFrom (s : State) (k : Nat) : State :=
  [7, 6, 5, 4, 3, 2, 1].foldl (fun st (j : Fin 8) => if k ≤ j.val && !st.sup.shed.getLsbD j.val then st.shedOne j else st) s

/-- TH_k and HYS_k of the profile that obj 0x1010.01 selects, in mV (R468). -/
def State.threshold (s : State) (k : Fin 8) : Nat × Nat :=
  let w := (s.obj shedIdx (if s.cfg 0x1010 1 = 12 then 2 else 3)).getD k.val 0
  (fld w 31 16, fld w 15 0)

/-- CLASS_SHED (R468): VBAT has stayed below TH_k for SHFLT, 1 ms at least, so that the strobe of R43 in that time has seen it there. -/
def execClassShed (k : Fin 8) (s : State) : Host.Outcome State Fault Refusal :=
  .next (if s.up 1 && k != 0 && s.sup.vbat < (s.threshold k).1 && !s.sup.shed.getLsbD k.val then s.shedFrom k.val else s)

/-- CLASS_RESTORE (R468, R470): VBAT has stayed at or above TH_k + HYS_k for RSFLT, counted from an exit from
CRANK HOLD (R471); lower classes come first, 10 ms apart; the class's loads wait
for their energisations. -/
def execClassRestore (k : Fin 8) (s : State) : Host.Outcome State Fault Refusal :=
  .next (if s.up 1 && k != 0 && (s.threshold k).1 + (s.threshold k).2 ≤ s.sup.vbat && s.sup.shed.getLsbD k.val && !s.sup.crank && !(allFin 8).any (fun j => j < k && s.sup.shed.getLsbD j.val) then
    let s0 := match s.sup.exitAt with | some t => s.at (t + msT (s.cfg shedIdx 5)) | none => s
    let s1 := if k = 1 then s0 else s0.at (s.sup.lastRest + msT 10)
    s1.onSup fun u => { u with
      shed := u.shed &&& ~~~(BitVec.ofNat 8 (2 ^ k.val)), lastRest := s1.now, restoreAt := Nat.max u.restoreAt s1.now
      restoreQ := loadCodes.filter fun c => u.restoreQ.contains c || s.classOf c = k }
  else s)

/-- Restores waiting loads until n of them have needed a decision. -/
def State.restoreSome (s : State) (n : Nat) : List Nat → State
  | [] => s.onSup fun u => { u with restoreQ := [] }
  | c :: r =>
    if n = 0 then s.onSup fun u => { u with restoreQ := c :: r }
    else
      let s1 := s.restoreLoad c
      s1.restoreSome (if s1.adm = s.adm then n else n - 1) r

/-- RESTORE_ENERGISE_BATCH (R470): at most 8 energisations per 100 µs, by ascending load code. -/
def execRestoreEnergiseBatch (s : State) : Host.Outcome State Fault Refusal :=
  .next (if s.up 1 && !s.sup.restoreQ.isEmpty then
    let s1 := s.at s.sup.restoreAt
    (s1.onSup fun u => { u with restoreAt := s1.now + usT 100 }).restoreSome 8 s.sup.restoreQ
  else s)

/-! CRANK HOLD, over-voltage, ground loss (R471 to R473, R480 to R482) -/

/-- CRANK_ENTRY: VBAT has stayed below 6.0 V for 20 µs. -/
def execCrankEntry (s : State) : Host.Outcome State Fault Refusal :=
  .next (if s.up 1 && !s.sup.crank then
    let s1 := (s.onSup fun u => { u with crank := true, cranks := satInc u.cranks }).raise 0x03 1
    let s2 := s1.shedFrom 1
    let s3 := s2.boostFollow
    if s3.pwr.mode = .idle then s3.onPwr fun p => { p with mode := .run } else s3
  else s)

/-- CRANK_EXIT: VBAT has stayed at or above 6.5 V for 1 ms. -/
def execCrankExit (s : State) : Host.Outcome State Fault Refusal :=
  .next (if s.up 1 && s.sup.crank then
    (s.onSup fun u => { u with crank := false, exitAt := some s.now }).boostFollow
  else s)

/-- The flows and loops that the LED hold of R473 reaches. -/
def State.ovReach (s : State) : Reach :=
  { flow := fun n => epBlock (s.cfg (ctIdx n) 2) = 0x40, loop := fun m => s.loopSinkBlock m == some 0x40, seq := fun _ => false
    rule := fun _ => false }

/-- OVERVOLTAGE_SET: every LED sink is held off; its last level stays its command. -/
def execOvervoltageSet (s : State) : Host.Outcome State Fault Refusal :=
  .next (if s.up 1 && !s.sup.ov then
    let s1 := (allFin 24).foldl State.sinkDark (s.onSup fun u => { u with ov := true })
    (s1.raise 0x03 2).missItems s.ovReach 3 0x03
  else s)

/-- OVERVOLTAGE_CLEAR: the sinks follow their last levels. -/
def execOvervoltageClear (s : State) : Host.Outcome State Fault Refusal :=
  .next (if s.up 1 && s.sup.ov then (allFin 24).foldl State.sinkFollow (s.onSup fun u => { u with ov := false }) else s)

/-- GROUND_LOSS: every output goes off, those of class 0 too. -/
def execGroundLoss (s : State) : Host.Outcome State Fault Refusal :=
  .next (if s.up 1 && !s.sup.gloss then
    let s1 := (s.onSup fun u => { u with gloss := true }).raise 0x03 3
    (loadCodes.foldl State.cutLoad s1).boostFollow
  else s)

/-- GROUND_RESTORED: the grounds have been good for 10 ms. -/
def execGroundRestored (s : State) : Host.Outcome State Fault Refusal :=
  .next (if s.up 1 && s.sup.gloss then
    let s1 := s.onSup fun u => { u with gloss := false }
    (loadCodes.foldl State.returnLoad s1).boostFollow
  else s)

/-- CASE_SENSOR_FAIL (R480). -/
def execCaseSensorFail (s : State) : Host.Outcome State Fault Refusal :=
  .next (if s.up 1 && !s.sup.caseFail then (s.onSup fun u => { u with caseFail := true }).raise 0x04 15 else s)

/-! The governor at a base-cycle strobe (R479) -/

/-- What a strobe measures: T_case, VBAT, the boost rail and the junctions; a failed sensor's junction is estimated (R149). -/
def State.measured (s : State) (e : StrobeEnv) : State :=
  let hot (t : Int) : Bool := decide (1840 < t)
  let s1 := (((s.onSup fun u => { u with vbat := e.vbat, tcase := e.tcase }).railAt e.vout).sinksHot e.hot).iosHot e.ioHot
  let s2 := (allFin 13).foldl (fun st g => st.setTj g (if (bget st.th g).sensf then st.estTj g else e.tj[g.val])) s1
  let s3 := (allFin 13).foldl State.judgeEst s2
  s3.raiseIf (hot s1.tc && !hot s.tc) 0x04 16

/-- The factors of a group or the module (13) replaced; a fall is counted and raises its kind (R479, R484). -/
def State.setFactors (s : State) (g : Nat) (k : Bank Byte 8) : State :=
  let old := if h : g < 11 then bget s.sup.gfact ⟨g, h⟩ else s.sup.mfact
  let s1 := s.onSup fun u => if h : g < 11 then { u with gfact := bset u.gfact ⟨g, h⟩ k } else { u with mfact := k }
  if (allFin 8).any fun q => (bget k q).toNat < (bget old q).toNat then (s1.countDerate g).raise 0x04 g else s1

/-- A group or the module (13) fits with some factors (R476). -/
def State.fitsWith (s : State) (l : List Charge) (g : Nat) (k : Bank Byte 8) : Bool :=
  if h : g < 11 then groupFits s g (bset s.sup.gfact ⟨g, h⟩ k) s.sup.mfact l
  else if g < 13 then groupFits s g s.sup.gfact s.sup.mfact l
  else moduleFits s s.sup.gfact k l

def State.factorsOf (s : State) (g : Nat) : Bank Byte 8 :=
  if h : g < 11 then bget s.sup.gfact ⟨g, h⟩ else s.sup.mfact

/-- Step 2 of R479 for a group, or the module (13). -/
def State.derateStep (s : State) (g : Fin 14) : State :=
  let l := s.ledger s.adm.charges
  let k := s.factorsOf g.val
  let bit := BitVec.ofNat 14 (2 ^ g.val)
  let fits (st : State) : State := st.onSup fun u => { u with episode := u.episode &&& ~~~bit }
  let fails (st : State) : State :=
    (st.raiseIf (!st.sup.episode.getLsbD g.val) 0x04 14).onSup fun u => { u with episode := u.episode ||| bit }
  if s.fitsWith l g.val k then fits s
  else if g.val = 11 || g.val = 12 then fails s
  else match derateSearch (s.fitsWith l g.val) 1 7 k with
    | some k1 => fits (s.setFactors g.val k1)
    | none => fails (s.setFactors g.val (bset (Vector.replicate 8 0) 0 255))

/-- The derating threshold of a group (R479), in 1/16 °C. -/
def State.tder (s : State) (g : Nat) : Int := 16 * (if g < 9 then (s.cfg (0x2810 + g) 2 : Int) else 155)

/-- A factor raised by up to 8, as far as it fits. -/
def raiseFactor (fits : Bank Byte 8 → Bool) (k : Bank Byte 8) (q : Fin 8) : Nat → Bank Byte 8
  | 0 => k
  | n + 1 =>
    let k1 := bset k q (satByte ((bget k q).toNat + (n + 1)))
    if fits k1 then k1 else raiseFactor fits k q n

/-- Every factor of classes 1 to 7 raised, class 1 first. -/
def State.raiseAll (s : State) (g : Nat) : State :=
  let l := s.ledger s.adm.charges
  s.setFactors g ([1, 2, 3, 4, 5, 6, 7].foldl (fun k (q : Fin 8) => raiseFactor (s.fitsWith l g) k q 8) (s.factorsOf g))

/-- Steps 3 and 4 of R479 for G0 to G8, HG0 and HG1. -/
def State.junctionStep (s : State) (g : Fin 11) : State :=
  let t := bget s.sup.tj ⟨g.val, by omega⟩
  let k := bget s.sup.gfact g
  if s.tder g.val ≤ t then
    match [7, 6, 5, 4, 3, 2, 1].find? fun (q : Fin 8) => bget k q != 0 with
    | some q => s.setFactors g.val (bset k q (BitVec.ofNat 8 ((bget k q).toNat - 8)))
    | none => s
  else if t ≤ s.tder g.val - 80 then s.raiseAll g.val
  else s

/-- What the governor does at a base-cycle strobe (R479). -/
def State.governorStrobe (s : State) (e : StrobeEnv) : State :=
  if !s.up 1 then s
  else
    let s1 := s.measured e
    let s2 := (allFin 14).foldl State.derateStep s1
    let s3 := (allFin 11).foldl State.junctionStep s2
    s3.raiseAll 13

/-! Deferrals at a base-cycle strobe (R101) -/

/-- A deferred energisation is carried out. -/
def State.carryDeferred (s : State) (code value : Nat) : State :=
  if h : code < 72 then s.hsUndefer ⟨code, h⟩ value
  else if h : code - 0x48 < 16 then
    let n : Fin 16 := ⟨code - 0x48, h⟩
    if s.motor (pairOf n) then s.pairUndefer (pairOf n) value else s.legUndefer n value
  else if h : code - 0x58 < 12 then s.valveUndefer ⟨code - 0x58, h⟩ value
  else if h : code - 0x80 < 24 then s.sinkUndefer ⟨code - 0x80, h⟩ value
  else if h : code - 0x9A < 16 then s.ioUndefer ⟨code - 0x9A, h⟩
  else if code = 0xAB then s.boostStart
  else s

/-- One deferral at a strobe: admitted with its event, or one strobe older and refused at 2 000. -/
def State.recheck (s : State) (d : Deferral) : State :=
  let code := d.charge.code
  match chargeCheck s d.charge with
  | .inl s1 => ((s1.undefer code).carryDeferred code d.value).admEvent 3 4 code 0 0 d.blk
  | .inr (reason, blk) =>
    if 2000 ≤ d.strobes + 1 then ((s.undefer code).admEvent 4 4 code 0 reason blk)
    else s.onAdm fun a => { a with defer := a.defer.map fun e =>
      if e.charge.code = code then { e with strobes := d.strobes + 1, blk := blk } else e }

/-- The re-check of every deferral, oldest first. -/
def State.recheckAll (s : State) : State :=
  if !s.up 1 then s
  else s.adm.defer.foldl (fun st d => match st.adm.defer.find? (·.charge.code == d.charge.code) with
    | some e => st.recheck e
    | none => st) s

/-! Bundle 0x2800 (R483) -/

/-- The consistency check of bundle 0x2800: the admitted supply charges fit within 85 % of ISUP; what CLASSMAP, TH12 and TH24 exclude is refused at their
writes (R59). -/
def State.shedCheck (s : State) (v : ObjView) : Bool :=
  decide (sumNa s s.sup.gfact s.sup.mfact (s.ledger s.adm.charges) * 100 ≤ 85 * 255 * (v.num shedIdx 6 * 100000000))

/-- After the bundle is applied: loads that the old map kept on may shed, and others are restored (R483). -/
def State.shedFollow (s old : State) : State :=
  loadCodes.foldl (fun st c =>
    match old.isShed c, st.isShed c with
    | false, true => st.shedLoad c
    | true, false => st.onSup fun u => { u with
        restoreAt := Nat.max u.restoreAt st.now, restoreQ := loadCodes.filter fun x => x = c || u.restoreQ.contains x }
    | _, _ => st) s

end Sys2Proof.Machine
end

