-- ==== Sys2Proof/Machine/Speedwell.lean ====
section
/-!
DEFINITION. Speedwell: the check and the application of a rule table, the evaluator's pass and the edge actions (R102, R109 to R115,
R203, R88).
-/
namespace Sys2Proof.Machine

/-! Rules (R111) -/

def ruleMode (r : Word × Word) : Nat := fld r.1 34 33
def ruleAct (r : Word × Word) : Nat := fld r.2 19 16
def ruleTgt (r : Word × Word) : Nat := fld r.2 15 8
def ruleArg (r : Word × Word) : Nat := fld r.2 7 0

/-- An operand code of the table. -/
def opCodeOk (c : Nat) : Bool := c ≤ 0x6B || (0x80 ≤ c && c ≤ 0xE3) || 0xFE ≤ c

/-- The actions that a target allows. -/
def actionsOf (tgt : Nat) : List Nat :=
  if tgt ≤ 0x47 then [0, 1, 2, 3, 5, 6] else if tgt ≤ 0x57 then [1, 4, 5] else if tgt ≤ 0x63 then [0, 1, 5]
  else if tgt ≤ 0x73 then [0, 1, 6] else []

/-- The encoding of a rule (R112): operands, target, action, mode and their combination. -/
def ruleValid (r : Word × Word) : Bool :=
  !r.1.getLsbD 32 && (ruleOps r).all opCodeOk && (actionsOf (ruleTgt r)).contains (ruleAct r) &&
    (if ruleMode r = 0 then ruleAct r != 6 else ruleAct r != 5)

/-- Rule n of a table of 512 words. -/
def ruleIn (t : List Word) (n : Nat) : Word × Word := (t.getD (2 * n) 0, t.getD (2 * n + 1) 0)

/-- The enabled rules of a table, in ascending number. -/
def rulesOn (t : List Word) : List (Nat × (Word × Word)) :=
  (List.range 256).filterMap fun n => let r := ruleIn t n; if ruleOn r then some (n, r) else none

/-! The check (R102, R112, R203) -/

/-- The charge of the energisation that a rule can cause, if it can cause one. -/
def State.ruleCharge (s : State) (r : Word × Word) : Option Charge :=
  let t := ruleTgt r
  let a := ruleAct r
  if h : t < 72 then
    let ch : Fin 72 := ⟨t, h⟩
    if a = 3 then some (s.hsCharge ch (.spwDuty (BitVec.ofNat 8 (ruleArg r))))
    else if a = 0 || a = 2 || a = 6 then some (hsChargeOf ch (s.cfg (hsIdx ch) 6) 1 1 false)
    else none
  else if t ≤ 0x57 then
    let n : Fin 16 := Fin.ofNat 16 (t - 0x48)
    if a = 4 && !s.motor (pairOf n) then some (s.legCharge n .lowOn) else none
  else if t ≤ 0x63 then
    if a = 0 then some (s.valveCharge (Fin.ofNat 12 (t - 0x58))) else none
  else none

/-- The ledger that a set of reservations breaks, at the factors in force (R102): reason and block. -/
def State.resvBreaks (s : State) (pend : List Charge) (c : Charge) : Option (Nat × Nat) :=
  let l := pend.foldl addMax (s.ledger s.adm.charges)
  let g := groupOf c.code
  if !supplyFits s l then some (0x09, 0x03)
  else if g < 13 && !groupFits s g s.sup.gfact s.sup.mfact l then some (0x0A, groupBlock g)
  else if !moduleFits s s.sup.gfact s.sup.mfact l then some (0x0B, 0x04)
  else none

/-- The second pass: the reservations, at the largest charge that the settings in `alts` give each rule, or the first rule whose reservation does
not fit. -/
def State.resvPass (s : State) (alts : List State) : List (Nat × (Word × Word)) → List Charge → List Charge ⊕ (Nat × Nat × Nat)
  | [], pend => .inl pend
  | (n, r) :: rest, pend =>
    match alts.filterMap fun a => a.ruleCharge r with
    | [] => s.resvPass alts rest pend
    | c :: cs =>
      let d := cs.foldl Charge.max c
      let p1 := addMax pend d
      match s.resvBreaks p1 d with
      | some (reason, blk) => .inr (reason, blk, n)
      | none => s.resvPass alts rest p1

/-- A rule that can switch a valve on. -/
def ruleValve (r : Word × Word) : Option (Fin 12) :=
  if ruleAct r = 0 && 0x58 ≤ ruleTgt r && ruleTgt r ≤ 0x63 then some (Fin.ofNat 12 (ruleTgt r - 0x58)) else none

/-- The state as it would stand with the staged values of bundles. -/
def State.previewAll (s : State) (l : List Nat) : State :=
  l.foldl (fun st idx => (s.srv.stagedOf idx).foldl (fun u e => u.setObj idx e.1 e.2) st) s

/-- The check of a table under a view and settings (R112): its reservations, or reason, block and rule of the first failure. -/
def State.tableCheck (s : State) (alts : List State) (v : ObjView) (t : List Word) : List Charge ⊕ (Nat × Nat × Nat) :=
  let rs := rulesOn t
  match rs.find? fun e => !ruleValid e.2 with
  | some e => .inr (0x12, 0x05, e.1)
  | none => match s.resvPass alts rs [] with
    | .inr f => .inr f
    | .inl pend => match rs.find? fun e => (ruleValve e.2).any fun k => !startOk v k 2000 with
      | some e => .inr (0x0E, 0x3B, e.1)
      | none => .inl pend

/-- The result of a check in REASON and RNUM of obj 0x2700. -/
def State.tableReport (s : State) (reason blk rnum : Nat) : State :=
  s.onAdm fun a => { a with reason := BitVec.ofNat 16 (reason * 256 + blk), rnum := BitVec.ofNat 8 rnum }

/-- The check of bundle 0x2700 in a commit (R86, R115): the image at RBASE where RBASE was written, else the applied table, with the settings of
the bundles named in the commit and those that pending commits claim; what passes is reserved (R87), and a new image is staged as RULES. -/
def State.checkTable (s : State) (named : List Nat) (v : ObjView) : Bool × State :=
  let t := if s.adm.rbaseW then memReadN s.mem (v.num 0x2700 2) 512 else s.obj 0x2700 1
  match s.tableCheck [s.previewAll named, s.previewAll (s.claimed ++ named)] v t with
  | .inr (reason, blk, n) => (false, s.tableReport reason blk n)
  | .inl pend =>
    let s1 := (s.tableReport 0 0 0).onAdm fun a => { a with pendResv := some pend }
    (true, if s.adm.rbaseW then s1.onSrv fun u => { u with staged := alInsert (okey 0x2700 1) t u.staged } else s1)

/-- A commit of bundle 0x2700 is dropped before it applied. -/
def State.tableDrop (s : State) : State := s.onAdm fun a => { a with pendResv := none, rbaseW := false }

/-- Bundle 0x2700 has applied: its reservations hold, and the first pass over a new table is due (R88, R115). -/
def State.tableFollow (s : State) : State :=
  s.onAdm fun a => { a with resv := a.pendResv.getD a.resv, pendResv := none, unres := false, fresh := a.fresh || a.rbaseW, rbaseW := false }

/-- The saved table at a release of FAB before which SUP was reset as well (R88): admitted as one item, or it runs unreserved. -/
def State.readmitTable (s : State) : State :=
  match s.tableCheck [s] s.obj (s.obj 0x2700 1) with
  | .inl pend => (s.tableReport 0 0 0).onAdm fun a => { a with resv := pend, pendResv := none, unres := false }
  | .inr (reason, blk, n) =>
    (((s.tableReport reason blk n).onAdm fun a => { a with resv := [], pendResv := none, unres := true }).admEvent 0x5 2 n 0 reason blk).raise 0x06 3

/-- The rules in force keep the valve start latencies of a bank under a view (R203). -/
def State.valveRulesFit (s : State) (v : ObjView) : Bool :=
  s.adm.unres || (rulesOn (s.obj 0x2700 1)).all fun e => (ruleValve e.2).all fun k => startOk v k 2000

/-! The evaluator (R109 to R114) -/

/-- An operand's state (R111). -/
def State.operand (s : State) (c : Nat) : Bool :=
  if c ≤ 0x4F then s.operandIn c
  else if c ≤ 0x5F then s.flag (c - 0x50)
  else if c ≤ 0x63 then s.blinkOn (c - 0x60)
  else if c ≤ 0x6B then s.sup.shed.getLsbD (c - 0x64)
  else if 0x80 ≤ c && c ≤ 0xC7 then (bget s.hs (Fin.ofNat 72 (c - 0x80))).lcause != 0
  else if 0xC8 ≤ c && c ≤ 0xD7 then (bget s.legs (Fin.ofNat 16 (c - 0xC8))).lcause != 0
  else if 0xD8 ≤ c && c ≤ 0xE3 then (bget s.vd (Fin.ofNat 12 (c - 0xD8))).lcause != 0
  else c = 0xFF

/-- The condition of a rule: bit 8D + 4C + 2B + A of TT. -/
def State.ruleTrue (s : State) (r : Word × Word) : Bool :=
  let n := match ruleOps r with
    | [a, b, c, d] => b1 (s.operand a) + 2 * b1 (s.operand b) + 4 * b1 (s.operand c) + 8 * b1 (s.operand d)
    | _ => 0
  r.1.getLsbD (16 + n)

/-- A rule as the evaluator sees it in a pass: its condition, and whether it fires an edge action. -/
structure RuleNow where
  n    : Nat
  tgt  : Fin 116
  act  : Byte × Byte
  mode : Nat
  cond : Bool
  fire : Bool

/-- The rules of a pass. -/
def State.rulesNow (s : State) : List RuleNow :=
  ((rulesOn (s.obj 0x2700 1)).filter fun e => ruleValid e.2).map fun e =>
    let c := s.ruleTrue e.2
    let was := s.adm.prev.getLsbD e.1
    let m := ruleMode e.2
    { n := e.1, tgt := tgtFin (ruleTgt e.2), act := (BitVec.ofNat 8 (ruleAct e.2), BitVec.ofNat 8 (ruleArg e.2)), mode := m, cond := c
      fire := m != 0 && !s.adm.fresh && c != was && (m = 3 || (m = 1 && c) || (m = 2 && !c)) }

/-- The lowest-numbered true level rule of a target (R113). -/
def levelRule (l : List RuleNow) (t : Fin 116) : Option RuleNow := l.find? fun r => r.tgt = t && r.mode = 0 && r.cond && r.act.1 != 5

/-- A true INHIBIT on a target. -/
def inhibited (l : List RuleNow) (t : Fin 116) : Bool := l.any fun r => r.tgt = t && r.mode = 0 && r.cond && r.act.1 = 5

/-- An edge action at a load (R111, R113): it replaces the last edge action and firmware command and ends a reset policy; in a KEEP or
POLICY safe state it is what SREL returns to (R491). -/
def State.edgeTake (s : State) (code : Nat) (a : Byte × Byte) : State :=
  let set (st : State) : State := st.onAdm fun x => { x with edge := bset x.edge (tgtFin code) (some a) }
  if code ≤ 0x47 then
    let ch : Fin 72 := Fin.ofNat 72 code
    match (bget s.hs ch).base with
    | some b => s.onHs ch fun h => { h with base := some { b with policy := .none, rsp := false, edge := some a } }
    | none => set (s.onHs ch fun h => { h with policy := .none, rsp := false })
  else if code ≤ 0x57 then
    let n : Fin 16 := Fin.ofNat 16 (code - 0x48)
    let k := pairOf n
    if s.motor k then
      match (bget s.pairs k).base with
      | some b => s.onPair k fun p => { p with base := some (if code % 2 = 0 then { b with policy := .none, rsp := false, edge := some a, edgeB := none }
                                                            else { b with policy := .none, rsp := false, edge := none, edgeB := some a }) }
      | none =>
        let e (own : Bool) : Option (Byte × Byte) := if own then some a else none
        (s.onPair k fun p => { p with policy := .none, rsp := false }).onAdm fun x => x.pairEdges k (e (code % 2 = 0)) (e (code % 2 = 1))
    else match (bget s.legs n).base with
      | some b => s.onLeg n fun l => { l with base := some { b with rsp := false, edge := some a } }
      | none => set (s.onLeg n fun l => { l with rsp := false })
  else
    let n : Fin 12 := Fin.ofNat 12 (code - 0x58)
    match (bget s.vd n).base with
    | some b => s.onVd n fun v => { v with base := some { b with policy := .none, rsp := false, edge := some a } }
    | none => set (s.onVd n fun v => { v with policy := .none, rsp := false })

/-- The action that an edge rule takes: TOGGLE inverts the command state in force (R111). -/
def State.edgeAct (s : State) (code : Nat) (a : Byte × Byte) : Byte × Byte :=
  if a.1 != 6 then a
  else if code ≤ 0x47 then (if s.hsWant (Fin.ofNat 72 code) = .off then (0, 0) else (1, 0))
  else (if s.flag (code - 0x64) then (1, 0) else (0, 0))

/-- A target follows R113. -/
def State.targetFollow (s : State) (code : Nat) : State :=
  if code ≤ 0x47 then s.hsFollow (Fin.ofNat 72 code)
  else if code ≤ 0x57 then
    let n : Fin 16 := Fin.ofNat 16 (code - 0x48)
    if s.motor (pairOf n) then s.pairFollow (pairOf n)
    else s.legFollow n
  else if code ≤ 0x63 then
    s.valveFollow (Fin.ofNat 12 (code - 0x58))
  else s

/-- The edge actions of a target in a pass, in ascending rule number. -/
def State.edgesAt (s : State) (l : List RuleNow) (t : Fin 116) : State :=
  (l.filter fun r => r.tgt = t && r.fire).foldl (fun st r =>
    let a := st.edgeAct t.val r.act
    let s1 := st.onAdm fun x => { x with fired := satInc x.fired }
    if 0x64 ≤ t.val then s1.onAdm fun x =>
      { x with flags := if a.1 = 0 then x.flags ||| ((1 : BitVec 16) <<< (t.val - 0x64)) else x.flags &&& ~~~((1 : BitVec 16) <<< (t.val - 0x64)) }
    else s1.edgeTake t.val a) s

/-- A deferral of a target that INHIBIT now suppresses is dropped (R113). -/
def State.inhDrop (s : State) (code : Nat) : State :=
  if 0x48 ≤ code && code ≤ 0x57 then
    let n : Fin 16 := Fin.ofNat 16 (code - 0x48)
    (s.undefer (legCode n)).undefer (if s.motor (pairOf n) then pairCode (pairOf n) else legCode n)
  else s.undefer code

/-- Where a target is set to blink: the clock. -/
def State.blinkOf (s : State) (t : Fin 116) : Option Nat :=
  let a := match bget s.adm.level t with
    | some a => some a
    | none => bget s.adm.edge t
  a.bind fun x => if x.1 = 2 then some (x.2.toNat % 4) else none

/-- SPEEDWELL_PASS (R109 to R114): one pass over all rules with the operand states at its start; its commands reach their targets in
ascending order. -/
def execSpeedwellPass (s : State) : Host.Outcome State Fault Refusal :=
  if !s.up 1 then .next s
  else
    let l := s.rulesNow
    let old := s.adm
    let bk : BitVec 4 := (List.range 4).foldl (fun b i => if s.blinkOn i then b ||| (1 <<< i) else b) 0
    let level : Bank (Option (Byte × Byte)) 116 := Vector.ofFn fun t => (levelRule l t).map (·.act)
    let inh : BitVec 116 := (allFin 116).foldl (fun p t => if inhibited l t then p ||| (1 <<< t.val) else p) 0
    let news := ((allFin 116).filter fun t => bget level t != bget old.level t || inh.getLsbD t.val != old.inh.getLsbD t.val).length
    let s1 := s.onAdm fun a => { a with
      prev := l.foldl (fun p r => if r.cond then p ||| ((1 : BitVec 256) <<< r.n) else p &&& ~~~((1 : BitVec 256) <<< r.n)) a.prev
      fresh := false
      level := level
      levelN := Vector.ofFn fun t => ((levelRule l t).map (·.n)).getD 0
      inh := inh
      bk := bk
      fired := Nat.repeat satInc news a.fired }
    .next ((allFin 116).foldl (fun st t =>
      let st1 := (if inh.getLsbD t.val && t.val < 0x64 then st.inhDrop t.val else st).edgesAt l t
      let fired := l.any fun r => r.tgt = t && r.fire
      let moved := bget level t != bget old.level t || (old.inh.getLsbD t.val && !s1.adm.inh.getLsbD t.val) ||
        (st1.blinkOf t).any fun i => bk.getLsbD i != old.bk.getLsbD i
      if fired || moved then st1.targetFollow t.val else st1) s1)

/-- A write of FLAGS (obj 0x2700.07): as a firmware command at every flag (R113). -/
def State.writeFlags (s : State) (v : Nat) : Code × State := (okc, s.onAdm fun a => { a with flags := BitVec.ofNat 16 v })

end Sys2Proof.Machine
end

