-- ==== Sys2Proof/Machine/Bundles.lean ====
section
/-!
DEFINITION. Bundles: the consistency check of each family (R61, R67, R146, R184, R186, R221, R237, R243, R250, R287, R361, R365), what
follows an application, commits and their strobe (R60 to R63).
-/
namespace Sys2Proof.Machine

/-! What a check may charge -/

/-- The state as it would stand with the staged values of a bundle. -/
def State.preview (s : State) (idx : Nat) : State := s.previewAll [idx]

/-- A charge must fit before a commit may pass (R99): the ledger then holds it; a failure is a refused energisation (R103). -/
def State.mustFit (s : State) (c : Charge) : Bool × State :=
  let old := s.charged c.code
  if !c.risesOver old then (true, s)
  else match chargeCheck s (c.max old) with
    | .inl s1 => (true, s1)
    | .inr (r, b) => (false, s.admEvent 4 4 c.code 0 r b)

/-- A rise of the charge of a load that is charged must fit. -/
def State.riseFits (s : State) (c : Charge) : Bool × State :=
  if s.adm.charges.any (·.code == c.code) then s.mustFit c else (true, s)

/-- Reservations besides those in force must fit (R450, R543). -/
def State.extraFits (s : State) (l : List Charge) : Bool :=
  let t := s.onAdm fun a => { a with extraResv := l }
  l.all fun c => (t.resvBreaks [] c).isNone

/-- A sense rate must find its place on the ADC schedule, which is reserved (R97, R87). -/
def State.adcFit (s : State) (r : AdcReq) (period : Nat) : Bool × State :=
  match s.wantPlace r period with
  | none => (true, s)
  | some none => (false, s)
  | some (some p) => (true, s.onAdc fun a => { a with pend := a.pend ++ [p] })

/-- A check of two parts. -/
def both (ok : Bool) (f : State → Bool × State) (s : State) : Bool × State := if ok then f s else (false, s)

/-- A check made after another that passed. -/
def andThen (r : Bool × State) (f : State → Bool × State) : Bool × State := if r.1 then f r.2 else r

/-! The families -/

/-- R67: every high-side, half-bridge, valve and LED output is off. -/
def State.outputsOff (s : State) : Bool :=
  (allFin 72).all (fun c => !(bget s.hs c).out && (bget s.hs c).act == .off) &&
    (allFin 8).all (fun k => !s.motor k || (bget s.pairs k).stage == .free) &&
    (allFin 16).all (fun n => s.motor (pairOf n) || ((bget s.legs n).act == .off && !(bget s.legs n).brake)) &&
    (allFin 12).all (fun n => !(bget s.vd n).stage.active) &&
    (allFin 24).all (fun n => (bget s.sinks n).x = 0 && (bget s.sinks n).goal = 0)

/-- R146. -/
def State.hsCheck (s : State) (ch : Fin 72) (v : ObjView) : Bool × State :=
  let x := v.num (hsIdx ch)
  let imax := if ch.val < 12 then 60000 else if ch.val < 48 then 20000 else 5000
  both (x 8 ≤ x 7 && x 9 < x 7 && 5 * 16 * x 6 ≤ 4 * (x 0x0B + 1) * imax && x 0x11 < x 6)
    (fun s => andThen (s.adcFit (.load (.hs ch)) (x 0x12)) fun s =>
      let p := (s.preview (hsIdx ch)).onHs ch fun h => { h with period := x 7 }
      if (bget s.hs ch).act == .off then (true, s) else s.riseFits (p.hsCharge ch (bget s.hs ch).act)) s

/-- R184: the trip current of a leg is (TRIPSEL + 1) ÷ 16 of 40 A (R152). -/
def State.legCheck (s : State) (n : Fin 16) (v : ObjView) : Bool × State :=
  let x := v.num (legIdx n)
  let k := pairOf n
  let motor := v.num (pairIdx k) 1 = 1
  let iload := if motor then v.num (pairIdx k) 7 else x 5
  both (5 * 16 * iload ≤ 4 * (x 6 + 1) * 40000)
    (fun s => andThen (s.adcFit (.load (.leg n)) (x 9)) fun s =>
      if s.motor k || (bget s.legs n).act == .off then (true, s)
      else s.riseFits ((s.preview (legIdx n)).legCharge n (bget s.legs n).act)) s

/-- Both legs of a pair in MODE 0 are off, or both low sides are on (R186: FREE or braked at zero speed). -/
def State.legsRest (s : State) (k : Fin 8) : Bool :=
  let a := bget s.legs (legA k)
  let b := bget s.legs (legB k)
  let off (l : Leg) : Bool := l.act == .off && !l.brake
  let low (l : Leg) : Bool := l.act == .lowOn || l.brake
  (off a && off b) || (low a && low b)

/-- A two's complement member. -/
def ObjView.int (v : ObjView) (idx sub : Nat) : Int := ((v idx sub).headD 0).toInt

/-- R186. -/
def State.pairCheck (s : State) (k : Fin 8) (v : ObjView) : Bool × State :=
  let x := v.num (pairIdx k)
  let i := v.int (pairIdx k)
  let src := x 0x0D
  let lim (n : Fin 16) : Bool := x 9 = 0 || 16 * x 9 < (v.num (legIdx n) 6 + 1) * 40000
  both (i 0x10 < i 0x11 && i 0x10 ≤ i 0x19 && i 0x19 ≤ i 0x11 &&
      (src < 2 || (x 0x0E ≤ 0x4F && (src = 2 || x 0x0F ≤ 0x4F))) &&
      (x 0x15 % 2 = 0 || (src != 0 && x 0x21 != 2 && v.num (legIdx (legA k)) 9 ≤ 10)) &&
      lim (legA k) && lim (legB k) && (x 0x21 != 3 || x 0x1C ≤ 0x4F) &&
      (x 1 = s.cfg (pairIdx k) 1 || (if s.motor k then (bget s.pairs k).stage == .free || (bget s.pairs k).stage == .held else s.legsRest k)))
    (fun s => if s.motor k then s.riseFits ((s.preview (pairIdx k)).pairCharge k) else (true, s)) s

/-- R221. -/
def State.valveCheck (s : State) (n : Fin 12) (named : List Nat) (v : ObjView) : Bool × State :=
  let x (j : Fin 12) (sub : Nat) : Nat := v.num (valveIdx j) sub
  let bank := (allFin 12).filter fun j => bankOf j = bankOf n
  let holds (c : Fin 12) : Nat := ((bank.filter (· != c)).map fun j => x j 6).sum
  both (x n 6 < x n 5 && x n 8 < x n 7 && bank.all (fun c => decide (x c 5 + holds c ≤ 7200)))
    (fun s => andThen (s.adcFit (.load (.valve n)) (x n 0x11)) fun s =>
      both (s.valveFlowsFit named && s.valveRulesFit v) (fun s => s.riseFits ((s.preview (valveIdx n)).valveCharge n)) s) s

/-- The check of bundle 0x2220 (R221). -/
def State.boostCheck (s : State) (v : ObjView) : Bool × State :=
  both (v.num boostIdx 3 + 5 ≤ v.num boostIdx 2)
    (fun s => if v.num boostIdx 1 = 0 then (true, s) else s.mustFit (s.preview boostIdx).boostCharge) s

/-- R237. -/
def State.sinkCheck (s : State) (n : Fin 24) (v : ObjView) : Bool × State :=
  let x := v.num (sinkIdx n)
  both (x 9 + 1000 ≤ x 0x0A)
    (fun s => andThen (s.adcFit (.load (.sink n)) (x 0x0D)) fun s =>
      s.riseFits ((s.preview (sinkIdx n)).sinkCharge n (s.sinkL n (Nat.max (bget s.sinks n).x (bget s.sinks n).goal)))) s

/-- The words of the chain's image, and of each matrix buffer (R240, R246). -/
def chainArea (v : ObjView) : Nat × Nat := (v.num chainIdx 5, 16 * v.num chainIdx 2)
def matrixArea (v : ObjView) (b : Bool) : Nat × Nat :=
  let cols := v.num matrixIdx 3
  (v.num matrixIdx (if b then 9 else 8), matrixWpr (v.num matrixIdx 4) cols * v.num matrixIdx 2)

/-- An area lies in the frame memory, apart from another. -/
def inFrame (a : Nat × Nat) : Bool := 0x870000 ≤ a.1 && a.1 + a.2 ≤ 0x878000
def apart (a b : Nat × Nat) : Bool := a.1 + a.2 ≤ b.1 || b.1 + b.2 ≤ a.1

/-- The chain image lies apart from both matrix buffers. -/
def framesApart (v : ObjView) : Bool := apart (chainArea v) (matrixArea v false) && apart (chainArea v) (matrixArea v true)

/-- R243. -/
def chainCheck (v : ObjView) : Bool :=
  inFrame (chainArea v) && (v.num chainIdx 1 = 0 || v.num matrixIdx 1 = 0 || framesApart v) &&
    (256 * v.num chainIdx 2 + 5) * lchcQuarters (v.num chainIdx 3) * 5 + 10400 ≤ 2000000 * v.num chainIdx 4

/-- R250. -/
def matrixCheck (v : ObjView) : Bool :=
  let x := v.num matrixIdx
  let t := matrixTimes (x 3) (x 4) (x 5) (x 6) (x 2)
  (if x 4 = 4 then x 2 ≤ 128 && x 3 ≤ 512 else x 2 ≤ 64 && x 3 ≤ 256) &&
    inFrame (matrixArea v false) && inFrame (matrixArea v true) && apart (matrixArea v false) (matrixArea v true) &&
    (v.num chainIdx 1 = 0 || framesApart v) && t.frame + t.row ≤ hundredUs (x 7)

/-- The thresholds and the wake setting of an input (R361, R365). -/
def tholdsOk (v : ObjView) (i : Fin 80) : Bool := v.num (inIdx i) 6 + 1000 ≤ v.num (inIdx i) 7

/-- The wetting charge under new settings must fit (R351). -/
def State.wetFits (s : State) (i : Fin 80) (v : ObjView) : Bool × State :=
  let m := v.num (inIdx i) 1
  match wetCharge s.vnom i (m = 1 || m = 2) (v.num (inIdx i) 3 = 1) with
  | some c => s.mustFit c
  | none => (true, s)

/-- R361. -/
def State.swCheck (s : State) (n : Fin 64) (v : ObjView) : Bool × State :=
  let i : Fin 80 := ⟨n.val, by omega⟩
  let deep := (List.range 64).filter fun k => v.num (0x2300 + k) 8 % 4 = 2
  both (tholdsOk v i && (v.num (inIdx i) 1 != 0 || v.num (inIdx i) 8 = 0) && deep.length ≤ 8) (fun s => s.wetFits i v) s

/-- R365: a pin that is on keeps its mode. -/
def State.ioCheck (s : State) (n : Fin 16) (v : ObjView) : Bool × State :=
  let i : Fin 80 := ⟨64 + n.val, by omega⟩
  let on := (bget s.ios n).on
  both (tholdsOk v i && (!on || v.num (ioIdx n) 1 = s.cfg (ioIdx n) 1))
    (fun s => if on then s.riseFits ((s.preview (ioIdx n)).ioCharge n) else s.wetFits i v) s

/-- R390 but for the contracts of the channel, over the values being committed. -/
def canCheck (ch : Fin 8) (v : ObjView) : Bool :=
  let x := canIdx ch
  let wf := v x 0x11
  let wdat := v x 0x12
  dbtOk (v.num x 2) ((v x 5).headD 0) &&
    (v.num x 0x10 / 4 % 2 = 0 ||
      (fld (wf.getD 0 0) 35 33 = 0 && fld (wf.getD 0 0) 31 29 = 0 && fld (wf.getD 1 0) 35 29 = 0 && fld (wdat.getD 0 0) 31 28 = 0)) &&
    ((allFin 8).filter fun n => v.num (canIdx n) 0x10 % 4 = 2).length ≤ 2 &&
    (v.num x 1 != 3 || (List.range 8).any fun i => ((v x 0x13).getD (2 * i) 0).getLsbD 3)

/-! Loops (R287) -/

/-- An object that a loop may read (R260): its descriptor and the domain that holds it. -/
def loopObjectOk (idx sub : Nat) : Bool :=
  match famOf idx with
  | none => false
  | some (f, _) => match findRow f sub with
    | none => false
    | some row => row.subs && [OType.u8, .u16, .u36, .s36, .fix].contains row.type && [1, 3, 4, 5].contains (famDomain f).val

/-- A source queue of a loop: it holds no contract, so an Ethernet queue is one if some enabled stream feeds it (R260, R405). -/
def loopQueueOk (v : ObjView) (code : Nat) : Bool :=
  if epBlock code = 0x58 then (streams v).any fun x => ethEndpointOk v x.contract code false else endpointOk v 0 code false

/-- A source code is valid (R260). -/
def sourceOk (v : ObjView) (w : Nat) : Bool :=
  match w / 2 ^ 32 with
  | 0 => w = 0
  | 1 => w % 256 = 0 && loopObjectOk (w / 65536 % 65536) (w / 256 % 256)
  | 2 => w % 128 = 0 && loopQueueOk v (w / 65536 % 65536)
  | _ => false

/-- SIG values count 2^−30. -/
def sigOne : Int := 2 ^ 30

/-- A sink code is valid, and the output range lies in its range (R263). -/
def sinkCodeOk (w : Nat) (ymin ymax : Int) : Bool :=
  let n := w % 2 ^ 32
  match w / 2 ^ 32 with
  | 0 => w = 0
  | 1 => n < 72 && 0 ≤ ymin && ymax ≤ sigOne
  | 2 => n < 8 && -sigOne ≤ ymin && ymax ≤ sigOne
  | 3 => n < 24 && 0 ≤ ymin && ymax ≤ sigOne
  | _ => false

/-- R272. -/
def boundsOk (b : List Word) (nreg : Nat) : Bool :=
  let at_ (i : Nat) : Int := (b.getD i 0).toInt
  0 ≤ at_ 7 && (List.range (nreg - 2)).all fun i => at_ i < at_ (i + 1) && 2 * at_ 7 ≤ at_ (i + 1) - at_ i

/-- The consistency check of a loop's bundle, with its admission (R95, R258, R272, R287); it reserves its tile. -/
def State.loopCheck (s : State) (m : Fin 360) (named : List Nat) (v : ObjView) : Bool × State :=
  let x := v.num (loopIdx m)
  let i := v.int (loopIdx m)
  let sources := [x 7, x 0x0A, x 0x0F, x 0x12]
  let stream := sources.any (· / 2 ^ 32 = 2)
  let sole := x 0x18 / 2 ^ 32 = 0 || (allFin 360).all fun j => j = m || v.num (loopIdx j) 2 = 0 || v.num (loopIdx j) 0x18 != x 0x18
  let ok := sources.all (sourceOk v) && sinkCodeOk (x 0x18) (i 0x19) (i 0x1A) && sole && i 0x19 < i 0x1A &&
    i 0x19 ≤ i 0x1F && i 0x1F ≤ i 0x1A && boundsOk (v (loopIdx m) 0x16) (x 0x15) &&
    (x 0x1D = 0 || (stream && x 0x1D + 2000 ≤ x 5)) && x 6 < x 5
  if !ok then (false, s)
  else if x 2 = 0 then (true, s)
  else match s.findTile m (x 5) (x 0x1D != 0) with
    | none => (false, s)
    | some t =>
      if s.loopLanes (s.flowEnv named) named m then
        (true, s.onEng fun e => { e with resv := e.resv.filter (·.loop != m) ++ [{ loop := m, tile := t, ts := x 5, waits := x 0x1D != 0 }] })
      else (false, s)

/-! The check of one bundle, and of a commit -/

/-- The check of a bundle that a commit names, but for contracts (R61). -/
def State.checkBundle (s : State) (named : List Nat) (idx : Nat) : Bool × State :=
  let e := s.flowEnv named
  let v := e.v
  match famOf idx with
  | none => (true, s)
  | some (f, n) =>
    match f with
    | .prof => (s.outputsOff, s)
    | .speed => s.checkTable named v
    | .hs => s.hsCheck (Fin.ofNat 72 n) v
    | .leg => s.legCheck (Fin.ofNat 16 n) v
    | .pair => s.pairCheck (Fin.ofNat 8 n) v
    | .valve => s.valveCheck (Fin.ofNat 12 n) named v
    | .boost => s.boostCheck v
    | .sink => s.sinkCheck (Fin.ofNat 24 n) v
    | .chain => (chainCheck v, s)
    | .matrix => (matrixCheck v, s)
    | .loop => s.loopCheck (Fin.ofNat 360 n) named v
    | .sw => s.swCheck (Fin.ofNat 64 n) v
    | .io => s.ioCheck (Fin.ofNat 16 n) v
    | .an => if v.num idx 1 = 0 then (true, s) else s.adcFit (.an (Fin.ofNat 16 n)) (v.num idx 2)
    | .can => (canCheck (Fin.ofNat 8 n) v && s.flowsFit named (· = canBlk (Fin.ofNat 8 n)), s)
    | .lin => (s.linCheck (Fin.ofNat 8 n) && s.flowsFit named (· = linBlk (Fin.ofNat 8 n)), s)
    | .eth => (s.ethCheck v && s.flowsFit named (· = 0x58), s)
    | .ring => (ringCheck v e.live && s.flowsFit named (· = 0x5D), s)
    | .power => (pwrCheck v, s)
    | .access => (s.accessCheck v && s.extraFits (lfResv v ++ s.adm.extraResv.filter (·.code != 0xAA)), s)
    | .shed => (s.shedCheck v, s)
    | .fault => (faultCheck v, s)
    | .reset => (s.rstCheck v, s)
    | .duo => (s.duoCheck v && (v.num 0x1600 1 = 0 || (ringFits v e.live && s.extraFits (lfResv s.obj ++ s.duoResv v))), s)
    | _ => (true, s)

/-- Numbers in rising order. -/
def sortNats (l : List Nat) : List Nat := l.foldl (fun a x => a.takeWhile (· < x) ++ x :: a.dropWhile (· < x)) []

/-- The check of a commit (R61, R86): the bundles that fail, ascending, and the state with what the checks reserve and report. -/
def State.checkCommit (s : State) (named : List Nat) : List Nat × State :=
  let r := named.foldl (fun (a : List Nat × State) idx =>
    let c := a.2.checkBundle named idx
    (if c.1 then a.1 else a.1 ++ [idx], c.2)) ([], s)
  let f := r.2.checkFlows named
  (sortNats (r.1 ++ f.1), f.2)

/-! What follows an application -/

/-- A bundle has applied: `old` is the state before. -/
def State.followBundle (s old : State) (idx : Nat) : State :=
  match famOf idx with
  | none => s
  | some (f, n) =>
    match f with
    | .prof => ((allFin 80).foldl (fun st i => st.wetFollow i) s).refresh s.boostCharge
    | .contract => s.flowFollow (Fin.ofNat 256 n)
    | .speed => s.tableFollow
    | .hs => s.hsRegrid (Fin.ofNat 72 n)
    | .pair => s.pairBundle old (Fin.ofNat 8 n)
    | .leg => s.pairBundle old (Fin.ofNat 8 (n / 2))
    | .valve => s.refresh (s.valveCharge (Fin.ofNat 12 n))
    | .bank => s.bankFollow (Fin.ofNat 4 n)
    | .boost => s.boostFollow
    | .sink => s.sinkFollow (Fin.ofNat 24 n)
    | .chain => s.chainGo
    | .loop => s.loopFollow (Fin.ofNat 360 n)
    | .sw => let i := Fin.ofNat 80 n; (s.inputFollow i).wetFollow i
    | .io => let i := Fin.ofNat 80 (64 + n); ((s.inputFollow i).wetFollow i).ioFollow (Fin.ofNat 16 n)
    | .can => s.canFollow old (Fin.ofNat 8 n)
    | .lin => s.linFollow (Fin.ofNat 8 n)
    | .eth => s.ethCommitted old.obj
    | .ring => s.ringFollow old.obj
    | .fault => if (alFind (okey faultIdx 1) old.srv.staged).isSome then s.sevRenew else s
    | .access => s.setExtra
    | .shed => s.shedFollow old
    | .reset => s.wdStart
    | .duo => s.duoFollow old.obj
    | _ => s

/-- A bundle waits for a boundary of its owner after the strobe (R61, R243, R250, R390, R462); an owner that does not run has none. -/
def State.atBoundary (s : State) (idx : Nat) : Bool :=
  match famOf idx with
  | none => false
  | some (f, n) =>
    match f with
    | .hs | .leg | .pair | .sink | .loop => true
    | .chain => s.cfgB chainIdx 1
    | .matrix => s.cfgB matrixIdx 1
    | .can => (s.can (Fin.ofNat 8 n)).sends
    | .access => s.acs.poll.isSome
    | _ => false

/-- Bundles of pending commits apply now, together; then each has its consequences, and the bounds of R597 follow. -/
def State.applyNow (s : State) (l : List Nat) : State :=
  if l.isEmpty then s
  else
    let s1 := l.foldl State.applyOwned s
    (l.foldl (fun st idx => st.followBundle s idx) s1).rebound

/-- The strobe of pending commits (R61): what needs no boundary of its own applies. -/
def State.strobeCommits (s : State) : State :=
  let due := (s.srv.commits.filter (·.checked)).flatMap (·.indices)
  let s1 := s.onSrv fun v => { v with commits := v.commits.map fun c => if c.checked then { c with strobed := true } else c }
  s1.applyNow (due.filter fun idx => !s1.atBoundary idx)

/-- At the release of a domain its blocks receive a pending commit whose strobe has passed (R62). -/
def State.releaseCommits (s : State) (d : Fin 7) : State :=
  let due := (s.srv.commits.filter (·.strobed)).flatMap (·.indices)
  s.applyNow (due.filter fun idx => (famOf idx).any fun f => famDomain f.1 == d)

/-! Commits and aborts (R60, R61, R63) -/

/-- Another instance owns a bundle, or its commit is in check or pending. -/
def State.bundleBusy (s : State) (r : Requester) (idx : Nat) : Bool :=
  s.srv.bundles.any (fun b => b.index = idx && (b.owner != r || b.phase != .staging)) || s.srv.commits.any (·.indices.contains idx)

/-- The bundles that an instance's CLIST names, in order. -/
def State.clist (s : State) (r : Requester) : List Nat :=
  match instOf r with
  | none => []
  | some i => ((bget s.srv.insts i).clist.toList.map (·.toNat)).filter (· != 0) |>.eraseDups

/-- A refused commit (R63). -/
def State.refuseCommit (s : State) (r : Requester) (idx code : Nat) : State :=
  s.onInst r fun i => { i with status := 4, refusal := wd (idx * 65536 + code) }

/-- GO = 1: the listed bundles go to their blocks for the check, or the commit is refused (R60, R61, R63). -/
def State.commitStart (s : State) (r : Requester) (hdr : Option ZopHdr) : Code × State :=
  match s.clist r with
  | [] => ((0x07, 0), s)
  | l =>
    match l.find? (s.bundleBusy r) with
    | some idx => ((0x08, 0), s.refuseCommit r idx 0x08)
    | none => (okc, s.onSrv fun v => { v with
        bundles := (v.bundles.filter fun b => !l.contains b.index) ++ l.map fun idx =>
          { index := idx, owner := r, since := ((v.bundles.find? (·.index = idx)).map (·.since)).getD s.now, phase := .checking }
        commits := v.commits ++ [{ owner := r, indices := l, started := s.now, hdr := hdr, checked := false, strobed := false }] })

/-- A bundle with nothing staged has no owner once its commit fails. -/
def Server.unownEmpty (v : Server) (l : List Nat) : Server :=
  { v with bundles := (v.bundles.filter fun b => !(l.contains b.index && (v.stagedOf b.index).isEmpty)).map fun b =>
      if l.contains b.index then { b with phase := .staging } else b }

/-- The check of a commit ends (R61): pending, or refused with 0x09, of which the reports of the checks stay. -/
def State.commitCheck (s : State) (c : Commit) : Code × State :=
  let (bad, t) := s.checkCommit c.indices
  match bad with
  | [] =>
    let s1 := t.onSrv fun v => { v with
      bundles := v.bundles.map fun b => if c.indices.contains b.index then { b with phase := .pending } else b
      commits := v.commits.map fun d => if d = c then { c with checked := true } else d }
    (okc, s1.onInst c.owner fun i => { i with status := 2 })
  | idx :: _ =>
    let s1 := { s with
      flt := t.flt
      adm := { s.adm with ct := t.adm.ct, q := t.adm.q, heldEv := t.adm.heldEv, heldLost := t.adm.heldLost, reason := t.adm.reason
                          rnum := t.adm.rnum } }
    let s2 := s1.onSrv fun v => ({ v with commits := v.commits.filter (· != c) }).unownEmpty c.indices
    ((0x09, 0), s2.refuseCommit c.owner idx 0x09)

/-- GO = 2: the listed bundles that the instance is staging are dropped (R60). -/
def State.commitAbort (s : State) (r : Requester) : Code × State :=
  match s.clist r with
  | [] => ((0x07, 0), s)
  | l =>
    match l.find? (s.bundleBusy r) with
    | some idx => ((0x08, 0), s.onInst r fun i => { i with refusal := wd (idx * 65536 + 0x08) })
    | none =>
      let s1 := s.onSrv fun v => l.foldl (fun u idx => u.dropBundle idx) v
      let s2 := if l.contains 0x2700 then s1.tableDrop else s1
      (okc, s2.onInst r fun i => { i with status := 5 })

/-- An instance's staging ends without a commit (R60): its session closes, its pair is reset, or its time is up. -/
def State.dropStaging (s : State) (p : BundleOwn → Bool) : State :=
  let l := (s.srv.bundles.filter fun b => b.phase == .staging && p b).map (·.index)
  let s1 := s.onSrv fun v => l.foldl (fun u idx => u.dropBundle idx) v
  if l.contains 0x2700 then s1.tableDrop else s1

/-- A commit command: what a requester that may write GO gets (R63). -/
def State.goCmd (s : State) (r : Requester) (v : Nat) (f : State → State) : State :=
  if !s.served r .bundle then s
  else s.accept (.acc { by_ := r, hdr := none, index := 0x10F0, sub := 0x10, value := some [wd v] }) (·.tell r (0x10, 0) []) fun s =>
    let t := s.noteAccess r
    match t.writeCheck r 0x10F0 0x10 [wd v] with
    | .inr c => t.tell r (c, 0) []
    | .inl _ => f t

/-- BUNDLE_COMMIT (R61, R63): a commit that starts is answered when its check is done. -/
def execBundleCommit (r : Requester) (s : State) : Host.Outcome State Fault Refusal :=
  .next (s.goCmd r 1 fun s =>
    let (c, s1) := s.commitStart r none
    if c.1 = 0 then s1 else s1.tell r c [])

/-- BUNDLE_ABORT (R60, R63). -/
def execBundleAbort (r : Requester) (s : State) : Host.Outcome State Fault Refusal :=
  .next (s.goCmd r 2 fun s =>
    let (c, s1) := s.commitAbort r
    s1.tell r c [])

/-- CONSISTENCY_CHECK_DONE (R61): the oldest commit of an instance that is in check; its answer carries STATUS (R72). -/
def execConsistencyCheckDone (r : Requester) (s : State) : Host.Outcome State Fault Refusal :=
  match s.srv.commits.find? fun c => c.owner == r && !c.checked with
  | none => .next s
  | some c =>
    let (k, s1) := s.commitCheck c
    .next (match c.hdr with
    | some h => s1.zopReply r h 3 k [2]
    | none => s1.tell r k [])

/-- STAGING_TIMEOUT (R60, R63): the time limit of the instance's oldest staging bundle, counted from its first staged write. -/
def execStagingTimeout (r : Requester) (s : State) : Host.Outcome State Fault Refusal :=
  match s.srv.bundles.filter fun b => b.owner == r && b.phase == .staging with
  | [] => .next s
  | l =>
    let lim := msT (s.cfg 0x10F0 0x14)
    let first := l.foldl (fun a b => Nat.min a b.since) (2 ^ 72)
    let s1 := s.at (first + lim)
    .next ((s1.dropStaging fun b => b.owner == r && b.since + lim ≤ s1.now).onInst r fun i => { i with status := 6 })

end Sys2Proof.Machine
end

