-- ==== Sys2Proof/Machine/Security.lean ====
section
/-!
DEFINITION. Firmware update, recovery, the tamper-evident log, the key store and debug unlock (R552 to R576).
-/
namespace Sys2Proof.Machine

def updIdx : Nat := 0x1500

def State.onUpd (s : State) (f : Update → Update) : State := { s with upd := f s.upd }
def State.onLog (s : State) (f : LogState → LogState) : State := { s with log := f s.log }
def State.onDbg (s : State) (f : Debug → Debug) : State := { s with dbg := f s.dbg }

/-! The image (R555 to R557) -/

/-- The first word of a bank. -/
def bankBase (b : Fin 2) : Nat := if b = 0 then 0x100000 else 0x200000

/-- Word o of a bank. -/
def State.imgWord (s : State) (b : Fin 2) (o : Nat) : Word := memRead s.mem (bankBase b + o)

/-- LEN, SECVER and SCHEMA of the image in a bank. -/
def State.imgLen (s : State) (b : Fin 2) : Nat := (s.imgWord b 1).toNat
def State.secver (s : State) (b : Fin 2) : Nat := fld (s.imgWord b 2) 35 28
def State.imgSchema (s : State) (b : Fin 2) : Nat := fld (s.imgWord b 2) 27 12

/-- The update key that signed the image in a bank. -/
def State.keyId (s : State) (b : Fin 2) : Nat := fld (s.imgWord b 9) 35 34

/-- A range of LEN that an image may have. -/
def lenOk (n : Nat) : Bool := 0x100 ≤ n && n ≤ 0x100000 && n % 2 = 0

/-- The tables lie within the image. -/
def State.tablesOk (s : State) (b : Fin 2) : Bool :=
  let inside (o n : Nat) : Bool := fld (s.imgWord b o) 35 18 + n ≤ s.imgLen b
  inside 6 (2 * fld (s.imgWord b 6) 17 0) && inside 7 16 && inside 8 (2 * fld (s.imgWord b 8) 17 0)

/-- DIGEST as computed from the words of the image. -/
def State.digestOf (s : State) (b : Fin 2) : BitVec 256 :=
  sha256 (octetImage (memReadN s.mem (bankBase b + 0x40) (s.imgLen b - 0x40)))

/-- VERR of a bank (R557): the first failing check; whether the signature verifies is reported. -/
def State.verify (s : State) (b : Fin 2) (sigOk : Bool) : Byte :=
  if s.imgWord b 0 != 0x964810000 then 1
  else if !lenOk (s.imgLen b) || !s.tablesOk b then 2
  else if memReadN s.mem (bankBase b + 0x10) 8 != digestWords (s.digestOf b) then 3
  else if !sigOk then 4
  else if !s.upd.ukHave.getLsbD (s.keyId b) || s.upd.ukRev.getLsbD (s.keyId b) then 5
  else if s.secver b < s.upd.sv then 6
  else 0

/-! Banks (R558 to R566) -/

def otherBank (b : Fin 2) : Fin 2 := if b = 0 then 1 else 0

def State.bankState (s : State) (b : Fin 2) : BankState := bget s.upd.banks b
def State.setBank (s : State) (b : Fin 2) (x : BankState) : State := s.onUpd fun u => { u with banks := bset u.banks b x }
def State.bankIn (s : State) (x : BankState) : Option (Fin 2) := (allFin 2).find? fun b => s.bankState b = x

/-- The codes of R558. -/
def BankState.code : BankState → Nat
  | .empty => 0 | .writing => 1 | .valid => 2 | .trial => 3 | .confirmed => 4 | .previous => 5 | .invalid => 6

/-- A BOOT record (R569, class 0x02). -/
def State.logBoot (s : State) (code : Nat) (b : Fin 2) : State :=
  s.logEvent 2 [wd (code * 2 ^ 32 + b.val * 2 ^ 31 + s.upd.sv * 2 ^ 23), s.imgWord b 3]

/-- Bits of SV are blown up to SECVER of the CONFIRMED bank (R565, R566). -/
def State.raiseSv (s : State) : State :=
  if !s.upd.svpend then s
  else
    let s0 := s.onUpd fun u => { u with svpend := false }
    match s.bankIn .confirmed with
    | none => s0
    | some b =>
      if s.secver b ≤ s.upd.sv then s0
      else
        let s1 := (((s0.onUpd fun u => { u with sv := s.secver b }).raise 0x0A 1).logBoot 5 b).raiseIf (s.secver b = 255) 0x0A 2
        match s1.bankIn .previous with
        | some p => if s1.secver p < s1.upd.sv then (s1.setBank p .invalid).logBoot 6 p else s1
        | none => s1

/-- BOOTOK (R560): the boot is completed and BFAIL cleared; a rollback is recorded (R566, worked case). -/
def State.bootOk (s : State) : State :=
  let s1 := s.onUpd fun u => { u with booted := true, bfail := 0, coreAt := none, rolled := none }
  match s.upd.rolled with
  | some b => s1.logBoot 2 b
  | none => s1

/-- CONFIRM (R565). -/
def State.confirm (s : State) : State :=
  let b := s.upd.mapped
  if s.bankState b = .trial then
    let s1 := ((s.setBank b .confirmed).setBank (otherBank b) .previous).onUpd fun u => { u with tries := 0, svpend := u.svpend || s.upd.sv < s.secver b }
    let s2 := (s1.onSrv fun v => { v with shadow := none }).bootOk
    (s2.logBoot 1 b).raiseSv
  else s.bootOk

/-- ACTIVATE (R564). -/
def State.activateBank (s : State) : Code × State :=
  match s.bankIn .valid with
  | some b => (okc, ((s.setBank b .trial).onUpd fun u => { u with tries := 0 }).logBoot 0 b)
  | none => ((0x07, 0), s)

/-- ACTIVATE. -/
def execActivate (r : Requester) (s : State) : Host.Outcome State Fault Refusal :=
  .next (s.objCmd r updIdx 3 [1] (·.activateBank))

/-- CONFIRM. -/
def execConfirm (r : Requester) (s : State) : Host.Outcome State Fault Refusal :=
  .next (s.objCmd r updIdx 4 [1] fun t => (okc, t.confirm))

/-- BOOTOK. -/
def execBootok (r : Requester) (s : State) : Host.Outcome State Fault Refusal :=
  .next (s.objCmd r updIdx 5 [1] fun t => (okc, t.bootOk))

/-- BOOTOK_TIMEOUT (R562): kind 10, and a software reset of 0x7C. -/
def execBootokTimeout (s : State) : Host.Outcome State Fault Refusal :=
  .next (match s.upd.coreAt with
  | some t => if s.up 6 && !s.upd.booted && !s.upd.recov then
      ((s.at (t + msT (s.cfg updIdx 0x12))).raise 0x09 10).fireSrc 6 coreReach 6 else s
  | none => s)

/-- The bank of a FAB release (R560, R568): a boot failure is counted first, then the bank is chosen; recovery mode lasts until an image is
activated. -/
def State.selectBank (s : State) : State :=
  let s0 := s.onUpd fun u => { u with banks := ball u.banks fun _ x => if x = .writing then .empty else x }
  let s1 := if s0.upd.booted then s0 else (s0.onUpd fun u => { u with bfail := min 5 (u.bfail + 1) }).raise 0x09 9
  let s2 := (s1.onUpd fun u => { u with booted := false, checked := false, busy := .none }).raiseSv
  let rest (t : State) : State :=
    if t.upd.recov || t.upd.bfail = 5 || ((t.bankIn .confirmed).isNone && (t.bankIn .previous).isNone) then
      (if t.upd.recov then t else (t.onUpd fun u => { u with recov := true }).logBoot 3 t.upd.mapped)
    else
      let b := ((t.bankIn .confirmed).orElse fun _ => t.bankIn .previous).getD 0
      t.onUpd fun u => { u with mapped := b, recov := false }
  match s2.bankIn .trial with
  | some b =>
    if s2.upd.tries < 3 then (s2.onUpd fun u => { u with tries := u.tries + 1, mapped := b, recov := false }).raise 0x09 7
    else
      let s3 := (s2.setBank b .invalid).onUpd fun u => { u with tries := 0, bfail := 0, rolled := some b, rolls := satInc u.rolls }
      let s4 := (match s3.srv.shadow with
        | some (st, sch) => s3.onSrv fun v => { v with saved := st, schema := sch, shadow := none }
        | none => s3).raise 0x09 8
      rest s4
  | none => rest s2

/-- ROM_BOOT_VERIFY_DONE (R557, R561, R575): pair A starts pair B at ENTRYB and jumps to ENTRYA, or a bank falls and a software reset of 0x7C
fires. -/
def execRomBootVerifyDone (verr : Byte) (s : State) : Host.Outcome State Fault Refusal :=
  .next (if !s.up 6 || !s.upd.rom || s.upd.recov || (bget s.cores 0).run = .reset then s
  else
    let b := s.upd.mapped
    let code := s.verify b (verr != 4)
    let s0 := s.onUpd fun u => { u with rom := false, verr := code }
    if code = 0 then
      let s1 := s0.onUpd fun u => { u with checked := true }
      let entry (o : Nat) : Addr := BitVec.ofNat 24 (s.imgWord b o).toNat
      (s1.onCore 0 fun c => { c with pc := entry 4 }).onCore 1 fun c =>
        if c.run = .reset then c else { c with pc := entry 5, run := if c.run = .halted then .halted else .running }
    else
      let s1 := ((s0.setBank b .invalid).logBoot 6 b).raise 0x0A 0
      let o := otherBank b
      let s2 := if s.bankState b != .trial && s.bankState o = .previous then s1.setBank o .confirmed else s1
      s2.fireSrc 6 coreReach 6)

/-! Download (R563, R568) -/

/-- BLOCK_START on IMAGE (R563). -/
def State.imageStart (s : State) (r : Requester) (len : Nat) : Code × State :=
  let b := otherBank s.upd.mapped
  if s.upd.busy != .none then ((0x10, 0), s)
  else if (s.bankIn .trial).isSome || s.bankState b = .confirmed || !lenOk len then ((0x07, 0), s)
  else (okc, (s.setBank b .writing).onUpd fun u => { u with busy := .erasing r, written := 0 })

/-- The words of an accepted segment are programmed in order. -/
def State.imageSeg (s : State) (ws : List Word) : State :=
  let b := otherBank s.upd.mapped
  (s.onMem fun m => memWriteN m (bankBase b + s.upd.written) ws).onUpd fun u => { u with written := u.written + ws.length }

/-- The erase is complete. -/
def State.imageErased (s : State) : State :=
  let a := bankBase (otherBank s.upd.mapped)
  (s.onMem fun m => m.filter fun e => e.1 < a || a + 0x100000 ≤ e.1).onUpd fun u => { u with busy := .loading }

/-- The end of the transfer: a correct one starts the verification, a broken one leaves the bank EMPTY. -/
def State.imageEnd (s : State) (ok : Bool) : State :=
  if ok then s.onUpd fun u => { u with busy := .verifying }
  else (s.setBank (otherBank s.upd.mapped) .empty).onUpd fun u => { u with busy := .none }

/-- IMAGE_VERIFY_DONE (R563, R568): VALID with an UPDATE record, or EMPTY with kind 0; in recovery mode the bank becomes TRIAL and a
reset of 0x7C fires. -/
def execImageVerifyDone (verr : Byte) (s : State) : Host.Outcome State Fault Refusal :=
  .next (if s.upd.busy != .verifying then s
  else
    let b := otherBank s.upd.mapped
    let code := s.verify b (verr != 4)
    let s1 := s.onUpd fun u => { u with busy := .none, verr := code }
    if code != 0 then (s1.setBank b .empty).raise 0x0A 0
    else
      let w0 := wd (b.val * 2 ^ 35 + s.secver b * 2 ^ 27 + s.imgSchema b * 2 ^ 11)
      let s2 := ((s1.setBank b .valid).onUpd fun u => { u with updates := satInc u.updates }).logEvent 1
        ([w0, s.imgWord b 3] ++ memReadN s.mem (bankBase b + 0x10) 8)
      if s.upd.recov then
        (((s2.setBank b .trial).onUpd fun u => { u with tries := 0, bfail := 0 }).logBoot 4 b).fireSrc 6 coreReach 6
      else s2)

/-! Migration (R83, R84) -/

/-- A value rescaled by a power of two. -/
def rescale (signedType : Bool) (shift : Int) (v : Val) : Val :=
  match v with
  | [w] => [if 0 ≤ shift then w <<< shift.toNat else if signedType then w.sshiftRight shift.natAbs else w >>> shift.natAbs]
  | [h, l] =>
    let x : BitVec 72 := h ++ l
    let y := if 0 ≤ shift then x <<< shift.toNat else x >>> shift.natAbs
    [(y >>> 36).truncate 36, y.truncate 36]
  | l => l

/-- The row type of an object is signed. -/
def isSigned (idx sub : Nat) : Bool :=
  match famOf idx with
  | some (f, _) => match findRow f sub with
    | some r => r.type == .s36 || r.type == .fix
    | none => false
  | none => false

/-- The object that an entry of the migration table names. -/
def migKey (e : Word × Word) : ObjKey := okey (fld e.1 35 20) (fld e.1 19 12)

/-- A saved object. -/
def isSaved (k : ObjKey) : Bool := (rowOf (k / 256) (k % 256)).any (·.persist == .saved)

/-- One entry of the migration table on the set so far: its object moves, moves rescaled, takes its default, or is dropped; the count is that of the objects
set to default. -/
def migEntry (old : ObjStore) (acc : ObjStore × Nat) (e : Word × Word) : ObjStore × Nat :=
  let k := migKey e
  let v := storeVal old (k / 256) (k % 256)
  let to_ (x : Val) : ObjStore := storeSet acc.1 (fld e.2 35 20) (fld e.2 19 12) x
  match fld e.1 11 8 with
  | 0 => (to_ v, acc.2)
  | 1 => (to_ (rescale (isSigned (k / 256) (k % 256)) (BitVec.ofNat 8 (fld e.1 7 0)).toInt v), acc.2)
  | 2 => (acc.1, acc.2 + 1)
  | _ => acc

/-- The saved set under a migration table: a saved object without an entry keeps its value; the first entry of every other acts on the value that it has
in the old set, be it its default. -/
def migrate (tab : List (Word × Word)) (old : ObjStore) : ObjStore × Nat :=
  let first := tab.foldl (fun l e => if l.any fun f => migKey f = migKey e then l else l ++ [e]) []
  (first.filter fun e => isSaved (migKey e)).foldl (migEntry old) (old.filter fun x => !(tab.any fun e => migKey e = x.1), 0)

/-- MIGTAB of the mapped bank (R556). -/
def State.migTab (s : State) : List (Word × Word) :=
  let b := s.upd.mapped
  let w := s.imgWord b 8
  (List.range (fld w 17 0)).map fun i => (s.imgWord b (fld w 35 18 + 2 * i), s.imgWord b (fld w 35 18 + 2 * i + 1))

/-- The object server at a FAB release (R83, R84): it migrates the saved set of an older schema; of a newer one it takes the shadow copy
that matches, or defaults. -/
def State.migrateSaved (s : State) : State :=
  let old := s.srv.schema
  let new := s.imgSchema s.upd.mapped
  let note (t : State) (st : Nat) : State := t.logEvent 7 [wd (old * 2 ^ 20 + new * 2 ^ 4 + st)]
  if s.upd.recov || new = old then s.onSrv fun v => { v with migState := 0, migDefs := 0 }
  else if old < new then
    let (st, n) := migrate s.migTab s.srv.saved
    let ms := if n = 0 then 1 else 2
    note (s.onSrv fun v => { v with
      saved := st, schema := new, shadow := some (v.saved, old), migState := BitVec.ofNat 8 ms, migDefs := BitVec.ofNat 16 n }) ms
  else match s.srv.shadow with
    | some (st, sch) => if sch = new then s.onSrv fun v => { v with saved := st, schema := sch, shadow := none, migState := 0, migDefs := 0 }
      else note (s.onSrv fun v => { v with saved := [], schema := new, migState := 3, migDefs := 0 }) 3
    | none => note (s.onSrv fun v => { v with saved := [], schema := new, migState := 3, migDefs := 0 }) 3

/-! Keys (R552, R554) -/

/-- Slot 0 is writable only by debug or in a session of slot 0. -/
def State.slotZeroOk (s : State) : Requester → Bool
  | .debug => true
  | .session i => (bget s.srv.sess i).any fun x => x.slot = 0
  | _ => false

/-- A class 0x0A record and kind 9. -/
def State.logKey (s : State) (r : Requester) (slot : Nat) (aes loaded : Bool) : State :=
  (s.logEvent 0x0A [wd (slot * 2 ^ 28 + b1 aes * 2 ^ 27 + b1 loaded * 2 ^ 26 + (reqClass r).code * 2 ^ 24)]).raise 0x0A 9

/-- A key enters its slot. -/
def State.keyLoad (s : State) (r : Requester) (slot : Nat) (key : BitVec 128) : Code × State :=
  if h : slot < 32 then
    if slot = 0 && !s.slotZeroOk r then ((0x03, 0), s)
    else (okc, (s.onUpd fun u => { u with keys := bset u.keys ⟨slot, h⟩ (some key) }).logKey r slot true true)
  else ((0x07, 0), s)

/-- The key of a KEYLOAD value. -/
def keyOf (v : Val) : BitVec 128 := BitVec.ofNat 128 (((List.range 4).map fun i => fld (v.getD (i + 1) 0) 31 0).foldl (fun a x => a * 2 ^ 32 + x) 0)

def State.keyClear (s : State) (r : Requester) (slot : Nat) : Code × State :=
  if h : slot < 32 then
    if slot = 0 then ((0x07, 0), s)
    else (okc, (s.onUpd fun u => { u with keys := bset u.keys ⟨slot, h⟩ none }).logKey r slot true false)
  else ((0x07, 0), s)

/-- UKREV: refused for the key of the CONFIRMED bank. -/
def State.revoke (s : State) (r : Requester) (k : Nat) : Code × State :=
  if 3 < k || (s.bankIn .confirmed).any (fun b => s.keyId b = k) then ((0x07, 0), s)
  else (okc, (s.onUpd fun u => { u with ukRev := u.ukRev ||| BitVec.ofNat 4 (2 ^ k) }).logKey r k false false)

/-- KEYLOAD. -/
def execKeyload (r : Requester) (slot : Byte) (key : BitVec 128) (s : State) : Host.Outcome State Fault Refusal :=
  let w0 : Word := wd (slot.toNat * 2 ^ 28)
  let ws := (List.range 4).map fun i => wd (key.toNat / 2 ^ (96 - 32 * i) % 2 ^ 32)
  .next (s.objCmd r updIdx 0x0A (w0 :: ws) fun t => t.keyLoad r slot.toNat key)

/-- KEYCLR. -/
def execKeyclr (r : Requester) (v : Byte) (s : State) : Host.Outcome State Fault Refusal :=
  .next (s.objCmd r updIdx 0x0C [wd v.toNat] fun t => t.keyClear r v.toNat)

/-- UKREV. -/
def execUkrev (r : Requester) (v : Byte) (s : State) : Host.Outcome State Fault Refusal :=
  .next (s.objCmd r updIdx 0x0D [wd v.toNat] fun t => t.revoke r v.toNat)

/-! The event log (R569 to R572) -/

/-- The octets of a digest, bit 255 first. -/
def digestOctets (h : BitVec 256) : List Byte := (List.range 32).map fun i => BitVec.ofNat 8 (h.toNat / 2 ^ (248 - 8 * i))

/-- The 9 octets of SERIAL. -/
def State.serialOctets (s : State) : List Byte := octetImage (s.obj 0x1000 4)

/-- H before the first record. -/
def State.chainStart (s : State) : BitVec 256 := sha256 s.serialOctets

/-- H of the newest record. -/
def State.chainNow (s : State) : BitVec 256 := if s.log.next = 0 then s.chainStart else s.log.chain

/-- A record is written into the next slot with its chain hash and signature (R569). -/
def State.appendRec (s : State) (r : LogRec) : State :=
  let body : List Word :=
    [wd (r.cls * 2 ^ 28 + (r.payload.take 12).length * 2 ^ 24 + r.drop * 2 ^ 12), s.log.next, (r.time >>> 36).truncate 36, r.time.truncate 36] ++
      (r.payload ++ List.replicate 12 0).take 12
  let h := sha256 (digestOctets s.chainNow ++ octetImage body)
  let sig := (List.range 16).map fun i => ((Config.logSign h).getD i 0).zeroExtend 36
  let slot := s.log.slot
  (s.onMem fun m => memWriteN m (0x404000 + 32 * slot) (body ++ sig)).onLog fun l => { l with
    next := l.next + 1, head := 32 * slot, slot := (slot + 1) % 1024, filled := min 1024 (l.filled + 1), chain := h
    ends := if slot % 32 = 31 then bset l.ends (Fin.ofNat 32 (slot / 32)) h else l.ends, records := satInc l.records }

/-- Where a sector has one free slot left and the next sector holds records, a truncation record fills it and the next sector is erased
(R571). -/
def State.truncateLog (s : State) : State :=
  let slot := s.log.slot
  let sec := (slot / 32 + 1) % 32
  if slot % 32 != 31 || s.log.filled < 992 then s
  else
    let a := 0x404000 + 1024 * sec
    let last := memRead s.mem (a + 32 * 31 + 1)
    let trunc : LogRec := { cls := 8, time := s.time.time, drop := 0,
                            payload := [last + 1, last] ++ digestWords (bget s.log.ends (Fin.ofNat 32 sec)) }
    let s1 := s.appendRec trunc
    ((s1.onMem fun m => m.filter fun e => e.1 < a || a + 1024 ≤ e.1).onLog fun l => { l with
      filled := l.filled - 32, oldest := last + 1, truncs := satInc l.truncs }).raise 0x0A 5

/-- The oldest queued record is appended. -/
def State.appendNext (s : State) : State :=
  match s.log.queue with
  | [] => s
  | r :: q => ((s.onLog fun l => { l with queue := q }).appendRec r).truncateLog

/-- LOG_APPEND (R570): a failed append raises kind 3 and leaves the record first in the queue. -/
def execLogAppend (ok : Bool) (s : State) : Host.Outcome State Fault Refusal :=
  .next (if !s.up 2 || s.log.queue.isEmpty then s else if ok then s.appendNext else s.raise 0x0A 3)

/-- The check of the newest record at a power-on release (R572): whether a record that was being appended when the supply went stands
broken in its slot is a free value, and so are its words. -/
def State.checkLog (s : State) : State :=
  if !s.log.check then s
  else
    let s0 := s.onLog fun l => { l with check := false }
    if s.log.queue.isEmpty then s0
    else
      let (i, s1) := s0.draw
      let s2 := s1.onLog fun l => { l with queue := [] }
      if (Config.freeWord i).getLsbD 0 then
        let broken := (List.range 32).map fun j => Config.freeWord (s2.free + j)
        let slot := s2.log.slot
        let s3 : State := { s2 with free := s2.free + 32 }
        let s4 := (s3.onMem fun m => memWriteN m (0x404000 + 32 * slot) broken).onLog fun l => { l with
          next := l.next + 1, head := 32 * slot, slot := (slot + 1) % 1024, filled := min 1024 (l.filled + 1), chain := s3.chainNow }
        ((s4.appendRec { cls := 9, time := s4.time.time, drop := 0, payload := [s2.log.next] }).truncateLog).raise 0x0A 11
      else s2

/-! Debug (R573, R574) -/

/-- Instructions that act only after an unlock, or while LCS is FACTORY (R554). -/
def State.dbgOpen (s : State) : Bool := s.dbg.level = 1 || s.dbg.level = 2 || !s.upd.field

/-- Halt, writes and the debug reset. -/
def State.dbgFull (s : State) : Bool := s.dbg.level = 2 || !s.upd.field

/-- The port answers while the device is powered. -/
def State.jtag (s : State) (f : State → State) : State := if s.pwr.mode = .off then s else f s

/-- An instruction selects a register; a locked one selects BYPASS. -/
def State.selectIr (s : State) (ir : BitVec 6) (out : BitVec 136) : State := s.onDbg fun d => { d with ir := ir, out := out }

/-- BYPASS. -/
def execBypass (s : State) : Host.Outcome State Fault Refusal := .next (s.jtag fun t => t.selectIr 0x3F 0)

/-- IDCODE: stepping number, device, manufacturer. -/
def execIdcode (s : State) : Host.Outcome State Fault Refusal :=
  .next (s.jtag fun t => t.selectIr 0x01 (BitVec.ofNat 136 (t.cfg 0x1000 2 % 16 * 2 ^ 28 + 0x9648 * 2 ^ 12 + 0x2C5 * 2 + 1)))

/-- SAMPLE/PRELOAD: the boundary as sampled is a free value (log 7). -/
def execSamplePreload (s : State) : Host.Outcome State Fault Refusal :=
  .next (s.jtag fun t => let (i, t1) := t.draw; t1.selectIr 0x02 ((Config.freeWord i).zeroExtend 136))

/-- EXTEST: only after an unlock. -/
def execExtest (s : State) : Host.Outcome State Fault Refusal :=
  .next (s.jtag fun t => if t.dbgOpen then t.selectIr 0x00 t.dbg.out else t.selectIr 0x3F 0)

/-- DCHAL: a fresh challenge. -/
def execDchal (s : State) : Host.Outcome State Fault Refusal :=
  .next (s.jtag fun t => if !t.up 2 then t else
    let g (k : Nat) : Nat := (Config.freeWord (t.free + k)).toNat % 2 ^ 32
    let c : BitVec 128 := BitVec.ofNat 128 (((g 0 * 2 ^ 32 + g 1) * 2 ^ 32 + g 2) * 2 ^ 32 + g 3)
    { t with free := t.free + 4, dbg := { t.dbg with ir := 0x10, out := c.zeroExtend 136, chal := some c } })

/-- The response that a challenge and a level call for. -/
def State.respFor (s : State) (c : BitVec 128) (level : Nat) : Option (BitVec 128) :=
  (bget s.upd.keys (Fin.ofNat 32 (s.cfg updIdx 0x10))).map fun key =>
    cmac key ((List.range 16).map (fun i => BitVec.ofNat 8 (c.toNat / 2 ^ (120 - 8 * i))) ++ s.serialOctets ++ [BitVec.ofNat 8 level])

/-- A class 0x04 record. -/
def State.logDebug (s : State) (code level : Nat) : State := s.logEvent 4 [wd (code * 2 ^ 32 + level * 2 ^ 30)]

/-- DRESP (R570, R574): level 0 locks; a right response unlocks where its record can be queued; a wrong one counts, and the third refuses until
power-on. -/
def execDresp (level : BitVec 2) (mac : BitVec 128) (s : State) : Host.Outcome State Fault Refusal :=
  .next (s.jtag fun t0 =>
    let t := t0.onDbg fun d => { d with ir := 0x11 }
    if !t.up 2 || t.dbg.level = 3 then t
    else if level = 0 then t.onDbg fun d => { d with level := 0 }
    else
      let right := level != 3 && t.dbg.chal.any fun c => t.respFor c level.toNat == some mac
      let t1 := t.onDbg fun d => { d with chal := none }
      if right && 32 ≤ t.log.queue.length then t
      else if right then ((t1.onDbg fun d => { d with level := Fin.ofNat 4 level.toNat }).logDebug 0 level.toNat).raise 0x0A 6
      else
        let t2 := ((t1.onDbg fun d => { d with wrong := d.wrong + 1 }).raise 0x0A 7).logDebug 1 level.toNat
        if t.dbg.wrong + 1 < 3 then t2
        else ((t2.onDbg fun d => { d with level := 3 }).logDebug 2 level.toNat).raise 0x0A 8)

/-- LCS is blown to FIELD, by debug alone (R554). -/
def State.toField (s : State) : State := if s.upd.field then s else (s.onUpd fun u => { u with field := true }).logDebug 3 0

/-! Words -/

/-- UPDST (obj 0x1500.02). -/
def State.updst (s : State) : Word :=
  let u := s.upd
  wd ((bget u.banks 0).code * 2 ^ 32 + (bget u.banks 1).code * 2 ^ 28 + b1 (u.busy != .none) * 2 ^ 27 + u.mapped.val * 2 ^ 26 +
    u.tries * 2 ^ 24 + u.bfail * 2 ^ 21 + b1 u.recov * 2 ^ 20 + b1 u.svpend * 2 ^ 19 + u.verr.toNat * 2 ^ 16)

/-- KEYST. -/
def State.keyst (s : State) : Word := wd ((allFin 32).foldl (fun a k => a + b1 (bget s.upd.keys k).isSome * 2 ^ k.val) 0)

end Sys2Proof.Machine
end

