-- ==== Sys2Proof/Machine/Read.lean ====
section
/-!
DEFINITION. What an object reads (R49, R56): the applied value of a stored object, and the values that the blocks compute, family by
family as their object tables give them.
-/
namespace Sys2Proof.Machine

/-- A value of one word. -/
def one (n : Nat) : Option Val := some [wd n]
def oneW (w : Word) : Option Val := some [w]

/-- A U16 that stops at its largest value. -/
def satU16 (n : Nat) : Nat := Nat.min n 0xFFFF

/-- Whether an item drives SENSEOUT (R140). -/
def State.soutOn (s : State) (i : SenseItem) : Option Val := one (b1 (s.sout == some i))

/-- R66: SCHEMA, MIG_STATE, MIG_DEFAULTS. -/
def State.identValue (s : State) (sub : Nat) : Option Val :=
  match sub with
  | 5 => one (s.imgSchema s.upd.mapped)
  | 6 => one s.srv.migState.toNat
  | 7 => one s.srv.migDefs.toNat
  | _ => none

/-- R63: the requester's own copy. -/
def State.instValue (s : State) (r : Requester) (sub : Nat) : Option Val :=
  match instOf r with
  | none => none
  | some i =>
    let c := bget s.srv.insts i
    match sub with
    | 0x11 => one c.status.toNat
    | 0x12 => oneW c.refusal
    | 0x13 => oneW c.gen
    | _ => if 1 ≤ sub && sub ≤ 8 then one (bget c.clist (Fin.ofNat 8 (sub - 1))).toNat else none

/-- R88. -/
def State.ctValue (s : State) (n : Fin 256) (sub : Nat) : Option Val :=
  let c := s.ct n
  match sub with
  | 0x10 => one c.state.toNat
  | 0x11 => oneW c.cbound
  | 0x12 => one c.reason.toNat
  | 0x13 => one c.rport.toNat
  | 0x14 => one c.tags.toNat
  | 0x15 => oneW c.misses
  | 0x16 => oneW c.lastMiss
  | 0x17 => one c.hurt.toNat
  | _ => none

/-- R114. -/
def State.speedValue (s : State) (sub : Nat) : Option Val :=
  match sub with
  | 7 => one s.flagsNow
  | 8 => one (rulesOn (s.obj 0x2700 1)).length
  | 9 => one s.adm.reason.toNat
  | 0x0A => one s.adm.rnum.toNat
  | 0x0B => oneW s.adm.fired
  | 0x0C => one (b1 s.adm.unres)
  | _ => none

/-- R145. -/
def State.hsValue (s : State) (ch : Fin 72) (sub : Nat) : Option Val :=
  let c := bget s.hs ch
  match sub with
  | 2 => one (match c.base with | some b => b.cmd | none => c.cmd).code
  | 4 => oneW (s.hsStatus ch)
  | 5 => one (s.hsSense ch).toNat
  | 0x16 => s.soutOn (.hs ch)
  | 0x20 => oneW c.trips
  | 0x21 => one c.lastry.toNat
  | 0x22 => oneW c.oncount
  | _ => none

/-- R183. -/
def State.legValue (s : State) (n : Fin 16) (sub : Nat) : Option Val :=
  let l := bget s.legs n
  match sub with
  | 1 => one (match l.base with | some b => b.cmd | none => l.cmd).value
  | 3 => oneW (s.legStatus n)
  | 4 => one (s.legSense n).toNat
  | 0x0B => s.soutOn (.leg n)
  | 0x20 => oneW l.trips
  | _ => none

/-- R185. -/
def State.pairValue (s : State) (k : Fin 8) (sub : Nat) : Option Val :=
  let p := bget s.pairs k
  match sub with
  | 2 => oneW p.word
  | 3 => oneW (s.pairStatus k)
  | 4 => one (s.pairSense k).toNat
  | 5 => s.soutOn (.pair k)
  | 0x30 => oneW p.stalls
  | 0x31 => oneW p.pinches
  | 0x32 => oneW p.runs
  | _ => none

/-- R220. -/
def State.valveValue (s : State) (n : Fin 12) (sub : Nat) : Option Val :=
  let v := bget s.vd n
  match sub with
  | 1 => one (b1 (match v.base with | some b => b.cmd | none => v.cmd))
  | 3 => oneW (s.valveStatus n)
  | 4 => one (s.valveSense n).toNat
  | 0x14 => s.soutOn (.valve n)
  | 0x20 => one v.tpi.toNat
  | 0x21 => one v.trel.toNat
  | 0x22 => one v.epkl.toNat
  | 0x23 => one v.erecl.toNat
  | 0x24 => one v.rfrac.toNat
  | 0x25 => oneW v.acts
  | 0x26 => oneW v.nopulls
  | 0x27 => oneW v.trips
  | _ => none

/-- R221: banks. -/
def State.bankValue (s : State) (b : Fin 4) (sub : Nat) : Option Val :=
  let k := bget s.vb b
  match sub with
  | 2 => oneW (s.bankStatus b)
  | 4 => oneW k.peaks
  | 5 => oneW k.refused
  | 6 => oneW k.batpks
  | _ => none

/-- R221: the boost converter. -/
def State.boostValue (s : State) (sub : Nat) : Option Val :=
  match sub with
  | 7 => one (satU16 s.boost.vout)
  | 8 => one s.boost.cest.toNat
  | 9 => one s.bstat
  | 0x0B => oneW s.boost.edraw
  | 0x0C => oneW s.boost.erect
  | _ => none

/-- R236. -/
def State.sinkValue (s : State) (n : Fin 24) (sub : Nat) : Option Val :=
  let k := bget s.sinks n
  match sub with
  | 1 => one k.last
  | 4 => oneW (s.sinkStatus n)
  | 5 => one (s.sinkSense n).toNat
  | 0x0F => s.soutOn (.sink n)
  | 0x20 => one k.x
  | _ => none

/-- R242: the chain; its image lies in the frame memory. -/
def State.chainValue (s : State) (sub : Nat) : Option Val :=
  match sub with
  | 9 => one (b1 s.chain.cgo)
  | 0x0A => some (memReadN s.mem (s.cfg chainIdx 5) (16 * s.cfg chainIdx 2))
  | 0x0C => oneW s.cstat
  | 0x20 => oneW s.chain.refresh
  | _ => none

/-- R249: the matrix. -/
def State.matrixValue (s : State) (sub : Nat) : Option Val :=
  match sub with
  | 0x0F => one (b1 (s.matrix.pend.getD s.matrix.shown))
  | 0x10 => oneW s.mstat
  | 0x20 => oneW s.matrix.frames
  | 0x21 => oneW s.matrix.slips
  | _ => none

/-- R286. -/
def State.loopValue (s : State) (m : Fin 360) (sub : Nat) : Option Val :=
  let l := s.loop m
  match sub with
  | 1 => if l.safe.isSome then one 3 else none
  | 3 => oneW (s.loopStatus m)
  | 0x30 => oneW (BitVec.ofInt 36 l.y)
  | 0x31 => oneW (BitVec.ofInt 36 l.fbv)
  | 0x32 => oneW (BitVec.ofInt 36 l.resid)
  | 0x33 => one l.core.region.val
  | 0x34 => one l.placeWord
  | 0x35 => oneW l.ovrs
  | 0x36 => oneW l.invs
  | 0x37 => oneW l.steps
  | 0x38 => some (stateWords l.core.i)
  | _ => none

/-- R360. -/
def State.swValue (s : State) (n : Fin 64) (sub : Nat) : Option Val :=
  let i : Fin 80 := ⟨n.val, by omega⟩
  let u := bget s.inputs i
  match sub with
  | 0x0B => one u.rep.code
  | 0x0C => oneW (s.swStatus i)
  | 0x20 => oneW u.changes
  | 0x21 => oneW u.fallbks
  | _ => none

/-- R364. -/
def State.ioValue (s : State) (n : Fin 16) (sub : Nat) : Option Val :=
  let u := bget s.inputs ⟨64 + n.val, by omega⟩
  let p := bget s.ios n
  match sub with
  | 9 => one (b1 p.cmd)
  | 0x0C => one u.rep.code
  | 0x0D => oneW (s.ioStatus n)
  | 0x20 => oneW u.changes
  | 0x21 => oneW p.trips
  | _ => none

/-- R371. -/
def State.anValueOf (s : State) (n : Fin 16) (sub : Nat) : Option Val :=
  match sub with
  | 4 => one (bget s.ans n).raw.toNat
  | 5 => one (satU16 (s.anValue n))
  | 6 => oneW (s.anStatus n)
  | 7 => oneW (s.anPlace n)
  | 0x20 => oneW (bget s.ans n).samples
  | _ => none

/-- R390. -/
def State.canValue (s : State) (ch : Fin 8) (sub : Nat) : Option Val :=
  let c := s.can ch
  match sub with
  | 0x16 => one c.abdres.toNat
  | 0x17 => oneW (s.cstatCan ch)
  | 0x20 => oneW c.rxok
  | 0x21 => oneW c.txok
  | 0x22 => oneW c.errs
  | 0x23 => oneW c.busoffs
  | 0x24 => oneW c.unmatch
  | 0x25 => oneW c.drops
  | _ => none

/-- R395. -/
def State.linValue (s : State) (ch : Fin 8) (sub : Nat) : Option Val :=
  let c := s.lin ch
  match sub with
  | 7 => oneW (s.lstat ch)
  | 0x20 => oneW c.rxok
  | 0x21 => oneW c.txok
  | 0x22 => oneW c.errs
  | 0x23 => oneW c.colls
  | _ => none

/-- The two words of a U72. -/
def two (v : BitVec 72) : Option Val := some [(v >>> 36).truncate 36, v.truncate 36]

/-- R419. -/
def State.ethValue (s : State) (sub : Nat) : Option Val :=
  match sub with
  | 0x0F => oneW s.eth.ptpOfs
  | 0x10 => two s.eth.gmid
  | 0x11 => oneW s.ethStatus
  | 0x20 => some s.ethCounts
  | 0x21 => oneW s.eth.remap
  | _ => none

/-- R420. -/
def State.ringValue (s : State) (sub : Nat) : Option Val :=
  let r := s.ring
  match sub with
  | 7 => oneW s.ringStat
  | 8 => oneW r.order
  | 9 => one r.rtrip
  | 0x20 => oneW r.cycs
  | 0x21 => oneW r.errs
  | 0x22 => oneW r.cviol
  | 0x23 => oneW r.lost
  | 0x24 => oneW r.orphans
  | _ => none

/-- R444. -/
def State.pwrValue (s : State) (sub : Nat) : Option Val :=
  let p := s.pwr
  match sub with
  | 1 => one p.req.toNat
  | 2 => one s.pwrState
  | 6 => one p.wtimer
  | 7 => oneW p.wcause
  | 8 => oneW p.wstamp
  | 9 => oneW p.lastref
  | 0x0A => some p.refcnt.toList
  | 0x0B => some p.reflog
  | 0x1A => one (b1 p.keep)
  | 0x1C => one p.gen.toNat
  | 0x1D => oneW s.dstat
  | 0x1E => some ((List.range 16).map fun i => wd ((p.excl.getD i 0).toNat))
  | 0x20 => oneW p.entries
  | 0x21 => oneW p.wakes
  | 0x22 => oneW p.rounds
  | 0x23 => oneW p.ovrs
  | _ => none

/-- R461. -/
def State.acsValue (s : State) (sub : Nat) : Option Val :=
  let a := s.acs
  match sub with
  | 0x0E => oneW a.result
  | 0x0F => oneW s.accessStatus
  | 0x10 => one a.fails.toNat
  | 0x11 => one s.lockRem
  | 0x12 => oneW a.laststamp
  | 0x20 => oneW a.polls
  | 0x21 => oneW a.grants
  | 0x22 => oneW a.denials
  | 0x23 => oneW a.locks
  | _ => none

/-- The charged rise of a group in 0.1 K: RTH × Σ P (R476). -/
def State.groupRise (s : State) (g : Nat) : Nat :=
  satU16 (rth g * sumNw s s.sup.gfact s.sup.mfact ((s.ledger s.adm.charges).filter (groupOf ·.code == g)) / 255000000000)

/-- The cap of a group in 0.1 K (R476). -/
def State.groupCap (s : State) : Nat := satU16 (85 * (2800 - s.tc) * 10 / 1600).toNat

/-- The eight factors of a row; class 0 has none (R477). -/
def factWords (b : Bank Byte 8) : List Word := (allFin 8).map fun c => if c = 0 then 255 else wd (bget b c).toNat

/-- R482. -/
def State.shedValue (s : State) (sub : Nat) : Option Val :=
  let l := s.ledger s.adm.charges
  match sub with
  | 7 => one (satU16 s.sup.vbat)
  | 8 => oneW s.supStat
  | 9 => one (sumNa s s.sup.gfact s.sup.mfact l / 255000000)
  | 0x0A => one ((612000000000 + sumNw s s.sup.gfact s.sup.mfact l) / 255000000)
  | 0x0B => one (85 * moduleCap s.tc / 1600).toNat
  | 0x0C => oneW (BitVec.ofInt 36 s.sup.tcase)
  | 0x0D => some (factWords s.sup.mfact)
  | 0x0E => some ((List.range 4).map fun h => wd (s.groupRise (9 + h)))
  | 0x0F => some (factWords (bget s.sup.gfact 9) ++ factWords (bget s.sup.gfact 10))
  | 0x20 => oneW s.sup.sheds
  | 0x21 => oneW s.sup.cranks
  | _ => none

/-- R483. -/
def State.groupValue (s : State) (g : Fin 9) (sub : Nat) : Option Val :=
  match sub with
  | 3 => one (s.groupRise g.val)
  | 4 => one s.groupCap
  | 5 => some (factWords (bget s.sup.gfact ⟨g.val, by omega⟩))
  | 6 => oneW (BitVec.ofInt 36 (bget s.sup.tjmax g))
  | 0x20 => oneW (bget s.sup.derates g)
  | _ => none

/-- R505: faults. -/
def State.faultValue (s : State) (sub : Nat) : Option Val :=
  let f := s.flt
  match sub with
  | 8 => oneW s.latchWord
  | 9 => oneW f.lstamp
  | 0x0B => some (f.sticky.toList.map fun w => wd w.toNat)
  | 0x0D => one (b1 f.errnRead)
  | 0x0E => some ((List.range 6).map fun w => wd (f.safe.toNat / 2 ^ (32 * w) % 2 ^ 32))
  | 0x10 => oneW s.fstat
  | 0x11 => some ((List.range 4).map fun w => wd (f.degraded.toNat / 2 ^ (32 * w) % 2 ^ 32))
  | 0x20 => oneW f.faults
  | 0x21 => oneW f.conseq
  | 0x22 => oneW f.safes
  | 0x23 => oneW f.resets
  | _ => none

/-- R505: the dump; its region lies in data flash. -/
def State.dumpValue (s : State) (sub : Nat) : Option Val :=
  match sub with
  | 4 => one s.flt.dstat.toNat
  | 5 => oneW s.flt.frzWord
  | 6 => oneW s.flt.frzLost
  | 7 => some (memReadN s.mem 0x40C000 0x4000)
  | 0x20 => oneW s.flt.dumps
  | _ => none

/-- R526. -/
def State.rstValue (s : State) (sub : Nat) : Option Val :=
  let r := s.rst
  match sub with
  | 0x0C => oneW s.clkst
  | 0x0D => one r.rblk.toNat
  | 0x0E => oneW s.heldWord
  | 0x17 => oneW r.causex.wordX
  | 0x20 => some r.srcCnt.toList
  | 0x21 => oneW r.isodrop
  | _ => if 0x10 ≤ sub && sub ≤ 0x16 then oneW (bget r.causes (Fin.ofNat 7 (sub - 0x10))).word else none

/-- ROLE (obj 0x1600.08). -/
def DuoRole.code : DuoRole → Nat
  | .off => 0 | .unresolved => 1 | .active => 2 | .syncing => 3 | .ready => 4

/-- R548. -/
def State.duoValue (s : State) (sub : Nat) : Option Val :=
  let d := s.duo
  match sub with
  | 8 => one d.role.code
  | 9 => oneW s.duoHealth
  | 0x0A => oneW d.phealth
  | 0x0B => one d.casc.val
  | 0x0C => oneW d.lastto
  | 0x20 => oneW d.takeover
  | 0x21 => oneW d.missed
  | 0x22 => oneW d.shmis
  | _ => none

/-- R574: update and security. -/
def State.updValue (s : State) (sub : Nat) : Option Val :=
  let u := s.upd
  match sub with
  | 2 => oneW s.updst
  | 6 => one u.sv
  | 7 => one (255 - u.sv)
  | 8 => some [s.imgWord 0 2, s.imgWord 0 3, s.imgWord 1 2, s.imgWord 1 3]
  | 9 => one (if u.field then 2 else 1)
  | 0x0B => oneW s.keyst
  | 0x0E => one (u.ukHave.toNat * 16 + u.ukRev.toNat)
  | 0x11 => one s.dbg.level.val
  | 0x20 => oneW u.updates
  | 0x21 => oneW u.rolls
  | _ => none

/-- R574: the log; its region lies in data flash. -/
def State.logValue (s : State) (sub : Nat) : Option Val :=
  let l := s.log
  match sub with
  | 1 => some (memReadN s.mem 0x404000 0x8000)
  | 2 => oneW l.next
  | 3 => oneW l.oldest
  | 4 => one l.head
  | 5 => some (digestWords s.chainNow)
  | 6 => one l.queue.length
  | 0x20 => oneW l.records
  | 0x21 => oneW l.truncs
  | 0x22 => oneW l.lost
  | _ => none

/-- The value that a block computes for an object; none where it reads as it is stored. -/
def State.computed (s : State) (r : Requester) (f : Fam) (n sub : Nat) : Option Val :=
  if sub = 0 then none
  else match f with
  | .ident => s.identValue sub
  | .prof => none
  | .bundle => s.instValue r sub
  | .contract => s.ctValue (Fin.ofNat 256 n) sub
  | .power => s.pwrValue sub
  | .fault => s.faultValue sub
  | .reset => s.rstValue sub
  | .update => s.updValue sub
  | .duo => s.duoValue sub
  | .hs => s.hsValue (Fin.ofNat 72 n) sub
  | .leg => s.legValue (Fin.ofNat 16 n) sub
  | .pair => s.pairValue (Fin.ofNat 8 n) sub
  | .valve => s.valveValue (Fin.ofNat 12 n) sub
  | .bank => s.bankValue (Fin.ofNat 4 n) sub
  | .boost => s.boostValue sub
  | .sw => s.swValue (Fin.ofNat 64 n) sub
  | .io => s.ioValue (Fin.ofNat 16 n) sub
  | .an => s.anValueOf (Fin.ofNat 16 n) sub
  | .sink => s.sinkValue (Fin.ofNat 24 n) sub
  | .chain => s.chainValue sub
  | .matrix => s.matrixValue sub
  | .loop => s.loopValue (Fin.ofNat 360 n) sub
  | .speed => s.speedValue sub
  | .shed => s.shedValue sub
  | .tgrp => s.groupValue (Fin.ofNat 9 n) sub
  | .access => s.acsValue sub
  | .can => s.canValue (Fin.ofNat 8 n) sub
  | .lin => s.linValue (Fin.ofNat 8 n) sub
  | .eth => s.ethValue sub
  | .ring => s.ringValue sub
  | .fw => none
  | .log => s.logValue sub
  | .dump => s.dumpValue sub

/-- The applied value of an object, as a requester reads it. -/
def State.value (s : State) (r : Requester) (idx sub : Nat) : Val :=
  match famOf idx with
  | none => []
  | some (f, n) => (s.computed r f n sub).getD (s.obj idx sub)

/-- What a read of an object changes: line 0 of blocks 0x00 and 0x43 falls as ROLE and RESULT are read (R461, R548). -/
def State.readMark (s : State) (idx sub : Nat) : State :=
  if idx = 0x1600 && sub = 8 then { s with duo := { s.duo with line := false } }
  else if idx = 0x2900 && sub = 0x0E then s.resultRead
  else s

end Sys2Proof.Machine
end

