-- ==== Sys2Proof/Machine/Window.lean ====
section
/-!
DEFINITION. The management windows and the words behind every address of the memory map (R29 to R31, R36, R37, R108, R148, R188, R220,
R290, R322, R345, R357, R500).
-/
namespace Sys2Proof.Machine

/-! Event queues -/

def State.evq (s : State) : EvQueue → EvQ
  | .adm => s.adm.q
  | .valve => s.vq
  | .loop => s.lq
  | .input => s.inq
  | .fault => s.flt.q

def State.setEvq (s : State) (q : EvQueue) (v : EvQ) : State :=
  match q with
  | .adm => s.onAdm fun a => { a with q := v }
  | .valve => { s with vq := v }
  | .loop => { s with lq := v }
  | .input => { s with inq := v }
  | .fault => s.onFlt fun f => { f with q := v }

/-- The block whose window holds a queue, and the offset of its word. -/
def evPlace : EvQueue → Nat × Nat
  | .adm => (0x06, 0)
  | .valve => (0x3B, 0)
  | .loop => (0x20, 0x10)
  | .input => (0x3D, 0)
  | .fault => (0x05, 0)

/-- The queue in a block's window. -/
def queueOf (b : Nat) : Option EvQueue := [EvQueue.adm, .valve, .loop, .input, .fault].find? fun q => (evPlace q).1 == b

/-- The next word of a queue is read and removed (R108). -/
def State.takeWord (s : State) (q : EvQueue) : Word × State := ((s.evq q).read.1, s.setEvq q (s.evq q).read.2)

/-! TIME (R36, R37) -/

def State.timeSt (s : State) : Word :=
  let t := s.time
  wd (t.src.toNat * 16 + b1 t.stepd * 8 + b1 t.parked * 4 + b1 t.slew * 2 + b1 t.disc)

/-- TIME_LO is read from a port: TIME [71:36] is latched for it. -/
def State.readTimeLo (s : State) (port : Fin 10) : Word × State := (s.stamp, s.onTime fun t => { t with hi := bset t.hi port s.timeHi })

/-- TIME_ST is read: STEPD clears. -/
def State.readTimeSt (s : State) : Word × State := (s.timeSt, s.onTime fun t => { t with stepd := false })

/-! Windows -/

/-- A window word that a read does not change; undefined words read 0 (R29). -/
def State.windowPeek (s : State) (port : Fin 10) (b off : Nat) : Word :=
  if b = 0x01 then
    (match off with
    | 1 => bget s.time.hi port
    | 3 => s.clkst
    | 4 => s.heldWord
    | _ => 0)
  else if b = 0x07 then (if off = 0 then s.fab.stale else 0)
  else if b = 0x0B || b = 0x0C then (bget s.cores (Fin.ofNat 2 (b - 0x0B))).windowWord off
  else if 0x10 ≤ b && b ≤ 0x1F then s.seqWindow (Fin.ofNat 16 (b - 0x10)) off
  else if 0x20 ≤ b && b ≤ 0x2F then s.tileWindow (Fin.ofNat 16 (b - 0x20)) off
  else if 0x30 ≤ b && b ≤ 0x38 then s.hsWindowWord (Fin.ofNat 9 (b - 0x30)) off
  else if b = 0x39 || b = 0x3A then s.hbWindowWord (Fin.ofNat 2 (b - 0x39)) off
  else match queueOf b with
    | some q =>
      if off = 1 then wd (s.evq q).words
      else if off = 2 then (s.evq q).lost
      else if b = 0x3D && 4 ≤ off && off ≤ 7 then s.inStates (off - 4)
      else 0
    | none => 0

/-- A window word is read from a port. -/
def State.windowRead (s : State) (port : Fin 10) (b off : Nat) : Word × State :=
  if b = 0x01 && off = 0 then s.readTimeLo port
  else if b = 0x01 && off = 2 then s.readTimeSt
  else match (queueOf b).filter fun q => (evPlace q).2 == off with
    | some q => s.takeWord q
    | none =>
      if 0x10 ≤ b && b ≤ 0x1F && off = 4 then (s.windowPeek port b 4, s.signalTaken (Fin.ofNat 16 (b - 0x10)))
      else (s.windowPeek port b off, s)

/-! The words behind addresses -/

/-- Control words in the packet buffers: those of CAN, LIN and the host rings (R380, R394, R402). -/
inductive CtlPlace where
  | can (ch : Fin 8) (o : Nat)
  | lin (ch : Fin 8) (o : Nat)
  | eth (o : Nat)

def ctlPlace (a : Nat) : Option CtlPlace :=
  if 0x860000 ≤ a && a < 0x863000 && 0x5F0 ≤ (a - 0x860000) % 0x600 then
    some (.can (Fin.ofNat 8 ((a - 0x860000) / 0x600)) ((a - 0x860000) % 0x600 - 0x5F0))
  else if 0x863000 ≤ a && a < 0x864000 && 0x100 ≤ (a - 0x863000) % 0x200 && (a - 0x863000) % 0x200 ≤ 0x104 then
    some (.lin (Fin.ofNat 8 ((a - 0x863000) / 0x200)) ((a - 0x863000) % 0x200 - 0x100))
  else if 0x867FF0 ≤ a && a ≤ 0x867FF3 then some (.eth (a - 0x867FF0))
  else none

/-- The word at an address of a readable region but for the windows; the alias maps to the bank that is mapped (R29, R30). -/
def State.wordAt (s : State) (a : Nat) : Word × State :=
  if a < 0x4000 then (Config.romWord a, s)
  else if 0x300000 ≤ a && a < 0x400000 then (s.imgWord s.upd.mapped (a - 0x300000), s)
  else if 0x880000 ≤ a && a < 0x890000 then
    (match s.tileWord (Fin.ofNat 16 ((a - 0x880000) / 0x1000)) (a % 0x1000) with
    | some w => (w, s)
    | none => let (k, s1) := s.draw; (Config.freeWord k, s1))
  else match ctlPlace a with
    | some (.can ch o) => (s.canCtlRead ch o, s)
    | some (.lin ch o) => (s.linCtlRead ch o, s)
    | some (.eth o) => (s.ethCtlRead o, s)
    | none => (memRead s.mem a, s)

/-- A write of a word in a region that takes it. -/
def State.putWord (s : State) (a : Nat) (w : Word) : State :=
  match ctlPlace a with
  | some (.can ch o) => s.canCtlWrite ch o w
  | some (.lin ch o) => s.linCtlWrite ch o w
  | some (.eth o) => s.ethCtlWrite o w
  | none => s.onMem fun m => memWrite m a w

/-- A memory error shows in the words that an access touches: what is reported, and whether the access fails (R21, R281, R344, R574). -/
def State.eccAt (s : State) (a : Nat) (ecc : Ecc) : Bool × State :=
  match ecc with
  | .good => (true, s)
  | .corrected =>
    (true,
      if a < 0x4000 then s
      else if a < 0x400000 then s.raise 0x09 0
      else if a < 0x800000 then s.raise 0x09 2
      else if a < 0x860000 then s.raise 0x08 0
      else if 0x880000 ≤ a && a < 0x890000 then s.raiseTile (Fin.ofNat 16 ((a - 0x880000) / 0x1000)) 2
      else if 0x890000 ≤ a && a < 0x898000 then s.seqEcc (Fin.ofNat 16 ((a - 0x890000) / 0x800)) ecc
      else s)
  | .uncorrectable =>
    if a < 0x4000 then (true, s)
    else if a < 0x400000 then (false, s.raise 0x09 1)
    else if a < 0x800000 then (false, s.raise 0x09 3)
    else if a < 0x860000 then (false, s.raise 0x08 1)
    else if 0x880000 ≤ a && a < 0x890000 then (false, s.tileFail (Fin.ofNat 16 ((a - 0x880000) / 0x1000)))
    else if 0x890000 ≤ a && a < 0x898000 then (false, s.seqEcc (Fin.ofNat 16 ((a - 0x890000) / 0x800)) ecc)
    else (true, s)

/-- A run of reads. -/
def readMany (f : State → Nat → Word × State) : List Nat → State → List Word × State
  | [], s => ([], s)
  | i :: r, s => let x := f s i; let y := readMany f r x.2; (x.1 :: y.1, y.2)

/-- The sequencers' memories are reached from ports 0, 1 and 9 (R29). -/
def seqPort (p : Fin 10) : Bool := p = 0 || p = 1 || p = 9

/-- The block whose wrapper stands before an address, with the management window's own blocks (R31, R520). -/
def blockBehind (a : Nat) : Nat := if 0xC00000 ≤ a then (a - 0xC00000) / 512 else blockAt a

/-- A read of n words from an address, made from a port (R29, R31). -/
def State.busRead (s : State) (ini : Fin 10) (a n : Nat) (ecc : Ecc) : Resp × State :=
  match portOf a with
  | none => (errResp none, s.raise 0x07 3)
  | some p =>
    let b := blockBehind a
    if s.closed b then (errResp (some b), s)
    else if p = 9 then
      let r := readMany (fun st i => st.windowRead ini b ((a + i) % 512)) (List.range n) s
      ({ error := false, wrapped := none, data := r.1 }, r.2)
    else if p = 3 && !seqPort ini then (errResp none, s)
    else
      let (ok, s1) := s.eccAt a ecc
      if ok then
        let r := readMany (fun st i => st.wordAt (a + i)) (List.range n) s1
        ({ error := false, wrapped := none, data := r.1 }, r.2)
      else (errResp none, s1)

/-- A write from a port that the Access column refuses (R29): ROM and flash, the tiles' state, the sequencers' memories but from three ports,
the windows but from ROM code and debug. -/
def State.writeRefused (s : State) (ini : Fin 10) (a : Nat) : Bool :=
  if a < 0x800000 then true
  else if a < 0x880000 then false
  else if a < 0x890000 then true
  else if a < 0x898000 then !seqPort ini
  else !(ini = 9 || (ini.val ≤ 1 && (bget s.cores (Fin.ofNat 2 ini.val)).pc < 0x4000))

/-- A write of words from an address on, made from a port (R29); a write of a window has no effect. -/
def State.busWrite (s : State) (ini : Fin 10) (a : Nat) (ws : List Word) (ecc : Ecc) : Resp × State :=
  let done : Resp := { error := false, wrapped := none, data := [] }
  match portOf a with
  | none => (errResp none, s.raise 0x07 3)
  | some p =>
    if s.writeRefused ini a then (errResp none, s.raise 0x07 4)
    else if s.closed (blockBehind a) then (errResp (some (blockBehind a)), s)
    else if p = 9 then (done, s)
    else
      let (_, s1) := s.eccAt a ecc
      (done, (List.range ws.length).foldl (fun st i => st.putWord (a + i) (ws.getD i 0)) s1)

end Sys2Proof.Machine
end

