-- ==== Sys2Proof/Machine/Bus.lean ====
section
/-!
DEFINITION. Arbitration, service and responses of the fabric, and what its flows deliver to their sinks (R13, R17 to R19, R31, R93,
R327, R383, R520); reads of TIME, SIGNAL and the event queues.
-/
namespace Sys2Proof.Machine

/-! Sinks -/

/-- A word of contract n reaches its sink (R90, R119, R157, R200, R229, R240, R383, R394, R405, R413). -/
def State.sinkWordOf (s : State) (n : Fin 256) (w : Word) : State :=
  let code := s.cfg (ctIdx n) 2
  let b := epBlock code
  let q := epQueue code
  if 0x30 ≤ b && b ≤ 0x38 then hsWord (Fin.ofNat 9 (b - 0x30)) w s
  else if b = 0x39 || b = 0x3A then hbWord (Fin.ofNat 2 (b - 0x39)) w s
  else if b = 0x3B then valveWord w s
  else if b = 0x40 then sinkWord w s
  else if b = 0x41 then lightWord w s
  else if 0x48 ≤ b && b ≤ 0x4F then s.canSink (Fin.ofNat 8 (b - 0x48)) (Fin.ofNat 66 q) w
  else if 0x50 ≤ b && b ≤ 0x57 then s.linSink (Fin.ofNat 8 (b - 0x50)) (Fin.ofNat 64 q) w
  else if b = 0x58 then s.ethSink n w
  else if b = 0x5D then s.ringSink n w
  else s

/-- A posted write, or the words of a flow, that a closed wrapper discards (R520). -/
def State.isoDrop (s : State) : State := s.onRst fun r => { r with isodrop := satInc r.isodrop }

/-- Contract n lies in the reach of an exception that lasts (R105): an open bus error, bus-off, a shed class, the LED hold, a safe state, or a
block out of its domain's release. -/
def State.excused (s : State) (n : Fin 256) : Bool :=
  let src := epBlock (s.cfg (ctIdx n) 1)
  let sink := epBlock (s.cfg (ctIdx n) 2)
  let medium (b : Nat) : Bool :=
    (0x48 ≤ b && b ≤ 0x4F && ((s.can (Fin.ofNat 8 (b - 0x48))).occ || (s.can (Fin.ofNat 8 (b - 0x48))).busoff)) ||
      (b = 0x58 && (allFin 5).any fun p => (s.eport p).occ.isSome) || (b = 0x5D && s.ring.viol.isSome)
  medium src || medium sink || s.closed src || s.closed sink ||
    (allFin 8).any (fun k => s.sup.shed.getLsbD k.val && (s.shedReach k.val).flow n) || (s.sup.ov && s.ovReach.flow n) ||
    loadCodes.any fun c => loadBlock c = sink && (s.safeOf c).isSome

/-- A word whose source event was at `born` reaches the sink block of contract n: later than CBOUND and outside the reach of every exception since,
it raises kind 0 of block 0x06 and a contract-miss event with CAUSE 0 (R106). -/
def State.lateCheck (s : State) (n : Fin 256) (born : Nat) : State :=
  let c := s.ct n
  if c.inForce && s.cfg (ctIdx n) 3 ≤ 2 && c.cbound.toNat < s.now - born && c.missAt.all (· < born) && !s.excused n then
    (s.raise 0x06 0).flowMiss n 0 (epBlock (s.cfg (ctIdx n) 2))
  else s

/-- Words of contract n reach its sink block, or its closed wrapper. -/
def State.sinkWords (s : State) (n : Fin 256) (born : Nat) (ws : List Word) : State :=
  if s.closed (epBlock (s.cfg (ctIdx n) 2)) then s.isoDrop
  else ws.foldl (fun st w => st.sinkWordOf n w) (if ws.isEmpty then s else s.lateCheck n born)

/-- The sink of contract n takes no word now: a transmit buffer whose request is pending (R383). -/
def State.sinkBlocked (s : State) (n : Fin 256) : Bool :=
  let code := s.cfg (ctIdx n) 2
  0x48 ≤ epBlock code && epBlock code ≤ 0x4F && s.canSinkBlocked (Fin.ofNat 8 (epBlock code - 0x48)) (Fin.ofNat 66 (epQueue code))

/-! Service at the target -/

/-- The transaction brings words to the sink block of its flow, not to an address. -/
def State.toSink (s : State) (x : FabTx) : Option (Fin 256) :=
  x.flow.filter fun n => !s.flowReads n && epBlock (s.cfg (ctIdx n) 2) != 0x08

/-- A transaction is served (R13, R29): posted writes take effect; the tag of any other holds its response. -/
def State.serve (s : State) (e : SubEntry) (ecc : Ecc) : State :=
  let x := e.tx
  let a := x.addr.toNat
  let answer (r : Resp) (st : State) : State :=
    match e.tag with
    | some t => st.respond t r
    | none => if x.write && s.isPosted x && r.wrapped.isSome then st.isoDrop else st
  match s.toSink x with
  | some n => s.sinkWords n e.born x.data
  | none =>
    let s1 := match x.flow, x.write with
      | some n, true => s.lateCheck n e.born
      | _, _ => s
    let r := if x.write then s1.busWrite x.ini a x.data ecc else s1.busRead x.ini a (txWords x) ecc
    answer r.1 r.2

/-- The sequencer whose memory a transaction is for, while an activation runs or accesses wait (R327). -/
def State.seqHolds (s : State) (x : FabTx) : Option (Fin 16) :=
  let a := x.addr.toNat
  if (s.toSink x).isNone && 0x890000 ≤ a && a < 0x898000 then
    let n := Fin.ofNat 16 ((a - 0x890000) / 0x800)
    if (s.seq n).act.isSome || !(s.seq n).held.isEmpty then some n else none
  else none

/-- The egress holds credits for a transaction's words on the hop to its cluster (R18). -/
def State.downFits (s : State) (egress : Fin 10) (x : FabTx) : Bool := !hasCluster egress || s.fab.holds (downHop egress) (txWords x)

/-- The transactions that may be granted at an egress: of each ingress and class the oldest of an admitted flow; with none waiting there,
background traffic (R19).  One whose words the next hop does not take waits (R18). -/
def State.grantable (s : State) (egress : Fin 10) : List SubEntry :=
  let here := s.fab.subq.filter (·.egress == egress)
  let heads (l : List SubEntry) : List SubEntry := l.foldl (fun a e =>
    if a.any fun d => d.tx.ini == e.tx.ini && d.tx.cls == e.tx.cls then a else a ++ [e]) []
  let admitted := here.filter (·.tx.flow.isSome)
  let ready := (heads admitted).filter fun e => !((s.toSink e.tx).any s.sinkBlocked)
  (if admitted.isEmpty then heads here else ready).filter fun e => s.downFits egress e.tx

/-- How far an ingress stands behind the one served last in its class (R19). -/
def turn (last i : Fin 10) : Nat := (i.val + 9 - last.val) % 10

/-- The transaction that an egress grants: the highest class, round robin within it. -/
def State.pick (s : State) (egress : Fin 10) : Option SubEntry :=
  let key (e : SubEntry) : Nat := 16 * e.tx.cls.val + turn (bget s.fab.rr (Fin.ofNat 40 (4 * egress.val + e.tx.cls.val))) e.tx.ini
  (s.grantable egress).foldl (fun a e => match a with
    | none => some e
    | some d => if key e < key d then some e else a) none

/-- EGRESS_GRANT (R18, R19): one transaction is granted, its words leave the sub-queue, pass the hop to the cluster, and it is served; `ecc` is
what the memory words show. -/
def execEgressGrant (egress : Fin 10) (ecc : Ecc) (s : State) : Host.Outcome State Fault Refusal :=
  if !s.up 2 then .next s
  else match s.pick egress with
    | none => .next s
    | some e =>
      let s1 := s.onFab fun f =>
        let g := f.giveBack (subHop egress e.tx.ini e.tx.cls) (txWords e.tx)
        { (if hasCluster egress then g.pass (downHop egress) (txWords e.tx) else g) with
          subq := f.subq.erase e
          rr := bset f.rr (Fin.ofNat 40 (4 * egress.val + e.tx.cls.val)) e.tx.ini }
      .next (match s1.seqHolds e.tx with
        | some n => s1.onSeq n fun q => { q with held := q.held ++ [e] }
        | none => s1.serve e ecc)

/-- SEQ_HELD_ACCESS (R327): the oldest held access is served once the activation has ended. -/
def execSeqHeldAccess (n : Fin 16) (s : State) : Host.Outcome State Fault Refusal :=
  match (s.seq n).act, (s.seq n).held with
  | none, e :: r => .next ((s.onSeq n fun q => { q with held := r }).serve e .good)
  | _, _ => .next s

/-! Responses -/

/-- A response is delivered at an initiator port. -/
def State.deliverResp (s : State) (p : Fin 10) (r : Resp) : State := s.onFab fun f => { f with resps := bset f.resps p (some r) }

/-- The words of a response: those read, or one (log 21). -/
def respWords (r : Resp) : Nat := Nat.max 1 r.data.length

/-- FABRIC_RESPONSE (R13, R17, R18, R93): once the response has its credits the tag is freed, the requester has it, and words that a flow has
read go to its sink. -/
def execFabricResponse (tag : Fin 64) (s : State) : Host.Outcome State Fault Refusal :=
  let g := bget s.fab.tags tag
  match g.tx, g.resp with
  | some x, some r =>
    if !s.up 2 || !s.fab.holds (respHop x.ini) (respWords r) then .next s
    else
      let s1 := ((s.onFab fun f => f.pass (respHop x.ini) (respWords r)).freeTag tag false).deliverResp x.ini r
      .next (match x.flow with
        | some n => if s.flowReads n && !r.error then s1.sinkWords n g.born r.data else s1
        | none => s1).pump
  | _, _ => .next s

/-! Reads of window words that have a row of their own -/

/-- A port reads a window word; a block whose wrapper is closed answers with an error (R31). -/
def State.portReads (s : State) (port : Fin 10) (b off : Nat) : State :=
  if !s.up 2 then s
  else
    let r := s.busRead port (0xC00000 + b * 512 + off) 1 .good
    r.2.deliverResp port r.1

/-- TIME_LO_READ (R36). -/
def execTimeLoRead (port : Fin 10) (s : State) : Host.Outcome State Fault Refusal := .next (s.portReads port 0x01 0)

/-- TIME_ST_READ (R37). -/
def execTimeStRead (port : Fin 10) (s : State) : Host.Outcome State Fault Refusal := .next (s.portReads port 0x01 2)

/-- SIGNAL_READ (R345). -/
def execSignalRead (port : Fin 10) (n : Fin 16) (s : State) : Host.Outcome State Fault Refusal := .next (s.portReads port (0x10 + n.val) 4)

/-- EVENT_QUEUE_READ (R39 to R41, R108). -/
def execEventQueueRead (port : Fin 10) (q : EvQueue) (s : State) : Host.Outcome State Fault Refusal :=
  .next (s.portReads port (evPlace q).1 (evPlace q).2)

end Sys2Proof.Machine
end

