-- ==== Sys2Proof/Machine/Dump.lean ====
section
/-!
DEFINITION. The dump-assist engine of block 0x05: R503 to R505, and the CRC-32 that the dump and block transfers carry (R77, R503).
-/
namespace Sys2Proof.Machine

/-! CRC-32, IEEE 802.3 polynomial: the register starts as all ones and is complemented at the end (log 90). -/

/-- One bit enters the register. -/
def crcBit (c : BitVec 32) (b : Bool) : BitVec 32 := if c.msb != b then (c <<< 1) ^^^ 0x04C11DB7#32 else c <<< 1

/-- A word enters, bit 35 first (R503). -/
def crcWord (c : BitVec 32) (w : Word) : BitVec 32 := (List.range 36).foldl (fun c i => crcBit c (w.getLsbD (35 - i))) c

/-- The CRC-32 of a run of words, bit 35 first. -/
def crcWords (ws : List Word) : BitVec 32 := ~~~(ws.foldl crcWord (BitVec.allOnes 32))

/-- One octet enters, in the bit order of an IEEE 802.3 octet stream: bit 0 first (log 90). -/
def crcOctet (c : BitVec 32) (o : Byte) : BitVec 32 := (List.range 8).foldl (fun c i => crcBit c (o.getLsbD i)) c

/-- What the register shows of the octets so far: bit-reversed and complemented. -/
def crcShow (c : BitVec 32) : BitVec 32 := ~~~c.reverse

/-! The dump -/

/-- First word of the dump region (R503). -/
def dumpBase : Nat := 0x40C000
def dumpLen : Nat := 0x4000

/-- The region is erased. -/
def State.dumpErase (s : State) : State :=
  s.onMem fun m => m.filter fun c => !(dumpBase ≤ c.1 && c.1 < dumpBase + dumpLen)

/-- A write of DUMPGO (R505). -/
def State.dumpGo (s : State) (v : Nat) : Code × State :=
  if v = 0 then (okc, s)
  else if s.flt.dstat = 1 || s.flt.dstat = 2 then ((0x07, 0), s)
  else (okc, (s.dumpErase).onFlt fun f => { f with dstat := 1, dumpTime := s.time.time })

/-- DUMPGO. -/
def execDumpgo (r : Requester) (s : State) : Host.Outcome State Fault Refusal :=
  .next (s.objCmd r dumpIdx 1 [1] fun t => t.dumpGo 1)

/-- The blocks of SNAPMAP, by rising number. -/
def State.snapBlocks (s : State) : List Nat :=
  let m := s.obj dumpIdx 3
  (List.range 128).filter fun b => (m.getD (b / 32) 0).getLsbD (b % 32)

/-- Header words 0 to 6 (R503). -/
def State.dumpHeader (s : State) : List Word :=
  let f := s.flt
  [0x964801000, f.dumps, (f.dumpTime >>> 36).truncate 36, f.dumpTime.truncate 36,
    if f.frzValid then f.frzStamp else 0,
    wd (0x21 * 2 ^ 28 + s.imgSchema s.upd.mapped * 2 ^ 12 + s.upd.mapped.val),
    wd s.snapBlocks.length]

/-- A snapshot record, and what its reads change in the windows (R504). -/
def State.snapRecord (s : State) (b : Nat) : List Word × State :=
  let (r, s1) := s.busRead 9 (0xC00000 + b * 0x200) 112 .good
  if r.error then (wd b :: List.replicate 112 0, s1) else (wd (2 ^ 35 + b) :: r.data, s1)

/-- The records of a list of blocks are written from an address on. -/
def State.dumpRecords (s : State) (a : Nat) : List Nat → State
  | [] => s
  | b :: r =>
    let (ws, s1) := s.snapRecord b
    State.dumpRecords (s1.onMem fun m => memWriteN m a ws) (a + 113) r

/-- DUMP_ERASE_DONE (R505): header, freeze image, firmware area, then the records. -/
def execDumpEraseDone (s : State) : Host.Outcome State Fault Refusal :=
  .next (if s.flt.dstat = 1 && s.up 2 then
    let image := if s.flt.frzValid then s.flt.image else []
    let s1 := s.onMem fun m =>
      memWriteN (memWriteN (memWriteN m dumpBase s.dumpHeader) (dumpBase + 0x20) image) (dumpBase + 0x220)
        (memReadN m (s.cfg dumpIdx 2) 512)
    (s1.dumpRecords (dumpBase + 0x420) s.snapBlocks).onFlt fun f => { f with dstat := 2 }
  else s)

/-- Word 9 of a dump: the CRC over the region with words 7 and 9 as zero. -/
def State.dumpCrc (s : State) : BitVec 32 :=
  crcWords ((List.range dumpLen).map fun i => if i = 7 || i = 9 then 0 else memRead s.mem (dumpBase + i))

/-- DUMP_COMPLETE (R505). -/
def execDumpComplete (ok : Bool) (s : State) : Host.Outcome State Fault Refusal :=
  .next (if s.flt.dstat != 1 && s.flt.dstat != 2 then s
  else if !ok then (s.onFlt fun f => { f with dstat := 4 }).raise 0x05 3
  else if s.flt.dstat = 1 then s
  else
    let frz := memRead s.mem (dumpBase + 0x22) != 0    -- the image in the dump shows a report of S3 or S4
    let valid := wd (b1 frz * 8 + 4 + b1 (!s.snapBlocks.isEmpty) * 2 + 1)
    let s1 := s.onMem fun m => memWrite (memWrite m (dumpBase + 9) (wd s.dumpCrc.toNat)) (dumpBase + 7) valid
    s1.onFlt fun f => { f with dumps := satInc f.dumps, frzValid := false, frzSev := 0, frzSrc := 0, frzStamp := 0, image := [], dstat := 3 })

end Sys2Proof.Machine
end

