-- ==== Sys2Proof/Machine/Loops.lean ====
section
/-!
DEFINITION. Release, inputs, step, deadline and output of the loops (R254 to R266, R276 to R283).
-/
namespace Sys2Proof.Machine

/-! Inputs (R257, R260 to R262) -/

/-- The inputs of a loop: FB, SP, AUX, SCH; the subindices of their source code, gain and offset. -/
def inputSubs : List (Fin 4 × Nat × Nat × Nat) := [(0, 0x07, 0x08, 0x09), (1, 0x0A, 0x0B, 0x0C), (2, 0x0F, 0x10, 0x11), (3, 0x12, 0x13, 0x14)]

/-- x = (raw − OFS) × GAIN, saturated to SIG (R261). -/
def scaled (raw ofs gain : Int) : Int := satSig ((raw - ofs) * gain)

/-- An object that is a sense word (R262). -/
def isSense (f : Fam) (sub : Nat) : Bool :=
  match f with
  | .hs => sub = 5
  | .leg => sub = 4
  | .pair => sub = 4
  | .valve => sub = 4
  | .sink => sub = 5
  | _ => false

/-- A read of the object is refused: the VALUE of an analog input that is not placed or whose ADC failed its check (R262, R368, R370). -/
def State.readRefused (s : State) (f : Fam) (idx sub : Nat) : Bool :=
  match f with
  | .an => sub = 5 && s.anBad (Fin.ofNat 16 (idx - 0x2360))
  | _ => false

/-- The raw value of an object input; none where it is invalid. -/
def State.objInput (s : State) (idx sub : Nat) : Option Int :=
  match famOf idx with
  | none => none
  | some (f, _) =>
    match findRow f sub with
    | none => none
    | some row =>
      let w := (s.value .debug idx sub).headD 0
      if !(bget s.dom (famDomain f)).powered || s.readRefused f idx sub then none
      else if isSense f sub && 0xC00 ≤ w.toNat && w.toNat ≤ 0xFFF then none
      else some (if row.type == .s36 || row.type == .fix then w.toInt else w.toNat)

/-- The field that a source code names in a frame; none where it lies beyond the last octet. -/
def streamField (w : Nat) (os : List Byte) : Option Int :=
  let oct := w / 2 ^ 11 % 32
  let n := w / 2 ^ 9 % 4 + 1
  let part := (os.drop oct).take n
  if part.length < n then none
  else
    let v : Nat := (if w / 2 ^ 7 % 2 = 1 then part.reverse else part).foldl (fun a o => a * 256 + o.toNat) 0
    some (if w / 2 ^ 8 % 2 = 1 && 2 ^ (8 * n - 1) ≤ v then (v : Int) - 2 ^ (8 * n) else v)

/-- The endpoint of a stream input. -/
def streamEnd (w : Nat) : Option Nat := if w / 2 ^ 32 = 2 then some (w / 65536 % 65536) else none

/-- The newest frame of an endpoint. -/
def State.newest (s : State) (e : Nat) : Option StreamFrame := alFind e s.eng.streams

/-- An input as it is latched: none where it is invalid. -/
def State.loopInput (s : State) (m : Fin 360) (src gain ofs : Nat) : Option Int :=
  let w := s.cfg (loopIdx m) src
  let raw : Option Int :=
    match w / 2 ^ 32 with
    | 1 => s.objInput (w / 65536 % 65536) (w / 256 % 256)
    | _ => ((streamEnd w).bind s.newest).bind fun f => streamField w f.octets
  if w / 2 ^ 32 = 0 then some 0
  else raw.map fun x => scaled x (s.cfgI (loopIdx m) ofs) (s.cfgI (loopIdx m) gain)

/-- A loop's stream inputs all have a newer frame than the previous step used, or it does not wait for one (R257). -/
def State.streamsReady (s : State) (m : Fin 360) : Bool :=
  s.cfg (loopIdx m) 0x1D = 0 ||
    inputSubs.all fun (k, src, _, _) =>
      match streamEnd (s.cfg (loopIdx m) src) with
      | none => true
      | some e => (s.newest e).any fun f => bget (s.loop m).used k < f.serial

/-- The inputs of a released step are latched, and the frames they take are noted (R257, R266 step 1). -/
def State.latchInputs (s : State) (m : Fin 360) : State :=
  let sp := if s.cfg (loopIdx m) 0x0A / 2 ^ 32 = 0 then some (s.cfgI (loopIdx m) 0x0D) else s.loopInput m 0x0A 0x0B 0x0C
  let inp : LoopInputs :=
    { y := s.loopInput m 0x07 0x08 0x09, sp := sp, w := s.loopInput m 0x0F 0x10 0x11, sch := s.loopInput m 0x12 0x13 0x14 }
  let used := inputSubs.foldl (fun (u : Bank Nat 4) (k, src, _, _) =>
    match (streamEnd (s.cfg (loopIdx m) src)).bind s.newest with
    | some f => bset u k f.serial
    | none => u) (s.loop m).used
  s.onLoop m fun l => { l with used := used, rel := l.rel.map fun r => { r with inputs := some inp } }

/-! Output and deadline (R256, R263, R277) -/

/-- An output leaves the tile. -/
def State.output (s : State) (m : Fin 360) (v : Int) : State := (s.deliver m v).onLoop m fun l => { l with sent := v }

/-- What is due of a loop at time t: an output held for its deadline leaves; a step not completed by its deadline is missed, and if no
stream held it back it is late (R106, R256, R258, R277). -/
def State.loopDue (s : State) (m : Fin 360) (t : Nat) : State :=
  let s1 := match (s.loop m).out with
    | some (v, d) => if d ≤ t then (s.onLoop m fun l => { l with out := none }).output m v else s
    | none => s
  match (s1.loop m).rel with
  | some r =>
    if t < r.deadline then s1
    else match r.inputs with
      | none => s1.loopMissed m 1
      | some _ => ((s1.raise 0x06 0).loopMiss m 0 (0x20 + (s1.loop m).tile.val)).loopMissed m 0
  | none => s1

/-- A loop's tile steps it: placed on a scheduled tile of a released engine, and not held for a remap. -/
def State.loopRuns (s : State) (m : Fin 360) : Bool :=
  let l := s.loop m
  s.up 3 && !l.held && l.place.any fun p => (s.tile p.1).role == .scheduled

/-- A commit that has passed its strobe and names an index. -/
def State.strobed (s : State) (idx : Nat) : Bool := s.srv.commits.any fun c => c.checked && c.strobed && c.indices.contains idx

/-- The next sample instant of a loop (R254, R283, R286). -/
def State.nextInstant (s : State) (m : Fin 360) : Nat :=
  let l := s.loop m
  let a := Nat.max s.now l.from_
  gridFrom (s.cfg (loopIdx m) 5) (s.cfg (loopIdx m) 6) (match l.lastRel with | some t => Nat.max a (t + 1) | none => a)

/-- LOOP_RELEASE (R254, R257, R273, R287): the sample instant of loop m; a bundle that waits for it applies, a written MODE takes effect, and
in MANUAL or AUTO a step is released.  No step is released while an entry into PARK stands (R431). -/
def execLoopRelease (m : Fin 360) (s : State) : Host.Outcome State Fault Refusal :=
  let t := s.nextInstant m
  .next (if !s.up 3 || s.pwr.mode == .entering || !(s.loopRuns m || (s.strobed (loopIdx m) && !(s.loop m).held)) then s
  else
    let s1 := (s.at t).loopDue m t
    let s2 := if s1.strobed (loopIdx m) then (s1.applyOwned (loopIdx m)).loopFollow m else s1
    if !s2.loopRuns m then s2
    else
      let s3 := s2.loopEnter m
      let l := s3.loop m
      let next := gridAfter (s3.cfg (loopIdx m) 5) (s3.cfg (loopIdx m) 6) t
      if l.safe.isSome || l.mode = 0 then s3.onLoop m fun l => { l with lastRel := some t }
      else
        let s4 := s3.onLoop m fun l => { l with lastRel := some t, rel := some { at_ := t, deadline := next, inputs := none } }
        if s4.streamsReady m then s4.latchInputs m else s4)

/-- LOOP_STREAM_ARRIVAL (R257): the newest frame of an endpoint; steps that now have all they wait for are released. -/
def execLoopStreamArrival (endpoint : BitVec 16) (words : List Word) (s : State) : Host.Outcome State Fault Refusal :=
  let e := endpoint.toNat
  let (os, ok) := unpackFrame words
  .next (if !s.up 3 then s
  else
    let n := ((s.newest e).map (·.serial)).getD 0 + 1
    let s1 := s.onEng fun g => { g with streams := alInsert e { serial := n, octets := if ok then os else plainOcts words } g.streams }
    (allFin 360).foldl (fun st m =>
      if (st.loop m).rel.any (·.inputs.isNone) && (st.loopStreams m).contains e && st.streamsReady m then st.latchInputs m else st) s1)

/-- LOOP_WAIT_EXPIRE (R277). -/
def execLoopWaitExpire (m : Fin 360) (s : State) : Host.Outcome State Fault Refusal :=
  .next (match (s.loop m).rel with
  | some { at_ := t, deadline := _, inputs := none } => if s.loopRuns m then (s.at (t + s.cfg (loopIdx m) 0x1D)).loopMissed m 1 else s
  | _ => s)

/-- LOOP_DEADLINE (R256, R277). -/
def execLoopDeadline (m : Fin 360) (s : State) : Host.Outcome State Fault Refusal :=
  let l := s.loop m
  .next (if !s.loopRuns m then s
  else match l.out, l.rel with
  | some (_, a), some r => (s.at (Nat.min a r.deadline)).loopDue m (Nat.min a r.deadline)
  | some (_, a), none => (s.at a).loopDue m a
  | none, some r => (s.at r.deadline).loopDue m r.deadline
  | none, none => s)

/-! The step (R254, R266, R276, R280, R283) -/

/-- The step that a tile runs next: of the released steps that wait for nothing and whose deadline has not passed, the one of the earliest
deadline, the lower loop number among equals. -/
def State.nextStep (s : State) (t : Fin 16) : Option (Fin 360 × LoopRel × LoopInputs) :=
  (s.loopsOn t).foldl (fun a m =>
    match (s.loop m).rel with
    | some r =>
      match r.inputs with
      | some i =>
        if r.deadline < s.now || (s.loop m).held then a
        else match a with
          | some (_, q, _) => if r.deadline < q.deadline then some (m, r, i) else a
          | none => some (m, r, i)
      | none => a
    | none => a) none

/-- The samples that a remap lost: those between the last completed step and this one (R283). -/
def lostSamples (ts : Nat) (l : Loop) (t : Nat) : Nat :=
  match l.lastOk with
  | some a => if ts = 0 then 0 else (t - a) / ts - 1
  | none => 0

/-- The first step after a remap: RSM, an entry, and kind 6 of the spare with the first loop of the tile (R283). -/
def State.remapDone (s : State) (m : Fin 360) (t : Fin 16) (lost : Nat) : State :=
  let first := (s.loopsOn t).all fun k => k = m || !(s.loop k).rsm
  let s1 := (s.onLoop m fun l => { l with rsm := true, remap := false }).loopEvent 5 (b1 (s.loop m).cold) t m.val lost
  if first then s1.raiseTile t 6 else s1

/-- A step's results are taken (R266, R276, R277). -/
def State.stepDone (s : State) (m : Fin 360) (t : Fin 16) (r : LoopRel) (inp : LoopInputs) : State :=
  if inp.y.isNone || inp.sp.isNone || inp.w.isNone then s.loopMissed m 2
  else
    let l := s.loop m
    let x := loopStep (s.loopCfg m) l inp (s.holdsBack m)
    let s1 := s.onLoop m fun _ => { x.loop with rel := none, lastOk := some r.at_ }
    let s2 := if l.remap then s1.remapDone m t (lostSamples (s.cfg (loopIdx m) 5) l r.at_) else s1
    let s3 := if s.cfg (loopIdx m) 0x1B = 1 then s2.onLoop m fun l => { l with out := some (x.v, r.deadline) } else s2.output m x.v
    if x.fault then
      let s4 := (s3.raiseTile t 5).loopEvent 3 0 t m.val 0
      if s.cfg (loopIdx m) 0x26 = 1 then s4.loopSafe m 1 else s4
    else s3

/-- The step that a mismatch discarded is repeated from the same inputs; else the next one runs. -/
def State.stepNow (s : State) (t : Fin 16) : Option (Fin 360 × LoopRel × LoopInputs) :=
  match (s.tile t).again.bind fun m => (s.loop m).rel.bind fun r => r.inputs.map fun i => (m, r, i) with
  | some x => if x.2.1.deadline < s.now || (s.loop x.1).held || ((s.loop x.1).place.map (·.1)) != some t then s.nextStep t else some x
  | none => s.nextStep t

/-- LOOP_STEP (R254, R266, R280, R281): tile t runs its next step.  A residue mismatch discards its results and repeats it; a second one, or
the eleventh in a base cycle, fails the tile. -/
def execLoopStep (t : Fin 16) (mismatch : Bool) (s : State) : Host.Outcome State Fault Refusal :=
  .next (if !s.up 3 || (s.tile t).role != .scheduled then s
  else match s.stepNow t with
  | none => s
  | some (m, r, inp) =>
    let k := s.tile t
    if mismatch then
      let s1 := s.onTile t fun x => { x with retry := x.retry + 1, again := some m }
      if k.again = some m || 10 ≤ k.retry then s1.tileFail t else s1
    else
      let s0 := s.onTile t fun x => { x with again := none }
      let s1 := if k.again = some m then s0.raiseTile t 1 else s0
      s1.stepDone m t r inp)

end Sys2Proof.Machine
end

