-- ==== Sys2Proof/Machine/Myuno.lean ====
section
/-!
DEFINITION. What the instructions of a Myuno-36 pair share: registers and flags, issue and the multiplier's cycles, the caches, data accesses,
the return stack, exceptions and interrupt sources (R294 to R320).
-/
namespace Sys2Proof.Machine

/-! Registers and flags (R299 to R303) -/

/-- Dn. -/
def Core.dreg (c : Core) (d : DReg) : Word := bget c.d d

/-- Dn is written; its value is usable at once. -/
def Core.setD (c : Core) (d : DReg) (w : Word) : Core := { c with d := bset c.d d w, readyD := bset c.readyD d 0 }

/-- A 4-bit field that names an address register (R311, R312). -/
def aOk (n : AFld) : Bool := n.val ≤ 8

/-- A0 to A7, or SP. -/
def Core.areg (c : Core) (n : AFld) : Addr := if n.val < 8 then bget c.a (Fin.ofNat 8 n.val) else c.sp

/-- A0 to A7, or SP, is written. -/
def Core.setA (c : Core) (n : AFld) (a : Addr) : Core :=
  let c1 := { c with readyA := bset c.readyA (Fin.ofNat 9 n.val) 0 }
  if n.val < 8 then { c1 with a := bset c.a (Fin.ofNat 8 n.val) a } else { c1 with sp := a }

/-- The base A0 to A7 of an AB field. -/
def Core.abase (c : Core) (b : ABase) : Addr := bget c.a b

/-- Ab + OFF, modulo 2^24. -/
def Core.place (c : Core) (b : ABase) (off : BitVec 23) : Addr := c.abase b + off.signExtend 24

/-- The PSW bits of a mask take the bits of a value. -/
def Core.setPsw (c : Core) (mask v : BitVec 11) : Core := { c with psw := (c.psw &&& ~~~mask) ||| (v &&& mask) }

/-- Z and N of a result. -/
def znBits (r : Word) : BitVec 11 := BitVec.ofNat 11 (b1 (r == 0) + 2 * b1 r.msb)

/-- A result with Z and N. -/
def Core.setZN (c : Core) (d : DReg) (r : Word) : Core := (c.setPsw 0x003 (znBits r)).setD d r

/-- ZNCV of a + b. -/
def addBits (a b : Word) : BitVec 11 :=
  let r := a + b
  znBits r ||| BitVec.ofNat 11 (4 * b1 (2 ^ 36 ≤ a.toNat + b.toNat) + 8 * b1 (a.toInt + b.toInt != r.toInt))

/-- ZNCV of a − b; C is the borrow. -/
def subBits (a b : Word) : BitVec 11 :=
  let r := a - b
  znBits r ||| BitVec.ofNat 11 (4 * b1 (a.toNat < b.toNat) + 8 * b1 (a.toInt - b.toInt != r.toInt))

/-- An exact value as a word, saturated at the S36 range, and whether it was. -/
def sat36 (x : Int) : Word × Bool :=
  if x < -(2 ^ 35) then (BitVec.ofInt 36 (-(2 ^ 35)), true)
  else if 2 ^ 35 - 1 < x then (BitVec.ofInt 36 (2 ^ 35 - 1), true)
  else (BitVec.ofInt 36 x, false)

/-- An exact value as an accumulator, saturated at 80 bits, and whether it was. -/
def sat80 (x : Int) : Acc80 × Bool :=
  if x < -(2 ^ 79) then (BitVec.ofInt 80 (-(2 ^ 79)), true)
  else if 2 ^ 79 - 1 < x then (BitVec.ofInt 80 (2 ^ 79 - 1), true)
  else (BitVec.ofInt 80 x, false)

/-- SV is set where a value was saturated; it is sticky. -/
def Core.setSV (c : Core) (b : Bool) : Core := if b then c.setPsw 0x010 0x010 else c

/-- A saturated result with Z, N and SV. -/
def Core.setSat (c : Core) (d : DReg) (r : Word × Bool) : Core := (c.setSV r.2).setZN d r.1

/-- Shifts (R313): of 36 and more too. -/
def shl36 (a : Word) (n : Nat) : Word := a <<< n
def shr36 (a : Word) (n : Nat) : Word := a >>> n
def sar36 (a : Word) (n : Nat) : Word := a.sshiftRight n

/-- Db [5:0]. -/
def sh6 (w : Word) : Nat := w.toNat % 64

/-- Leading zeros from bit 35. -/
def clz36 (a : Word) : Nat := ((List.range 36).find? fun i => a.getLsbD (35 - i)).getD 36

/-- The address of a field is taken from a data register (R300). -/
def addrOf (w : Word) : Addr := w.truncate 24

/-! The multiplier's cycles (R308) -/

/-- MH:ML. -/
def Core.prod (c : Core) : BitVec 72 := c.mh ++ c.ml

/-- Products whose last unseen cycle lies before `cyc` have landed, in the order of their issue. -/
def Core.land (c : Core) (cyc : Nat) : Core :=
  let due := c.prods.filter fun x => decide (x.lands < cyc)
  match due.getLast? with
  | some x => { c with mh := x.value.extractLsb' 36 36, ml := x.value.extractLsb' 0 36, prods := c.prods.filter fun x => !decide (x.lands < cyc) }
  | none => c

/-- Products in flight land, as entry to a handler lets them (R309). -/
def Core.landAll (c : Core) : Core :=
  let t := c.prods.foldl (fun m x => Nat.max m (x.lands + 1)) c.cyc
  { c with cyc := t }.land t

/-- A multiply starts in the cycle of issue. -/
def Core.startMul (c : Core) (v : BitVec 72) : Core := { c with prods := c.prods ++ [{ value := v, lands := c.cyc + 2 }] }

/-! The caches (R296, R298) -/

/-- The regions that are cached. -/
def cached (a : Nat) : Bool :=
  a < 0x4000 || (0x100000 ≤ a && a < 0x410000) || (0x800000 ≤ a && a < 0x860000)

/-- The fabric port of a pair. -/
def pairPort (p : Fin 2) : Fin 10 := if p = 0 then 0 else 1

/-- The block of a pair. -/
def pairBlk (p : Fin 2) : Nat := 0x0B + p.val

/-- The words of a line. -/
def lineWords (ws : List Word) : Vector Word 8 := Vector.ofFn fun i => ws.getD i.val 0

/-- The lines of one set, and its victim when its four ways are full: the spec names none (log 7). -/
def waysOf (l : List CacheLine) (line : Nat) : List CacheLine := l.filter fun x => x.line % 512 = line % 512

/-- The typical time of a line fill, in cycles (R324, log 70). -/
def fillTime (a : Nat) : Nat := if a < 0x800000 then 24 else 18

/-- A line enters the instruction cache. -/
def State.fillI (s : State) (p : Fin 2) (line : Nat) (ws : List Word) : State :=
  let c := bget s.cores p
  let ways := waysOf c.icache line
  let put (old : List CacheLine) (t : State) : State :=
    t.onCore p fun c => { c with icache := { line := line, dirty := false, words := lineWords ws } :: old }
  if ways.length < 4 then put c.icache s
  else
    let (i, s1) := s.draw
    match ways[(Config.freeWord i).toNat % 4]? with
    | some x => put (c.icache.filter fun y => y.line != x.line) s1
    | none => put c.icache s1

/-- An instruction or vector word is fetched, through the instruction cache where its region is cached; none on an error response. -/
def State.fetch (s : State) (p : Fin 2) (a : Addr) : Option Word × State :=
  let n := a.toNat
  match (bget s.cores p).icache.find? fun x => x.line = n / 8 with
  | some x => (x.words[n % 8]?, s)
  | none =>
    if !s.up 2 then (none, s)
    else if cached n then
      let (r, s1) := s.busRead (pairPort p) (n / 8 * 8) 8 .good
      if r.error then (none, s1)
      else (r.data[n % 8]?, (s1.onCore p fun c => { c with cyc := c.cyc + fillTime n }).fillI p (n / 8) r.data)
    else
      let (r, s1) := s.busRead (pairPort p) n 1 .good
      if r.error then (none, s1) else (r.data[0]?, s1.onCore p fun c => { c with cyc := c.cyc + 14 })

/-- The data-cache line that holds an address. -/
def Core.dline (c : Core) (a : Nat) : Option CacheLine := c.dcache.find? fun x => x.line = a / 8

/-- A line leaves the data cache. -/
def Core.dropLine (c : Core) (line : Nat) : Core := { c with dcache := c.dcache.filter fun x => x.line != line }

/-- A line is written back, as one transaction. -/
def State.writeBack (s : State) (p : Fin 2) (x : CacheLine) : State :=
  if x.dirty then (s.busWrite (pairPort p) (x.line * 8) x.words.toList .good).2 else s

/-- A line enters the data cache; the victim of a full set is written back. -/
def State.fillD (s : State) (p : Fin 2) (line : Nat) (ws : List Word) : State :=
  let new : CacheLine := { line := line, dirty := false, words := lineWords ws }
  let ways := waysOf (bget s.cores p).dcache line
  if ways.length < 4 then s.onCore p fun c => { c with dcache := new :: c.dcache }
  else
    let (i, s1) := s.draw
    match ways[(Config.freeWord i).toNat % 4]? with
    | some x => (s1.writeBack p x).onCore p fun c => { c.dropLine x.line with dcache := new :: (c.dropLine x.line).dcache }
    | none => s1.onCore p fun c => { c with dcache := new :: c.dcache }

/-! Data accesses (R304, R306, R314) -/

/-- An address inside the spill region of either pair (R306). -/
def State.guarded (s : State) (a : Addr) : Bool :=
  (allFin 2).any fun q => (bget s.cores q).rslo ≤ a && a ≤ (bget s.cores q).rshi

/-- How a data access ends: the word and the cycles until it is usable, or the exception that its instruction raises. -/
inductive Acc where
  | got (w : Word) (delay : Nat) (s : State)
  | bad (v : Nat) (s : State)

/-- The line of a cached address is brought into the data cache, or is there; memory errors show (R298). -/
def State.touch (s : State) (p : Fin 2) (a : Nat) (ecc : Ecc) : Acc :=
  let load (t : State) (e : Ecc) : Acc :=
    let (r, t1) := t.busRead (pairPort p) (a / 8 * 8) 8 e
    if r.error then .bad 3 t1 else .got (r.data.getD (a % 8) 0) (fillTime a) (t1.fillD p (a / 8) r.data)
  match (bget s.cores p).dline a, ecc with
  | some x, .good => .got (x.words.toList.getD (a % 8) 0) 2 s
  | some x, .corrected => .got (x.words.toList.getD (a % 8) 0) 2 (s.raise (pairBlk p) 2)
  | some x, .uncorrectable =>
    let s1 := s.onCore p fun c => c.dropLine x.line
    if x.dirty then .bad 7 (s1.raise (pairBlk p) 3) else load (s1.raise (pairBlk p) 2) .good
  | none, e => load s e

/-- A load of a pair. -/
def State.dataRead (s : State) (p : Fin 2) (a : Addr) (ecc : Ecc) : Acc :=
  if s.guarded a then .bad 2 s
  else if !s.up 2 then .bad 3 s
  else if cached a.toNat then s.touch p a.toNat ecc
  else
    let (r, s1) := s.busRead (pairPort p) a.toNat 1 ecc
    if r.error then .bad 3 s1 else .got (r.data.getD 0 0) 14 s1

/-- The word of a data-cache line is written. -/
def Core.putLine (c : Core) (a : Nat) (w : Word) : Core :=
  { c with dcache := c.dcache.map fun x => if x.line = a / 8 then { x with dirty := true, words := x.words.setIfInBounds (a % 8) w } else x }

/-- A store of a pair: into its data cache, or to its target; a posted store to a closed block is discarded (R13, R520).  ROM and flash refuse it. -/
def State.dataWrite (s : State) (p : Fin 2) (a : Addr) (w : Word) (ecc : Ecc) : Acc :=
  let n := a.toNat
  if s.guarded a then .bad 2 s
  else if !s.up 2 then .bad 3 s
  else if cached n && 0x800000 ≤ n then
    match s.touch p n ecc with
    | .got _ _ s1 => .got w 0 (s1.onCore p fun c => c.putLine n w)
    | .bad v s1 => .bad v s1
  else if 0x860000 ≤ n && n < 0x898000 && (portOf n).isSome && s.closed (blockAt n) then .got w 0 s.isoDrop
  else
    let (r, s1) := s.busWrite (pairPort p) n [w] ecc
    if r.error then .bad 3 s1 else .got w 0 s1

/-! The return stack (R305, R307) -/

/-- An entry: I, PSW and a return address. -/
def entryWord (i : Bool) (psw : BitVec 11) (ret : Addr) : Word := BitVec.ofNat 36 (b1 i * 2 ^ 35 + psw.toNat * 2 ^ 24 + ret.toNat)

/-- An entry is pushed, after a spill of the eight oldest where the core holds 32; with it, whether the spill left one free group alone.  None
where there is no free group: a double fault. -/
def State.pushEntry (s : State) (p : Fin 2) (i : Bool) (ret : Addr) : Option (Bool × State) :=
  let c := bget s.cores p
  let e := entryWord i c.psw ret
  if c.rs.length < 32 then some (false, s.onCore p fun c => { c with rs := e :: c.rs })
  else if c.rshi.toNat + 1 < c.ssp.toNat + 8 then none
  else
    let s1 := (s.busWrite (pairPort p) c.ssp.toNat (c.rs.drop 24).reverse .good).2
    some (c.rshi.toNat + 1 = c.ssp.toNat + 16, s1.onCore p fun c => { c with rs := e :: c.rs.take 24, ssp := c.ssp + 8, cyc := c.cyc + 12 })

/-- How a pop ends. -/
inductive Popped where
  | entry (w : Word) (s : State)
  | empty
  | bad (a : Addr) (s : State)

/-- An entry is popped, after eight are read back where the core holds none. -/
def State.popEntry (s : State) (p : Fin 2) : Popped :=
  let c := bget s.cores p
  match c.rs with
  | w :: r => .entry w (s.onCore p fun c => { c with rs := r })
  | [] =>
    if c.ssp ≤ c.rslo then .empty
    else
      let a := c.ssp - 8
      let (r, s1) := s.busRead (pairPort p) a.toNat 8 .good
      match r.error, r.data.reverse with
      | false, w :: l => .entry w (s1.onCore p fun c => { c with rs := l, ssp := a, cyc := c.cyc + 12 })
      | _, _ => .bad a s1

/-! Exceptions (R320) -/

/-- A double fault: kind 1, and the lock-up reset. -/
def State.doubleFault (s : State) (p : Fin 2) : State := (s.raise (pairBlk p) 1).lockUp p 1

/-- The kind that an exception raises (R323); that of exception 7 has been raised by the cache. -/
def excKind (v : Nat) : Option Nat :=
  match v with
  | 1 => some 6
  | 2 => some 4
  | 3 => some 7
  | 4 => some 7
  | 5 => some 5
  | 6 => some 5
  | _ => none

/-- A handler is entered through vector v: the entry is pushed, products land, PC is loaded; none ends in a double fault. -/
def State.vector (s : State) (p : Fin 2) (v : Nat) (ret : Addr) : Option (Bool × State) :=
  match s.pushEntry p true ret with
  | none => none
  | some (near, s1) =>
    match s1.fetch p ((bget s1.cores p).vbase + BitVec.ofNat 24 v) with
    | (none, _) => none
    | (some w, s2) => some (near, s2.onCore p fun c => { c.landAll with pc := addrOf w })

/-- One exception is entered; with it, whether its spill left one free group alone. -/
def State.enter (s : State) (p : Fin 2) (v n : Nat) (ret : Addr) (ea : Option Addr) : Bool × State :=
  let s0 := match excKind v with | some k => s.raise (pairBlk p) k | none => s
  match s0.vector p v ret with
  | none => (false, s0.doubleFault p)
  | some (near, s1) => (near, s1.onCore p fun c => { c.setPsw 0x020 0 with ecause := BitVec.ofNat 16 (n * 256 + v), eaddr := ea.getD c.eaddr })

/-- Exception v is taken; exception 5, where its own spill calls for it, follows at once (log 71). -/
def State.except (s : State) (p : Fin 2) (v n : Nat) (ret : Addr) (ea : Option Addr) : State :=
  match s.enter p v n ret ea with
  | (false, s1) => s1
  | (true, s1) => (s1.enter p 5 0 (bget s1.cores p).pc none).2

/-! Issue (R308, R313) -/

/-- The cycle of a pair's clock: cycles of issue, and at least those of TIME since its release (log 72). -/
def State.cycleOf (s : State) (p : Fin 2) : Nat :=
  let c := bget s.cores p
  Nat.max c.cyc (2 * (s.now - c.since))

/-- The pair waits for the object server (R315). -/
def State.served_ (s : State) (p : Fin 2) : Bool := s.srv.queue.any fun q => match q with | .core c => c.pair == p | _ => false

/-- A pair may issue: it runs, and no access of its own is with the object server. -/
def State.issues (s : State) (p : Fin 2) : Bool := (bget s.cores p).run == .running && !s.served_ p

/-- What an instruction comes to. -/
inductive Done where
  | ok (s : State)                                  -- it completes
  | jump (a : Addr) (s : State)                     -- it completes, and PC is loaded
  | trap (v : Nat) (ea : Option Addr) (s : State)   -- a fault-type exception
  | post (v n : Nat) (a : Addr) (s : State)         -- it completes with PC = a, then takes an exception
  | wait (s : State)                                -- it has yet to complete
  | dead (s : State)                                -- a double fault

/-- An instruction completes after its cycles. -/
def State.complete (s : State) (p : Fin 2) (cycles : Nat) (next : Addr) : State :=
  s.onCore p fun c => { c with pcs := c.pc, pc := next, cyc := c.cyc + cycles }

/-- The cycle of issue: stalled until the registers that it reads are usable (R313), with the products that have landed by then. -/
def State.beginIssue (s : State) (p : Fin 2) (ready : Core → Nat) : State :=
  let t := s.cycleOf p
  s.onCore p fun c => { c with cyc := Nat.max t (ready c) }.land (Nat.max t (ready c))

/-- A pair issues an instruction that stands at its PC: it is fetched, and `f` says what it does (R313). -/
def State.insn (s : State) (p : Fin 2) (cycles : Nat) (ready : Core → Nat) (f : State → Done) : State :=
  if !s.issues p then s
  else
    let pc := (bget s.cores p).pc
    match s.fetch p pc with
    | (none, s1) => s1.except p 4 0 pc none
    | (some _, s1) =>
      match f (s1.beginIssue p ready) with
      | .ok t => t.complete p cycles (pc + 1)
      | .jump a t => t.complete p cycles a
      | .trap v ea t => t.except p v 0 pc ea
      | .post v n a t => (t.complete p cycles a).except p v n a none
      | .wait t => t
      | .dead t => t.doubleFault p

/-- The cycle from which data registers are usable. -/
def rdD (l : List DReg) (c : Core) : Nat := l.foldl (fun m d => Nat.max m (bget c.readyD d)) 0
def rdA (l : List AFld) (c : Core) : Nat := l.foldl (fun m n => Nat.max m (bget c.readyA (Fin.ofNat 9 n.val))) 0
def rdB (b : ABase) : Core → Nat := rdA [⟨b.val, by omega⟩]

/-- An instruction that changes registers of its pair alone, reading the data registers given. -/
def State.alu (s : State) (p : Fin 2) (src : List DReg) (g : Core → Core) : State :=
  s.insn p 1 (rdD src) fun t => .ok (t.onCore p g)

/-- The instruction is illegal (R312). -/
def illegal (s : State) : Done := .trap 1 none s

/-- As `alu`, where the address-register fields are legal. -/
def State.aluA (s : State) (p : Fin 2) (flds : List AFld) (ready : Core → Nat) (g : Core → Core) : State :=
  s.insn p 1 ready fun t => if flds.all aOk then .ok (t.onCore p g) else illegal t

end Sys2Proof.Machine
end

