-- ==== Sys2Proof/Machine/MyunoAlu.lean ====
section
/-!
DEFINITION. Register instructions of the Myuno-36: moves, arithmetic, logic, shifts, address arithmetic, the multiplier and accumulators, bit
fields (R299 to R303, R308 to R310, R313).
-/
namespace Sys2Proof.Machine

/-! Data registers -/

def execMov (p : Fin 2) (d a : DReg) (s : State) : Host.Outcome State Fault Refusal := .next (s.alu p [a] fun c => c.setD d (c.dreg a))

/-- A sum with ZNCV. -/
def Core.addTo (c : Core) (d : DReg) (x y : Word) : Core := (c.setPsw 0x00F (addBits x y)).setD d (x + y)

/-- A difference with ZNCV. -/
def Core.subTo (c : Core) (d : DReg) (x y : Word) : Core := (c.setPsw 0x00F (subBits x y)).setD d (x - y)

def execAdd (p : Fin 2) (d a b : DReg) (s : State) : Host.Outcome State Fault Refusal :=
  .next (s.alu p [a, b] fun c => c.addTo d (c.dreg a) (c.dreg b))

def execSub (p : Fin 2) (d a b : DReg) (s : State) : Host.Outcome State Fault Refusal :=
  .next (s.alu p [a, b] fun c => c.subTo d (c.dreg a) (c.dreg b))

def execAdds (p : Fin 2) (d a b : DReg) (s : State) : Host.Outcome State Fault Refusal :=
  .next (s.alu p [a, b] fun c => c.setSat d (sat36 ((c.dreg a).toInt + (c.dreg b).toInt)))

def execSubs (p : Fin 2) (d a b : DReg) (s : State) : Host.Outcome State Fault Refusal :=
  .next (s.alu p [a, b] fun c => c.setSat d (sat36 ((c.dreg a).toInt - (c.dreg b).toInt)))

def execAnd (p : Fin 2) (d a b : DReg) (s : State) : Host.Outcome State Fault Refusal :=
  .next (s.alu p [a, b] fun c => c.setZN d (c.dreg a &&& c.dreg b))

def execOr (p : Fin 2) (d a b : DReg) (s : State) : Host.Outcome State Fault Refusal :=
  .next (s.alu p [a, b] fun c => c.setZN d (c.dreg a ||| c.dreg b))

def execXor (p : Fin 2) (d a b : DReg) (s : State) : Host.Outcome State Fault Refusal :=
  .next (s.alu p [a, b] fun c => c.setZN d (c.dreg a ^^^ c.dreg b))

def execAndn (p : Fin 2) (d a b : DReg) (s : State) : Host.Outcome State Fault Refusal :=
  .next (s.alu p [a, b] fun c => c.setZN d (c.dreg a &&& ~~~c.dreg b))

def execShl (p : Fin 2) (d a b : DReg) (s : State) : Host.Outcome State Fault Refusal :=
  .next (s.alu p [a, b] fun c => c.setZN d (shl36 (c.dreg a) (sh6 (c.dreg b))))

def execShr (p : Fin 2) (d a b : DReg) (s : State) : Host.Outcome State Fault Refusal :=
  .next (s.alu p [a, b] fun c => c.setZN d (shr36 (c.dreg a) (sh6 (c.dreg b))))

def execSar (p : Fin 2) (d a b : DReg) (s : State) : Host.Outcome State Fault Refusal :=
  .next (s.alu p [a, b] fun c => c.setZN d (sar36 (c.dreg a) (sh6 (c.dreg b))))

def execCmp (p : Fin 2) (a b : DReg) (s : State) : Host.Outcome State Fault Refusal :=
  .next (s.alu p [a, b] fun c => c.setPsw 0x00F (subBits (c.dreg a) (c.dreg b)))

def execMin (p : Fin 2) (d a b : DReg) (s : State) : Host.Outcome State Fault Refusal :=
  .next (s.alu p [a, b] fun c => c.setZN d (if (c.dreg b).slt (c.dreg a) then c.dreg b else c.dreg a))

def execMax (p : Fin 2) (d a b : DReg) (s : State) : Host.Outcome State Fault Refusal :=
  .next (s.alu p [a, b] fun c => c.setZN d (if (c.dreg a).slt (c.dreg b) then c.dreg b else c.dreg a))

/-- CLZ sets Z and N (R303, log 73). -/
def execClz (p : Fin 2) (d a : DReg) (s : State) : Host.Outcome State Fault Refusal :=
  .next (s.alu p [a] fun c => c.setZN d (wd (clz36 (c.dreg a))))

def execNeg (p : Fin 2) (d a : DReg) (s : State) : Host.Outcome State Fault Refusal :=
  .next (s.alu p [a] fun c => c.subTo d 0 (c.dreg a))

/-! Immediates -/

def execAddi (p : Fin 2) (d a : DReg) (imm : BitVec 22) (s : State) : Host.Outcome State Fault Refusal :=
  .next (s.alu p [a] fun c => c.addTo d (c.dreg a) (imm.signExtend 36))

def execAndi (p : Fin 2) (d a : DReg) (imm : BitVec 22) (s : State) : Host.Outcome State Fault Refusal :=
  .next (s.alu p [a] fun c => c.setZN d (c.dreg a &&& imm.zeroExtend 36))

def execOri (p : Fin 2) (d a : DReg) (imm : BitVec 22) (s : State) : Host.Outcome State Fault Refusal :=
  .next (s.alu p [a] fun c => c.setZN d (c.dreg a ||| imm.zeroExtend 36))

def execXori (p : Fin 2) (d a : DReg) (imm : BitVec 22) (s : State) : Host.Outcome State Fault Refusal :=
  .next (s.alu p [a] fun c => c.setZN d (c.dreg a ^^^ imm.zeroExtend 36))

def execCmpi (p : Fin 2) (a : DReg) (imm : BitVec 22) (s : State) : Host.Outcome State Fault Refusal :=
  .next (s.alu p [a] fun c => c.setPsw 0x00F (subBits (c.dreg a) (imm.signExtend 36)))

def execShli (p : Fin 2) (d a : DReg) (sh : Fin 64) (s : State) : Host.Outcome State Fault Refusal :=
  .next (s.alu p [a] fun c => c.setZN d (shl36 (c.dreg a) sh.val))

def execShri (p : Fin 2) (d a : DReg) (sh : Fin 64) (s : State) : Host.Outcome State Fault Refusal :=
  .next (s.alu p [a] fun c => c.setZN d (shr36 (c.dreg a) sh.val))

def execSari (p : Fin 2) (d a : DReg) (sh : Fin 64) (s : State) : Host.Outcome State Fault Refusal :=
  .next (s.alu p [a] fun c => c.setZN d (sar36 (c.dreg a) sh.val))

def execMovi (p : Fin 2) (d : DReg) (imm : BitVec 22) (s : State) : Host.Outcome State Fault Refusal :=
  .next (s.alu p [] fun c => c.setD d (imm.signExtend 36))

/-- MOVHI keeps Dd [17:0], which it reads. -/
def execMovhi (p : Fin 2) (d : DReg) (imm : BitVec 18) (s : State) : Host.Outcome State Fault Refusal :=
  .next (s.alu p [d] fun c => c.setD d (imm ++ (c.dreg d).extractLsb' 0 18))

/-! Address registers (R300) -/

def execLea (p : Fin 2) (an : AFld) (ab : ABase) (off : BitVec 23) (s : State) : Host.Outcome State Fault Refusal :=
  .next (s.aluA p [an] (rdB ab) fun c => c.setA an (c.place ab off))

def execAddar (p : Fin 2) (an ab : AFld) (b : DReg) (s : State) : Host.Outcome State Fault Refusal :=
  .next (s.aluA p [an, ab] (fun c => Nat.max (rdA [ab] c) (rdD [b] c)) fun c => c.setA an (c.areg ab + addrOf (c.dreg b)))

def execMova (p : Fin 2) (an : AFld) (a : DReg) (s : State) : Host.Outcome State Fault Refusal :=
  .next (s.aluA p [an] (rdD [a]) fun c => c.setA an (addrOf (c.dreg a)))

def execMovd (p : Fin 2) (d : DReg) (aa : AFld) (s : State) : Host.Outcome State Fault Refusal :=
  .next (s.aluA p [aa] (rdA [aa]) fun c => c.setD d ((c.areg aa).zeroExtend 36))

/-- CMPA sets Z and C as an unsigned compare and clears N and V (R303). -/
def execCmpa (p : Fin 2) (aa ab : AFld) (s : State) : Host.Outcome State Fault Refusal :=
  .next (s.aluA p [aa, ab] (rdA [aa, ab]) fun c =>
    c.setPsw 0x00F (BitVec.ofNat 11 (b1 (c.areg aa == c.areg ab) + 4 * b1 (decide (c.areg aa < c.areg ab)))))

/-! The multiplier and the accumulators (R308 to R310) -/

def execMul (p : Fin 2) (a b : DReg) (s : State) : Host.Outcome State Fault Refusal :=
  .next (s.alu p [a, b] fun c => c.startMul (BitVec.ofInt 72 ((c.dreg a).toInt * (c.dreg b).toInt)))

def execMulu (p : Fin 2) (a b : DReg) (s : State) : Host.Outcome State Fault Refusal :=
  .next (s.alu p [a, b] fun c => c.startMul (BitVec.ofNat 72 ((c.dreg a).toNat * (c.dreg b).toNat)))

/-- An accumulator takes an exact value, saturated. -/
def Core.setAc (c : Core) (n : Fin 2) (x : Int) : Core :=
  let c1 := c.setSV (sat80 x).2
  { c1 with ac := bset c1.ac n (sat80 x).1 }

def execMac (p : Fin 2) (n : Fin 2) (s : State) : Host.Outcome State Fault Refusal :=
  .next (s.alu p [] fun c => c.setAc n ((bget c.ac n).toInt + c.prod.toInt))

def execMsu (p : Fin 2) (n : Fin 2) (s : State) : Host.Outcome State Fault Refusal :=
  .next (s.alu p [] fun c => c.setAc n ((bget c.ac n).toInt - c.prod.toInt))

def execAcclr (p : Fin 2) (n : Fin 2) (s : State) : Host.Outcome State Fault Refusal :=
  .next (s.alu p [] fun c => { c with ac := bset c.ac n 0 })

/-- ACn rounded, shifted right and saturated (R310). -/
def acRead (v : Acc80) (sh : Nat) : Word × Bool :=
  sat36 ((v.toInt + if sh = 0 then 0 else 2 ^ (sh - 1)) / 2 ^ sh)

/-- ACR changes no flag but SV. -/
def execAcr (p : Fin 2) (d : DReg) (n : Fin 2) (sh : Fin 64) (s : State) : Host.Outcome State Fault Refusal :=
  .next (s.alu p [] fun c => (c.setSV (acRead (bget c.ac n) sh.val).2).setD d (acRead (bget c.ac n) sh.val).1)

def execAcw (p : Fin 2) (n : Fin 2) (a : DReg) (sh : Fin 64) (s : State) : Host.Outcome State Fault Refusal :=
  .next (s.alu p [a] fun c => c.setAc n ((c.dreg a).toInt * 2 ^ sh.val))

/-- PRODUCT_LANDS (R308): the oldest product in flight lands at the end of its cycle t + 2. -/
def execProductLands (p : Fin 2) (s : State) : Host.Outcome State Fault Refusal :=
  .next (s.onCore p fun c => match c.prods with
    | x :: _ => { c with cyc := Nat.max c.cyc (x.lands + 1) }.land (x.lands + 1)
    | [] => c)

/-! Bit fields (R312, R313) -/

/-- A field of 1 to 36 bits that lies in a word. -/
def fieldOk (pos wid : Fin 64) : Bool := 0 < wid.val && pos.val + wid.val ≤ 36

/-- The bits of a field. -/
def fieldMask (pos wid : Nat) : Word := BitVec.ofNat 36 ((2 ^ wid - 1) * 2 ^ pos)

/-- An instruction with a bit field. -/
def State.aluF (s : State) (p : Fin 2) (src : List DReg) (pos wid : Fin 64) (g : Core → Core) : State :=
  s.insn p 1 (rdD src) fun t => if fieldOk pos wid then .ok (t.onCore p g) else illegal t

def execBfi (p : Fin 2) (d a : DReg) (pos wid : Fin 64) (s : State) : Host.Outcome State Fault Refusal :=
  .next (s.aluF p [d, a] pos wid fun c =>
    let m := fieldMask pos.val wid.val
    c.setD d ((c.dreg d &&& ~~~m) ||| ((c.dreg a <<< pos.val) &&& m)))

/-- A field of a word, zero- or sign-extended. -/
def takeField (w : Word) (pos wid : Nat) (signed : Bool) : Word :=
  let u := (w >>> pos) &&& fieldMask 0 wid
  if signed && u.getLsbD (wid - 1) then u ||| ~~~fieldMask 0 wid else u

def execBfx (p : Fin 2) (d a : DReg) (pos wid : Fin 64) (signed : Bool) (s : State) : Host.Outcome State Fault Refusal :=
  .next (s.aluF p [a] pos wid fun c => c.setD d (takeField (c.dreg a) pos.val wid.val signed))

/-- Lane L of a word, the octet of R32 with its flag. -/
def lane36 (w : Word) (l : Nat) : Nat := w.toNat / 2 ^ (9 * (3 - l)) % 512

/-- The lanes that SEL names. -/
def bperm (w : Word) (sel : Byte) : Word :=
  wd ((List.range 4).foldl (fun a l => a * 512 + lane36 w (sel.toNat / 2 ^ (6 - 2 * l) % 4)) 0)

def execBperm (p : Fin 2) (d a : DReg) (sel : Byte) (s : State) : Host.Outcome State Fault Refusal :=
  .next (s.alu p [a] fun c => c.setD d (bperm (c.dreg a) sel))

end Sys2Proof.Machine
end

