-- ==== Sys2Proof/Machine/Serve.lean ====
section
/-!
DEFINITION. The object server's accesses: what a write does at its apply point and what a read answers (R49 to R70).
-/
namespace Sys2Proof.Machine

def profIdx : Nat := 0x1010
def bundleIdx : Nat := 0x10F0

/-! Values on octet media (R51, R52) -/

/-- The octets of a number, most significant first. -/
def numOcts (n k : Nat) : List Byte := (List.range k).map fun i => BitVec.ofNat 8 (n / 2 ^ (8 * (k - 1 - i)))
/-- The number that octets hold. -/
def octsNum (os : List Byte) : Nat := os.foldl (fun a o => a * 256 + o.toNat) 0

/-- A value as octets. -/
def netOctets (t : OType) (v : Val) : List Byte :=
  let w := v.headD 0
  match t with
  | .bool | .u8 => numOcts w.toNat 1
  | .u16 => numOcts w.toNat 2
  | .u36 => numOcts w.toNat 5
  | .s36 | .fix => numOcts (w.signExtend 40).toNat 5
  | .u72 => numOcts (w.toNat * 2 ^ 36 + (v.getD 1 0).toNat) 9
  | .str => (plainOcts v).takeWhile (· != 0)
  | .dom => []

/-- The value that octets hold; none where their number or the copies of bit 35 do not fit the type. -/
def netValue (t : OType) (os : List Byte) : Option Val :=
  let n := octsNum os
  match t, os.length with
  | .bool, 1 => some [wd n]
  | .u8, 1 => some [wd n]
  | .u16, 2 => some [wd n]
  | .u36, 5 => if n < 2 ^ 36 then some [wd n] else none
  | .s36, 5 => if ((wd n).signExtend 40).toNat = n then some [wd n] else none
  | .fix, 5 => if ((wd n).signExtend 40).toNat = n then some [wd n] else none
  | .u72, 9 => some [wd (n / 2 ^ 36), wd n]
  | .str, k => if k ≤ 252 then some (if k = 0 then [0] else packPlain os) else none
  | _, _ => none

/-! Descriptors (R50) -/

def OType.code : OType → Nat
  | .bool => 1 | .u8 => 2 | .u16 => 3 | .u36 => 4 | .s36 => 5 | .u72 => 6 | .fix => 7 | .str => 8 | .dom => 9

def OType.ofCode (n : Nat) : Option OType := [OType.bool, .u8, .u16, .u36, .s36, .u72, .fix, .str, .dom].find? (·.code == n)

def Access.code : Access → Nat
  | .none => 0 | .ro => 1 | .wo => 2 | .rw => 3 | .rwc => 4 | .const => 5

def Apply.code : Apply → Nat
  | .imm => 0 | .cyc => 1 | .per => 2 | .cmt => 3 | .none => 0

def Persist.code : Persist → Nat
  | .volatile => 0 | .saved => 1 | .factory => 2

/-- The descriptor of a row. -/
def descriptor (r : ObjRow) : Word :=
  wd (r.type.code * 2 ^ 32 + r.q * 2 ^ 26 + r.apply.code * 2 ^ 24 + r.persist.code * 2 ^ 22 + (r.acc.of .loc).code * 2 ^ 19 +
    (r.acc.of .auth).code * 2 ^ 16 + (r.acc.of .opn).code * 2 ^ 13 + (r.acc.of .dbg).code * 2 ^ 10 + b1 r.prot * 2 ^ 9 + b1 r.subs * 2 ^ 8)

/-! Firmware-defined objects (R70) -/

def isFw (idx : Nat) : Bool := 0x4000 ≤ idx && idx ≤ 0x4FFF

/-- The image's object table: index, subindex, descriptor. -/
def State.otab (s : State) : List (Nat × Nat × Word) :=
  let b := s.upd.mapped
  let h := s.imgWord b 6
  if s.upd.recov then []
  else (List.range (fld h 17 0)).map fun i =>
    let w := s.imgWord b (fld h 35 18 + 2 * i)
    (fld w 35 20, fld w 19 12, s.imgWord b (fld h 35 18 + 2 * i + 1))

/-- The entries of an index. -/
def State.otabOf (s : State) (idx : Nat) : List (Nat × Word) := (s.otab.filter (·.1 == idx)).map (·.2)

/-- The highest subindex of a firmware-defined index (R49). -/
def State.fwMax (s : State) (idx : Nat) : Nat := (s.otabOf idx).foldl (fun m e => Nat.max m e.1) 0

/-- The access code of a class in a descriptor. -/
def descAccess (d : Word) : ReqClass → Nat
  | .loc => fld d 21 19 | .auth => fld d 18 16 | .opn => fld d 15 13 | .dbg => fld d 12 10

/-- The descriptor of a firmware-defined object that a class may access, or the refusal code. -/
def State.fwAccess (s : State) (r : Requester) (idx sub : Nat) (write : Bool) : Word ⊕ Byte :=
  if reqClass r == .loc then .inr 0x03
  else match s.otabOf idx with
  | [] => .inr 0x01
  | l =>
    if sub = 0 then (if write then .inr 0x04 else .inl (descriptor ⟨0, .u8, 0, .ro, .one 0, .none, .volatile, false, false, .any⟩))
    else match l.find? (·.1 == sub) with
    | none => .inr 0x02
    | some (_, d) =>
      match descAccess d (reqClass r), write with
      | 1, true => .inr 0x04
      | 5, true => .inr 0x04
      | 2, false => .inr 0x05
      | 1, false => .inl d
      | 5, false => .inl d
      | 2, true => .inl d
      | 3, _ => .inl d
      | 4, _ => .inl d
      | _, _ => .inr 0x03

/-- The type of an object. -/
def State.typeOf (s : State) (idx sub : Nat) : OType :=
  if isFw idx then
    if sub = 0 then .u8 else (((s.otabOf idx).find? (·.1 == sub)).bind fun e => OType.ofCode (fld e.2 35 32)).getD .u36
  else match famOf idx with
    | none => .u36
    | some (f, _) => ((findRow f sub).map (·.type)).getD .u36

/-- The pair that serves firmware-defined objects (R70). -/
def State.servePair (s : State) : Fin 2 := if s.cfgB profIdx 2 then 1 else 0

/-- The pair that serves firmware-defined objects takes source 25 (R70, R317). -/
def State.forward (s : State) (q : FwReq) : State :=
  (s.onSrv fun v => { v with fw := v.fw ++ [q] }).onCore s.servePair fun c => { c with irq := bmod c.irq 25 fun i => { i with pend := true } }

/-! Answers -/

/-- An access is answered: in its message's response, or to the requester of the command.  A DOMAIN is written by BLOCK_END. -/
def State.answerAcc (s : State) (r : Requester) (hdr : Option ZopHdr) (write : Bool) (idx sub : Nat) (c : Code) (v : Val) : State :=
  match hdr with
  | some h =>
    s.zopReply r h (if !write then 1 else if s.typeOf idx sub == .dom then 0x0A else 2) c (if write then [] else netOctets (s.typeOf idx sub) v)
  | none => s.tell r c v

/-! Writes -/

/-- SENSEOUT by object (R140). -/
def State.writeSout (s : State) (i : SenseItem) (v : Nat) : State :=
  if v = 1 then { s with sout := some i } else if s.sout = some i then { s with sout := none } else s

/-- The words of a DOMAIN (R51): those of its default, of the chain's image, of a key; IMAGE has none of its own. -/
def State.domWords (s : State) (f : Fam) (idx sub : Nat) : Option Nat :=
  match f, sub with
  | .chain, 0x0A => some (16 * s.cfg chainIdx 2)
  | .update, 0x0A => some 5
  | .update, 0x01 => none
  | _, _ => some (dfltOf idx sub).length

/-- A write of 1 to a command object; a write of 0 is accepted and does nothing (log 60). -/
def trigger (v : Nat) (s : State) (f : State → Code × State) : Code × State := if v = 1 then f s else (okc, s)

/-- An index with an RWC subindex (R58, R63). -/
def hasRwc (idx : Nat) : Bool :=
  match famOf idx with
  | none => false
  | some (f, _) => (famRows f).any fun r => r.acc == .rwc || r.acc == .rwcN

/-- GO: the check follows at once, and its answer is that of the write (R61, R63). -/
def State.writeGo (s : State) (r : Requester) (v : Nat) : Code × State :=
  if v = 2 then s.commitAbort r
  else
    let (c, s1) := s.commitStart r none
    if c.1 != 0 then (c, s1)
    else match s1.srv.commits.find? fun d => d.owner == r && !d.checked with
      | some d => s1.commitCheck d
      | none => (c, s1)

/-- What a store writes: the applied values of the saved objects. -/
def State.savedNow (s : State) : ObjStore :=
  s.srv.objs.filter fun e => (famOf (e.1 / 256)).any fun f => (findRow f.1 (e.1 % 256)).any fun r => r.persist == .saved

/-- The pairs at rest whose position is known (R168). -/
def State.restNow (s : State) : BitVec 8 :=
  BitVec.ofNat 8 ((allFin 8).foldl (fun a k => let p := bget s.pairs k; a + b1 (p.u == 0 && p.posok) * 2 ^ k.val) 0)

/-- STORE = 1 (R64): nothing is written where nothing has changed. -/
def State.store (s : State) : Code × State :=
  (okc, if s.srv.dirty.isSome || s.savedNow != s.srv.saved || s.restNow != s.srv.savedRest then
    s.onSrv fun v => { v with storing := true, dirty := none } else s)

def hsWrite (s : State) (ch : Fin 72) (sub v : Nat) : Option (Code × State) :=
  match sub with
  | 2 => some (s.hsCommand ch (if v = 0 then .off else if v = 1 then .on else .pwm))
  | 3 => some (trigger v s (·.hsClear ch))
  | 0x16 => some (okc, s.writeSout (.hs ch) v)
  | _ => none

def legWrite (s : State) (n : Fin 16) (sub v : Nat) : Option (Code × State) :=
  match sub with
  | 1 => some (s.legCommand n (if v = 0 then .off else if v = 1 then .highOn else if v = 2 then .lowOn else .pwm))
  | 2 => some (trigger v s (·.pairClear ⟨n.val / 2, by omega⟩))
  | 0x0B => some (okc, s.writeSout (.leg n) v)
  | _ => none

def pairWrite (s : State) (k : Fin 8) (sub : Nat) (w : Word) : Option (Code × State) :=
  match sub with
  | 2 => some (s.pairWordWrite k w)
  | 5 => some (okc, s.writeSout (.pair k) w.toNat)
  | 6 => some (s.writePos k w)
  | _ => none

def valveWrite (s : State) (n : Fin 12) (sub v : Nat) : Option (Code × State) :=
  match sub with
  | 1 => some (s.valveCommand n (v = 1) 0)
  | 2 => some (trigger v s (·.valveClear n))
  | 0x14 => some (okc, s.writeSout (.valve n) v)
  | _ => none

def sinkWrite (s : State) (n : Fin 24) (sub v : Nat) : Option (Code × State) :=
  match sub with
  | 1 => some (s.sinkCommand n v (s.cfg (sinkIdx n) 2))
  | 3 => some (trigger v s (·.sinkClear n))
  | 0x0F => some (okc, s.writeSout (.sink n) v)
  | _ => none

def chainWrite (s : State) (sub : Nat) (v : Val) : Option (Code × State) :=
  match sub with
  | 9 => some (trigger (v.headD 0).toNat s fun t => (okc, t.chainGo))
  | 0x0A => some (okc, s.onMem fun m => memWriteN m (s.cfg chainIdx 5) v)
  | _ => none

def ioWrite (s : State) (n : Fin 16) (sub v : Nat) : Option (Code × State) :=
  match sub with
  | 9 => some (s.ioCommand n (v = 1))
  | 0x0A => some (trigger v s (·.ioClear n))
  | _ => none

def pwrWrite (s : State) (sub v : Nat) : Option (Code × State) :=
  match sub with
  | 1 => some (s.setReq (BitVec.ofNat 8 v))
  | 6 => some (okc, s.onPwr fun p => { p with wtimer := v })
  | 0x1A => some (s.setKeep v)
  | _ => none

def acsWrite (s : State) (sub v : Nat) : Option (Code × State) :=
  match sub with
  | 0x0B => some (trigger v s (·.requestPoll))
  | 0x0C => some (trigger v s fun t => (okc, t.onAcs fun a => { a with latched := false }))
  | 0x0D => some (trigger v s (·.lockClear))
  | _ => none

def faultWrite (s : State) (sub v : Nat) : Option (Code × State) :=
  match sub with
  | 0x0A => some (trigger v s fun t => (okc, t.latchClear))
  | 0x0C => some (okc, s.stickyClear v)
  | 0x0D => some (okc, s.setErrn (v = 1))
  | 0x0F => some (trigger v s fun t => (okc, t.safeRelease))
  | 0x12 => some (okc, s.degradeClear v)
  | _ => none

def rstWrite (s : State) (r : Requester) (sub v : Nat) : Option (Code × State) :=
  match sub with
  | 6 => some (match r with | .pair p => s.wdKick p (BitVec.ofNat 8 v) | _ => ((0x03, 0), s))
  | 8 => some (if v = 1 then (okc, s.onRst fun x => { x with wdLock := true }) else ((0x07, 0), s))
  | 9 => some (swrstCode v, s)
  | 0x0A => some (swblkCode v, s)
  | _ => none

def updWrite (s : State) (r : Requester) (sub : Nat) (v : Val) : Option (Code × State) :=
  let w := (v.headD 0).toNat
  match sub with
  | 1 => some ((0x06, 0), s)
  | 3 => some (trigger w s (·.activateBank))
  | 4 => some (trigger w s fun t => (okc, t.confirm))
  | 5 => some (trigger w s fun t => (okc, t.bootOk))
  | 0x0A => some (s.keyLoad r (fld (v.headD 0) 35 28) (keyOf v))
  | 0x0C => some (s.keyClear r w)
  | 0x0D => some (s.revoke r w)
  | _ => none

def bundleWrite (s : State) (r : Requester) (sub v : Nat) : Option (Code × State) :=
  if 1 ≤ sub && sub ≤ 8 then
    some (if v = 0 || hasRwc v then
      (okc, s.onInst r fun i => { i with clist := bset i.clist (Fin.ofNat 8 (sub - 1)) (BitVec.ofNat 16 v) })
    else ((0x07, 0), s))
  else if sub = 0x10 then some (s.writeGo r v)
  else none

/-- The effect of a write that is applied at once, where it is more than a new value (R56). -/
def State.writeEffect (s : State) (r : Requester) (f : Fam) (n sub : Nat) (v : Val) : Option (Code × State) :=
  let w := v.headD 0
  let k := w.toNat
  match f with
  | .hs => hsWrite s (Fin.ofNat 72 n) sub k
  | .leg => legWrite s (Fin.ofNat 16 n) sub k
  | .pair => pairWrite s (Fin.ofNat 8 n) sub w
  | .valve => valveWrite s (Fin.ofNat 12 n) sub k
  | .bank => if sub = 3 then some (trigger k s fun t => (okc, t.bankClear (Fin.ofNat 4 n))) else none
  | .boost => if sub = 0x0A then some (trigger k s fun t => (okc, t.boostClear)) else none
  | .sink => sinkWrite s (Fin.ofNat 24 n) sub k
  | .chain => chainWrite s sub v
  | .matrix => if sub = 0x0F then some (okc, s.matrixShow (k = 1)) else none
  | .io => ioWrite s (Fin.ofNat 16 n) sub k
  | .can => if sub = 0x0C then some (trigger k s fun t => (okc, t.borst (Fin.ofNat 8 n))) else none
  | .lin => if sub = 5 then some (s.linRuntbl r (Fin.ofNat 8 n) (BitVec.ofNat 8 k)) else none
  | .loop => if sub = 1 then some (s.loopMode r (Fin.ofNat 360 n) k) else none
  | .power => pwrWrite s sub k
  | .access => acsWrite s sub k
  | .fault => faultWrite s sub k
  | .reset => rstWrite s r sub k
  | .update => updWrite s r sub v
  | .speed => if sub = 7 then some (s.writeFlags k) else none
  | .prof => if sub = 3 then some (trigger k s (·.store)) else none
  | .dump => if sub = 1 then some (s.dumpGo k) else none
  | .bundle => bundleWrite s r sub k
  | .ident | .contract | .sw | .an | .shed | .tgrp | .eth | .ring | .log | .duo | .fw => none

/-- A write is applied at once (R56). -/
def State.writeNow (s : State) (r : Requester) (f : Fam) (n : Nat) (row : ObjRow) (idx : Nat) (v : Val) : Code × State :=
  (s.writeEffect r f n row.sub v).getD (okc, s.applyVal r row idx v)

/-- A write of an RWC member is staged, and the first makes its writer the owner (R59, R60).  RULES are staged in main SRAM at RBASE (R114,
R115). -/
def State.stage (s : State) (r : Requester) (idx sub : Nat) (v : Val) : Code × State :=
  let put (t : State) : State :=
    if idx = 0x2700 && sub = 1 then t.onMem fun m => memWriteN m (t.stg 0x2700 2) v
    else
      let t1 := t.onSrv fun u => { u with staged := alInsert (okey idx sub) v u.staged }
      if idx = 0x2700 && sub = 2 then t1.onAdm fun a => { a with rbaseW := true } else t1
  match s.srv.bundles.find? (·.index == idx) with
  | some b => if b.owner == r && b.phase == .staging then (okc, put s) else ((0x08, 0), s)
  | none =>
    let s1 := s.onSrv fun u => { u with bundles := u.bundles ++ [{ index := idx, owner := r, since := s.now, phase := .staging }] }
    (okc, (put s1).onInst r fun i => { i with status := 1 })

/-- Checks a write (R59); debug writes factory objects as long as LCS is FACTORY (R64). -/
def State.checkWrite (s : State) (r : Requester) (idx sub : Nat) (v : Val) : (Fam × Nat × ObjRow) ⊕ Byte :=
  match famOf idx with
  | some (f, n) =>
    match findRow f sub with
    | some row =>
      if r == .debug && row.persist == .factory && !s.upd.field then (if typeOk row.type v then .inl (f, n, row) else .inr 0x06)
      else s.writeCheck r idx sub v
    | none => s.writeCheck r idx sub v
  | none => s.writeCheck r idx sub v

/-- A write of an object as the server serves it: its answer, none where it is forwarded or held (R520); refused while the log's queue is full if the
object is protected (R570). -/
def State.serveWrite (s : State) (r : Requester) (hdr : Option ZopHdr) (idx sub : Nat) (v : Val) : Option Code × State :=
  if isFw idx then
    match s.fwAccess r idx sub true with
    | .inr c => (some (c, 0), s)
    | .inl d =>
      if (OType.ofCode (fld d 35 32)).all (typeOk · v) then
        (none, s.forward { by_ := r, hdr := hdr, write := true, key := okey idx sub, value := v, since := s.now })
      else (some (0x06, 0), s)
  else match s.checkWrite r idx sub v with
  | .inr c => (some (c, 0), s)
  | .inl (f, n, row) =>
    if row.type == .dom && (s.domWords f idx sub).any (· != v.length) then (some (0x06, 0), s)
    else if row.prot && 32 ≤ s.log.queue.length then (some (0x10, 0), s)
    else match row.apply with
    | .cmt => let (c, t) := s.stage r idx sub v; (some c, t)
    | .cyc => (some okc, s.onSrv fun u => { u with cyc := alInsert (okey idx sub) (r, v) u.cyc })
    | .per => (some okc, s.onSrv fun u => { u with cyc := alInsert (okey idx sub) (r, v) u.cyc, per := alErase (okey idx sub) u.per })
    | _ =>
      if s.reaches f n then let (c, t) := s.writeNow r f n row idx v; (some c, t)
      else (none, s.holdAcc { by_ := r, hdr := hdr, index := idx, sub := sub, value := some v })

/-! Reads -/

/-- A read of an object as the server serves it: its answer and value, none where it is forwarded or held. -/
def State.serveRead (s : State) (r : Requester) (hdr : Option ZopHdr) (idx sub : Nat) (stg : Bool) : Option (Code × Val) × State :=
  if isFw idx then
    match s.fwAccess r idx sub false with
    | .inr c => (some ((c, 0), []), s)
    | .inl _ =>
      if sub = 0 then (some (okc, [wd (s.fwMax idx)]), s)
      else (none, s.forward { by_ := r, hdr := hdr, write := false, key := okey idx sub, value := [], since := s.now })
  else match s.access r idx sub false with
  | .inr c => (some ((c, 0), []), s)
  | .inl (f, n, row) =>
    if row.type == .dom then (some ((0x06, 0), []), s)
    else if stg then
      if s.srv.bundles.any fun b => b.index == idx && b.owner == r then (some (okc, s.stagedVal idx sub), s)
      else (some ((0x0C, 0), []), s)
    else if (s.computed r f n sub).isSome && !s.reaches f n then
      (none, s.holdAcc { by_ := r, hdr := hdr, index := idx, sub := sub, value := none })
    else (some (okc, s.value r idx sub), s.readMark idx sub)

/-- What follows the answer to a write: the resets of R521 and R522. -/
def State.afterWrite (s : State) (idx sub : Nat) (v : Val) (c : Code) : State :=
  let n := (v.headD 0).toNat
  if c.1 != 0 || idx != rstIdx then s
  else if sub = 9 then s.softReset n
  else if sub = 0x0A then s.softBlock n
  else s

/-- A write is served and answered. -/
def State.doWrite (s : State) (r : Requester) (hdr : Option ZopHdr) (idx sub : Nat) (v : Val) : State :=
  match (s.noteAccess r).serveWrite r hdr idx sub v with
  | (some c, t) => (t.answerAcc r hdr true idx sub c []).afterWrite idx sub v c
  | (none, t) => t

/-- A read is served and answered. -/
def State.doRead (s : State) (r : Requester) (hdr : Option ZopHdr) (idx sub : Nat) (stg : Bool) : State :=
  match (s.noteAccess r).serveRead r hdr idx sub stg with
  | (some (c, v), t) => t.answerAcc r hdr false idx sub c v
  | (none, t) => t

/-- An accepted access is served. -/
def State.doAcc (s : State) (h : HeldAcc) : State :=
  match h.value with
  | some v => s.doWrite h.by_ h.hdr h.index h.sub v
  | none => s.doRead h.by_ h.hdr h.index h.sub false

/-- Held accesses whose block is released are delivered, oldest first (R520). -/
def State.deliverHeld (s : State) : State :=
  let free (h : HeldAcc) : Bool := (famOf h.index).any fun f => s.reaches f.1 f.2
  let due := s.srv.heldAcc.filter free
  due.foldl State.doAcc (s.onSrv fun u => { u with heldAcc := u.heldAcc.filter fun h => !free h })

/-- The firmware handler answers an access forwarded to it (R70): with the value of a read, or for a write with nothing, or one word that holds the
code of its refusal (log 6). -/
def State.fwAnswer (s : State) (q : FwReq) (v : Val) : State :=
  let i := q.key / 256
  let sub := q.key % 256
  let t := s.onSrv fun u => { u with fw := u.fw.erase q }
  if q.write then t.answerAcc q.by_ q.hdr true i sub (match v with | [c] => (BitVec.ofNat 8 c.toNat, 0) | _ => okc) []
  else if typeOk (s.typeOf i sub) v then t.answerAcc q.by_ q.hdr false i sub okc v
  else t.answerAcc q.by_ q.hdr false i sub (0x06, 0) []

/-- The oldest access forwarded for an object, if a requester is the pair that serves it. -/
def State.fwAsked (s : State) (r : Requester) (idx sub : Nat) : Option FwReq :=
  if r == .pair s.servePair then s.srv.fw.find? (·.key == okey idx sub) else none

/-- REGISTER_WRITE (R56): a write of an object that has no row of its own; by it the firmware handler answers, too (R70). -/
def execRegisterWrite (r : Requester) (index : BitVec 16) (sub : Byte) (v : List Word) (s : State) : Host.Outcome State Fault Refusal :=
  .next (if s.up 2 || (r == .debug && (famOf index.toNat).any fun f => famDomain f.1 == 0) then
    match s.fwAsked r index.toNat sub.toNat with
    | some q => s.fwAnswer q v
    | none =>
      let a : HeldAcc := { by_ := r, hdr := none, index := index.toNat, sub := sub.toNat, value := some v }
      s.accept (.acc a) (·.tell r (0x10, 0) []) (·.doAcc a)
  else s)

/-- FWOBJ_HANDLER_TIMEOUT (R70): the oldest forwarded access. -/
def execFwobjHandlerTimeout (s : State) : Host.Outcome State Fault Refusal :=
  .next (match s.srv.fw with
  | [] => s
  | q :: l =>
    let s1 := (s.at (q.since + msT 1)).onSrv fun v => { v with fw := l }
    s1.answerAcc q.by_ q.hdr q.write (q.key / 256) (q.key % 256) (0x0D, 0) [])

/-! Persistence (R64, R65) -/

/-- STORE. -/
def execStore (r : Requester) (s : State) : Host.Outcome State Fault Refusal :=
  .next (s.objCmd r profIdx 3 [1] (·.store))

/-- SAVED_STORE_TIMER (R64): 2 s after the last change. -/
def execSavedStoreTimer (s : State) : Host.Outcome State Fault Refusal :=
  .next (match s.srv.dirty, s.up 2 with
  | some t, true => (s.at (t + secT 2)).onSrv fun v => { v with storing := true, dirty := none }
  | _, _ => s)

/-- SAVED_STORE_DONE (R65): the record is used whole, or ignored whole; a power entry that waits for it is
refused (R64, R430). -/
def execSavedStoreDone (ok : Bool) (s : State) : Host.Outcome State Fault Refusal :=
  .next (if !s.srv.storing then s
  else if ok then s.onSrv fun v => { v with
    storing := false, saved := s.savedNow, savedRest := s.restNow, schema := if s.upd.recov then v.schema else s.imgSchema s.upd.mapped }
  else
    let s1 := (s.onSrv fun v => { v with storing := false }).raise 0x09 4
    if s.pwr.storing then s1.refuseEntry 3 9 else s1)

end Sys2Proof.Machine
end

