-- ==== Sys2Proof/Machine/MyunoMem.lean ====
section
/-!
DEFINITION. Instructions of the Myuno-36 that reach memory, objects and flows: loads and stores, the data stack, cache lines, LDO and STO
with the server's answer, STF and SYNC (R69, R297, R298, R304, R306, R313 to R316).
-/
namespace Sys2Proof.Machine

/-! Loads and stores (R304, R306, R313) -/

/-- A loaded word enters a data register, usable after its delay. -/
def Core.loadD (c : Core) (d : DReg) (w : Word) (delay : Nat) : Core :=
  let c1 := c.setD d w
  { c1 with readyD := bset c1.readyD d (c.cyc + delay) }

/-- A loaded word enters an address register, usable after its delay. -/
def Core.loadA (c : Core) (n : AFld) (w : Word) (delay : Nat) : Core :=
  let c1 := c.setA n (addrOf w)
  { c1 with readyA := bset c1.readyA (Fin.ofNat 9 n.val) (c.cyc + delay) }

/-- A load from an address; `put` says where its word goes. -/
def State.loadWith (t : State) (p : Fin 2) (a : Addr) (ecc : Ecc) (put : Core → Word → Nat → Core) : Done :=
  match t.dataRead p a ecc with
  | .got w delay t1 => .ok (t1.onCore p fun c => put c w delay)
  | .bad v t1 => .trap v (some a) t1

/-- A store to an address, after which `f` holds of the pair. -/
def State.storeWith (t : State) (p : Fin 2) (a : Addr) (w : Word) (ecc : Ecc) (f : Core → Core) : Done :=
  match t.dataWrite p a w ecc with
  | .got _ _ t1 => .ok (t1.onCore p f)
  | .bad v t1 => .trap v (some a) t1

/-- The place of an M-format instruction. -/
def State.ea (s : State) (p : Fin 2) (ab : ABase) (off : BitVec 23) : Addr := (bget s.cores p).place ab off

def execLd (p : Fin 2) (d : DReg) (ab : ABase) (off : BitVec 23) (ecc : Ecc) (s : State) : Host.Outcome State Fault Refusal :=
  .next (s.insn p 1 (rdB ab) fun t => t.loadWith p (t.ea p ab off) ecc fun c w n => c.loadD d w n)

def execSt (p : Fin 2) (ds : DReg) (ab : ABase) (off : BitVec 23) (ecc : Ecc) (s : State) : Host.Outcome State Fault Refusal :=
  .next (s.insn p 1 (fun c => Nat.max (rdB ab c) (rdD [ds] c)) fun t => t.storeWith p (t.ea p ab off) ((bget t.cores p).dreg ds) ecc id)

def execLda (p : Fin 2) (an : AFld) (ab : ABase) (off : BitVec 23) (ecc : Ecc) (s : State) : Host.Outcome State Fault Refusal :=
  .next (s.insn p 1 (rdB ab) fun t =>
    if aOk an then t.loadWith p (t.ea p ab off) ecc fun c w n => c.loadA an w n else illegal t)

def execSta (p : Fin 2) (an : AFld) (ab : ABase) (off : BitVec 23) (ecc : Ecc) (s : State) : Host.Outcome State Fault Refusal :=
  .next (s.insn p 1 (fun c => Nat.max (rdB ab c) (rdA [an] c)) fun t =>
    if aOk an then t.storeWith p (t.ea p ab off) (((bget t.cores p).areg an).zeroExtend 36) ecc id else illegal t)

/-- SP as an address-register field. -/
def spFld : AFld := 8

/-- PUSH stores at SP, then increments it. -/
def execPush (p : Fin 2) (ds : DReg) (ecc : Ecc) (s : State) : Host.Outcome State Fault Refusal :=
  .next (s.insn p 1 (fun c => Nat.max (rdA [spFld] c) (rdD [ds] c)) fun t =>
    t.storeWith p (bget t.cores p).sp ((bget t.cores p).dreg ds) ecc fun c => { c with sp := c.sp + 1 })

/-- POP loads from SP − 1; a POP that faults leaves SP (log 74). -/
def execPop (p : Fin 2) (d : DReg) (ecc : Ecc) (s : State) : Host.Outcome State Fault Refusal :=
  .next (s.insn p 1 (rdA [spFld]) fun t =>
    t.loadWith p ((bget t.cores p).sp - 1) ecc fun c w n => { c.loadD d w n with sp := c.sp - 1 })

/-! Cache lines (R297, R298) -/

/-- CWB: a dirty line is written back and stays; a check-bit error shows in the words read. -/
def execCwb (p : Fin 2) (ab : ABase) (off : BitVec 23) (ecc : Ecc) (s : State) : Host.Outcome State Fault Refusal :=
  .next (s.insn p 1 (rdB ab) fun t =>
    let a := t.ea p ab off
    let clean (u : State) (x : CacheLine) : State :=
      (u.writeBack p x).onCore p fun c => { c with dcache := c.dcache.map fun y => if y.line = x.line then { y with dirty := false } else y }
    if t.guarded a then .trap 2 (some a) t
    else match (bget t.cores p).dline a.toNat with
    | none => .ok t
    | some x =>
      if !x.dirty then .ok t
      else match ecc with
      | .good => .ok (clean t x)
      | .corrected => .ok (clean (t.raise (pairBlk p) 2) x)
      | .uncorrectable => .trap 7 (some a) ((t.onCore p fun c => c.dropLine x.line).raise (pairBlk p) 3))

/-- CINV: the line leaves the data cache, with what is dirty in it. -/
def execCinv (p : Fin 2) (ab : ABase) (off : BitVec 23) (_ecc : Ecc) (s : State) : Host.Outcome State Fault Refusal :=
  .next (s.insn p 1 (rdB ab) fun t =>
    let a := t.ea p ab off
    if t.guarded a then .trap 2 (some a) t else .ok (t.onCore p fun c => c.dropLine (a.toNat / 8)))

/-! Objects (R68, R69, R315) -/

/-- C, and OREF where the access was refused. -/
def Core.objFlags (c : Core) (r : Code) : Core :=
  if r.1 = 0 then c.setPsw 0x004 0 else { c.setPsw 0x004 0x004 with oref := r.2 ++ r.1 }

/-- The words of an LDO or STO reach the server (R55): it waits for its answer, or is refused as busy at once. -/
def State.askServer (t : State) (q : CoreReq) : Done :=
  if t.srvBusy then .ok (t.onCore q.pair fun c => c.objFlags (0x10, 0))
  else .wait (t.onSrv fun v => { v with queue := v.queue ++ [.core q] })

def execLdo (p : Fin 2) (d : DReg) (index : BitVec 16) (sub : Byte) (s : State) : Host.Outcome State Fault Refusal :=
  .next (s.insn p 1 (rdD []) fun t => t.askServer { pair := p, write := false, reg := d, index := index, sub := sub, value := 0 })

def execSto (p : Fin 2) (ds : DReg) (index : BitVec 16) (sub : Byte) (s : State) : Host.Outcome State Fault Refusal :=
  .next (s.insn p 1 (rdD [ds]) fun t =>
    t.askServer { pair := p, write := true, reg := ds, index := index, sub := sub, value := (bget t.cores p).dreg ds })

/-- An LDO as the server answers it: code and word; none while its block is in reset (R69, R520). -/
def State.answerLdo (s : State) (q : CoreReq) : Option (Code × Word × State) :=
  let key := okey q.index.toNat q.sub.toNat
  let s1 := s.onSrv fun v => { v with half := bset v.half q.pair none }
  match bget s.srv.ldo q.pair with
  | some (k, w :: l) =>
    if k = key then some (okc, w, s1.onSrv fun v => { v with ldo := bset v.ldo q.pair (if l.isEmpty then none else some (k, l)) })
    else fresh key s1
  | _ => fresh key s1
where
  /-- A read of the object; what follows its first word is latched. -/
  fresh (key : ObjKey) (s1 : State) : Option (Code × Word × State) :=
    match (s1.onSrv fun v => { v with ldo := bset v.ldo q.pair none }).serveRead (.pair q.pair) none q.index.toNat q.sub.toNat false with
    | (none, _) => none
    | (some (c, v), s2) =>
      if c.1 = 0 then
        some (c, v.headD 0, s2.onSrv fun u => { u with ldo := bset u.ldo q.pair (if v.tail.isEmpty then none else some (key, v.tail)) })
      else some (c, 0, s2)

/-- The half of a U72 write that the pair holds for an object (R69). -/
def State.heldHalf (s : State) (p : Fin 2) (key : ObjKey) : Option Word :=
  match bget s.srv.half p with
  | some (k, w, t) => if k = key && s.now < t + msT 1 then some w else none
  | none => none

/-- An STO as the server answers it: code and the words written; none while its block is in reset. -/
def State.answerSto (s : State) (q : CoreReq) : Option (Code × Val × State) :=
  let i := q.index.toNat
  let key := okey i q.sub.toNat
  let s1 := s.onSrv fun v => { v with ldo := bset v.ldo q.pair none, half := bset v.half q.pair none }
  let go (v : Val) : Option (Code × Val × State) :=
    match s1.serveWrite (.pair q.pair) none i q.sub.toNat v with
    | (some c, s2) => some (c, v, s2)
    | (none, _) => none
  if s.typeOf i q.sub.toNat == .u72 && !isFw i then
    match s.heldHalf q.pair key with
    | some w => go [w, q.value]
    | none => some (okc, [], s1.onSrv fun v => { v with half := bset v.half q.pair (some (key, q.value, s.now)) })
  else go [q.value]

/-- A request is served and its instruction completes; none where it has to wait. -/
def State.serveCore (s : State) (q : CoreReq) : Option State :=
  let p := q.pair
  let s0 := s.onSrv fun v => { v with queue := v.queue.erase (.core q) }
  let finish (c : Code) (t : State) : State :=
    (t.onCore p fun x => { x.objFlags c with cyc := t.cycleOf p }).complete p 1 ((bget t.cores p).pc + 1)
  if q.write then
    (s0.answerSto q).map fun (c, v, t) => (finish c t).afterWrite q.index.toNat q.sub.toNat v c
  else
    (s0.answerLdo q).map fun (c, w, t) => finish c (if c.1 = 0 then t.onCore p fun x => x.setD q.reg w else t)

/-- U72_HALF_TIMEOUT (R69): 1 ms after the first STO. -/
def execU72HalfTimeout (p : Fin 2) (s : State) : Host.Outcome State Fault Refusal :=
  .next (match bget s.srv.half p with
  | some (_, _, t) => (s.at (t + msT 1)).onSrv fun v => { v with half := bset v.half p none }
  | none => s)

/-! Flows (R316) -/

/-- The SRC of a pair's flows. -/
def stfSrc (p : Fin 2) : Nat := 0x0B00 + 0x100 * p.val

/-- The words of a partial transaction leave the pair; those of a contract withdrawn meanwhile are discarded (R87). -/
def State.stfSend (s : State) (p : Fin 2) (x : StfPart) : State :=
  let s1 := s.onCore p fun c => { c with stf := c.stf.filter (·.contract != x.contract) }
  if (s.ct x.contract).inForce then s1.toFlow x.contract x.words else s1

/-- A word joins the partial transaction of its flow, which leaves once it holds TXN words. -/
def State.stfWord (s : State) (p : Fin 2) (n : Fin 256) (w : Word) : State :=
  let ws := (((bget s.cores p).stf.find? (·.contract == n)).map (·.words)).getD [] ++ [w]
  let x : StfPart := { contract := n, words := ws, last := s.now }
  if s.cfg (ctIdx n) 7 ≤ ws.length then s.stfSend p x
  else s.onCore p fun c => { c with stf := c.stf.filter (·.contract != n) ++ [x] }

/-- RATE and BURST of a flow: TIME when one more word fits, the credit then, in hundred-millionths of a word; none where BURST admits none. -/
def State.stfFits (s : State) (n : Fin 256) : Option (Nat × Nat) :=
  let c := s.ct n
  let one := 100000000
  let full := s.cfg (ctIdx n) 5 * one
  let rate := s.cfg (ctIdx n) 4
  let have_ := Nat.min full (c.tok + rate * (s.now - c.tokAt))
  if one ≤ have_ then some (s.now, have_)
  else if full < one || rate = 0 then none
  else
    let wait := (one - have_ + rate - 1) / rate
    some (s.now + wait, Nat.min full (have_ + rate * wait))

def execStf (p : Fin 2) (ds : DReg) (c : Byte) (s : State) : Host.Outcome State Fault Refusal :=
  .next (s.insn p 1 (rdD [ds]) fun t =>
    let n : Fin 256 := c.toFin
    let w := (bget t.cores p).dreg ds
    if (t.ct n).state = 1 && t.cfg (ctIdx n) 1 = stfSrc p then
      match t.stfFits n with
      | none => .wait t
      | some (at_, have_) =>
        let t1 := t.at at_
        let t2 := t1.onCt n fun k => { k with tok := have_ - 100000000, tokAt := t1.now }
        .ok ((t2.stfWord p n w).onCore p fun x => x.objFlags okc)
    else .ok (t.onCore p fun x => x.objFlags (0x12, 0x000D)))

/-- STF_FLUSH_TIMEOUT: 8 cycles after the last STF to the flow. -/
def execStfFlushTimeout (p : Fin 2) (c : Byte) (s : State) : Host.Outcome State Fault Refusal :=
  .next (match (bget s.cores p).stf.find? fun x => x.contract.val = c.toNat with
  | some x => (s.at (x.last + 4)).stfSend p x
  | none => s)

/-- SYNC: every store of the pair has been accepted (log 75); partial transactions are sent. -/
def execSync (p : Fin 2) (s : State) : Host.Outcome State Fault Refusal :=
  .next (s.insn p 1 (rdD []) fun t => .ok ((bget t.cores p).stf.foldl (fun u x => u.stfSend p x) t))

end Sys2Proof.Machine
end

