-- ==== Sys2Proof/Machine/MyunoFlow.lean ====
section
/-!
DEFINITION. Control flow of the Myuno-36: branches, calls and returns, special registers, exceptions, interrupts, the lockstep checker
(R295, R301, R302, R305, R307, R311 to R313, R317 to R320), and debug accesses (R554, R573, R595).
-/
namespace Sys2Proof.Machine

/-! Branches, calls and returns -/

/-- COND (R312). -/
def condHolds (psw : BitVec 11) (c : Fin 16) : Bool :=
  let z := psw.getLsbD 0
  let n := psw.getLsbD 1
  let cy := psw.getLsbD 2
  let v := psw.getLsbD 3
  match c.val with
  | 0x0 => true
  | 0x1 => z
  | 0x2 => !z
  | 0x3 => n != v
  | 0x4 => n == v
  | 0x5 => !z && n == v
  | 0x6 => z || n != v
  | 0x7 => cy
  | 0x8 => !cy
  | 0x9 => !cy && !z
  | 0xA => cy || z
  | 0xB => n
  | 0xC => !n
  | 0xD => v
  | 0xE => !v
  | _ => psw.getLsbD 4

def execB (p : Fin 2) (cond : Fin 16) (rel : BitVec 24) (s : State) : Host.Outcome State Fault Refusal :=
  let c := bget s.cores p
  .next (if condHolds c.psw cond then s.insn p 3 (rdD []) fun t => .jump (c.pc + rel) t else s.insn p 1 (rdD []) fun t => .ok t)

/-- A call: the entry is pushed; exception 5 follows where its spill left one free group alone (R307). -/
def State.call (t : State) (p : Fin 2) (target : Addr) : Done :=
  match t.pushEntry p false ((bget t.cores p).pc + 1) with
  | none => .dead t
  | some (true, t1) => .post 5 0 target t1
  | some (false, t1) => .jump target t1

def execCall (p : Fin 2) (rel : BitVec 24) (s : State) : Host.Outcome State Fault Refusal :=
  .next (s.insn p 3 (rdD []) fun t => t.call p ((bget t.cores p).pc + rel))

def execCallr (p : Fin 2) (ab : ABase) (s : State) : Host.Outcome State Fault Refusal :=
  .next (s.insn p 3 (rdB ab) fun t => t.call p ((bget t.cores p).abase ab))

def execNop (p : Fin 2) (s : State) : Host.Outcome State Fault Refusal := .next (s.alu p [] id)

def execJmpr (p : Fin 2) (ab : ABase) (s : State) : Host.Outcome State Fault Refusal :=
  .next (s.insn p 3 (rdB ab) fun t => .jump ((bget t.cores p).abase ab) t)

/-- A return; `f` is what the entry gives the pair beside PC. -/
def State.ret (t : State) (p : Fin 2) (f : Word → Core → Core) : Done :=
  match t.popEntry p with
  | .entry w t1 => .jump (addrOf w) (t1.onCore p (f w))
  | .empty => .trap 6 none t
  | .bad a t1 => .trap 3 (some a) t1

def execRet (p : Fin 2) (s : State) : Host.Outcome State Fault Refusal :=
  .next (s.insn p 3 (rdD []) fun t => t.ret p fun _ c => c)

def execRti (p : Fin 2) (s : State) : Host.Outcome State Fault Refusal :=
  .next (s.insn p 4 (rdD []) fun t => t.ret p fun w c => { c with psw := w.extractLsb' 24 11 })

/-! WAIT, interrupt enable, breakpoint, trap -/

/-- WAIT: issue stops until a source is takeable. -/
def execWait (p : Fin 2) (s : State) : Host.Outcome State Fault Refusal :=
  .next (s.alu p [] fun c => { c with run := .waiting })

def execEi (p : Fin 2) (s : State) : Host.Outcome State Fault Refusal := .next (s.alu p [] fun c => c.setPsw 0x020 0x020)

def execDi (p : Fin 2) (s : State) : Host.Outcome State Fault Refusal := .next (s.alu p [] fun c => c.setPsw 0x020 0)

/-- BKPT: the pair halts where debug is attached; else exception 9. -/
def execBkpt (p : Fin 2) (s : State) : Host.Outcome State Fault Refusal :=
  .next (if s.dbgAttached then
    let s1 := s.alu p [] fun c => { c with run := .halted }
    if (bget s1.cores p).run == .halted && (bget s.cores p).run != .halted then s1.wdDebug else s1
  else s.insn p 1 (rdD []) fun t => .post 9 0 ((bget t.cores p).pc + 1) t)

def execTrap (p : Fin 2) (n : Byte) (s : State) : Host.Outcome State Fault Refusal :=
  .next (s.insn p 1 (rdD []) fun t => .post 8 n.toNat ((bget t.cores p).pc + 1) t)

def execCinvi (p : Fin 2) (s : State) : Host.Outcome State Fault Refusal :=
  .next (s.insn p 520 (rdD []) fun t => .ok (t.onCore p fun c => { c with icache := [] }))

/-! Interrupt sources (R317, R318) -/

/-- The other pair. -/
def otherPair (p : Fin 2) : Fin 2 := if p = 0 then 1 else 0

/-- Line l of block b (R108, R291, R317, R345, R357, R391, R395, R428, R455, R501, R525, R542). -/
def State.blockLine (s : State) (b l : Nat) : Bool :=
  if b = 0x05 then s.faultLine l
  else if b = 0x42 then (l = 0 && s.acs.line0) || (l = 1 && s.lockedOut)
  else if 0x48 ≤ b && b ≤ 0x4F then s.canLine (Fin.ofNat 8 (b - 0x48)) l
  else if l != 0 then false
  else if b = 0x00 then s.duo.line
  else if b = 0x01 then s.rst.wdWarn
  else if b = 0x02 then s.pwr.mode == .entering
  else if b = 0x06 then !s.adm.q.items.isEmpty
  else if 0x10 ≤ b && b ≤ 0x1F then (s.seq (Fin.ofNat 16 (b - 0x10))).signal != 0
  else if b = 0x20 then !s.lq.items.isEmpty
  else if b = 0x3B then !s.vq.items.isEmpty
  else if b = 0x3D then !s.inq.items.isEmpty
  else if 0x50 ≤ b && b ≤ 0x57 then s.linLine (Fin.ofNat 8 (b - 0x50))
  else if b = 0x58 then s.ethLine
  else false

/-- A source is pending at a pair: edge sources 16 to 25 by their bit, lines by their block. -/
def State.srcPending (s : State) (p : Fin 2) (n : Fin 544) : Bool :=
  if n.val ≤ 25 then (bget (bget s.cores p).irq n).pend
  else if 32 ≤ n.val then s.blockLine ((n.val - 32) / 4) ((n.val - 32) % 4)
  else false

/-- A source is takeable (R319). -/
def State.takeable (s : State) (p : Fin 2) (n : Fin 544) : Bool :=
  let c := bget s.cores p
  let i := bget c.irq n
  16 ≤ n.val && i.en && s.srcPending p n && c.psw.getLsbD 5 && (!c.psw.getLsbD 6 || decide (c.psw.extractLsb' 7 4 < i.level))

/-- The takeable source of the highest level, the lowest number among equals. -/
def State.nextSource (s : State) (p : Fin 2) : Option (Fin 544) :=
  ((allFin 544).filter fun n => (bget (bget s.cores p).irq n).en && s.takeable p n).foldl (fun a n => match a with
    | none => some n
    | some m => if (bget (bget s.cores p).irq m).level < (bget (bget s.cores p).irq n).level then some n else a) none

/-- A source is entered: the entry is pushed, ACT and IPL are set, an edge source is cleared, PC is loaded from the vector. -/
def State.takeSource (s : State) (p : Fin 2) (n : Fin 544) : State :=
  let c := bget s.cores p
  let t := s.cycleOf p
  let s1 := s.onCore p fun c => { c with cyc := t }.land t
  match s1.vector p n.val c.pc with
  | none => s1.doubleFault p
  | some (near, s2) =>
    let s3 := s2.onCore p fun x =>
      let x1 := x.setPsw 0x7C0 (0x040 ||| ((bget c.irq n).level.zeroExtend 11 <<< 7))
      { x1 with run := .running, cyc := x1.cyc + 6, irq := if n.val ≤ 25 then bmod x1.irq n fun i => { i with pend := false } else x1.irq }
    let s4 := if s3.pwr.mode == .idle then s3.onPwr fun w => { w with mode := .run } else s3
    if near then s4.except p 5 0 (bget s4.cores p).pc none else s4

/-- INTERRUPT_ENTRY (R319): at an instruction boundary, no access being with the object server. -/
def execInterruptEntry (p : Fin 2) (s : State) : Host.Outcome State Fault Refusal :=
  let r := (bget s.cores p).run
  .next (if (r == .running || r == .waiting) && !s.served_ p then
    (match s.nextSource p with
    | some n => s.takeSource p n
    | none => s)
  else s)

/-- TIMER_COMPARE_MATCH (R302): TIME [35:0] comes to TMR. -/
def execTimerCompareMatch (p : Fin 2) (s : State) : Host.Outcome State Fault Refusal :=
  let c := bget s.cores p
  let t := s.now / 2 ^ 36 * 2 ^ 36 + c.tmr.toNat
  .next (if c.run == .reset then s
  else (s.at (if s.now ≤ t then t else t + 2 ^ 36)).onCore p fun c => { c with irq := bmod c.irq 16 fun i => { i with pend := true } })

/-! Special registers (R302) -/

/-- ICFG of the source in ISEL. -/
def State.icfg (s : State) (p : Fin 2) : Word :=
  let c := bget s.cores p
  let n : Fin 544 := Fin.ofNat 544 c.isel.toNat
  let i := bget c.irq n
  wd (b1 i.en * 128 + i.level.toNat * 8 + b1 (s.srcPending p n) * 4)

/-- The word that MFS reads; none where the number is not listed.  DBELL is write-only: what it reads as is a free value (log 7). -/
def State.srRead (s : State) (p : Fin 2) (sr : Nat) : Option (Word × State) :=
  let c := bget s.cores p
  let ac (n : Fin 2) (lo : Nat) : Word := (bget c.ac n).extractLsb' lo 36
  match sr with
  | 0x00 => some (c.psw.zeroExtend 36, s)
  | 0x01 => some (c.mh, s)
  | 0x02 => some (c.ml, s)
  | 0x03 => some (c.rsp, s)
  | 0x04 => some (c.rslo.zeroExtend 36, s)
  | 0x05 => some (c.rshi.zeroExtend 36, s)
  | 0x06 => some (c.vbase.zeroExtend 36, s)
  | 0x07 => some (c.ecause.zeroExtend 36, s)
  | 0x08 => some (c.eaddr.zeroExtend 36, s)
  | 0x09 => some (c.oref.zeroExtend 36, s)
  | 0x0A => some (c.isel.zeroExtend 36, s)
  | 0x0B => some (s.icfg p, s)
  | 0x0C => some (wd c.cyc, s)
  | 0x0D => some (wd p.val, s)
  | 0x10 => some (ac 0 0, s)
  | 0x11 => some (ac 0 36, s)
  | 0x12 => some (ac 0 72 &&& 0xFF, s)
  | 0x13 => some (ac 1 0, s)
  | 0x14 => some (ac 1 36, s)
  | 0x15 => some (ac 1 72 &&& 0xFF, s)
  | 0x16 => some (c.tmr, s)
  | 0x17 => some (Config.freeWord s.draw.1, s.draw.2)
  | _ => none

/-- Bits lo and up of an accumulator take w bits of a word. -/
def Core.acPart (c : Core) (n : Fin 2) (lo w : Nat) (x : Word) : Core :=
  let m : Acc80 := BitVec.ofNat 80 (2 ^ w - 1) <<< lo
  { c with ac := bmod c.ac n fun v => (v &&& ~~~m) ||| ((x.zeroExtend 80 <<< lo) &&& m) }

/-- ICFG is written; PEND = 0 clears an edge source. -/
def IrqCfg.put (i : IrqCfg) (w : Word) (edge : Bool) : IrqCfg :=
  { en := w.getLsbD 7, level := w.extractLsb' 3 4, pend := if edge && !w.getLsbD 2 then false else i.pend }

/-- DBELL: doorbells at the other pair, unless it is in reset. -/
def State.bells (s : State) (p : Fin 2) (w : Word) : State :=
  if (bget s.cores (otherPair p)).run == .reset then s
  else s.onCore (otherPair p) fun c =>
    { c with irq := (List.range 8).foldl (fun b n => if w.getLsbD n then bmod b (Fin.ofNat 544 (17 + n)) fun i => { i with pend := true } else b) c.irq }

/-- What MTS does; none where it is illegal.  SSP follows RSLO, which is written only while they are equal (log 76). -/
def State.srWrite (s : State) (p : Fin 2) (sr : Nat) (w : Word) : Option State :=
  let c := bget s.cores p
  let on (f : Core → Core) : Option State := some (s.onCore p f)
  let open_ := !c.rslock && c.ssp == c.rslo
  match sr with
  | 0x00 => on fun c => { c with psw := w.truncate 11 }
  | 0x01 => on fun c => { c with mh := w }
  | 0x02 => on fun c => { c with ml := w }
  | 0x04 => if open_ then on fun c => { c with rslo := addrOf w, ssp := addrOf w } else none
  | 0x05 => if open_ then on fun c => { c with rshi := addrOf w, rslock := true } else none
  | 0x06 => on fun c => { c with vbase := addrOf w }
  | 0x0A => if 16 ≤ w.toNat && w.toNat ≤ 543 then on fun c => { c with isel := w.truncate 10 } else none
  | 0x0B => on fun c => { c with irq := bmod c.irq (Fin.ofNat 544 c.isel.toNat) fun i => i.put w (decide (c.isel.toNat ≤ 25)) }
  | 0x10 => on fun c => c.acPart 0 0 36 w
  | 0x11 => on fun c => c.acPart 0 36 36 w
  | 0x12 => on fun c => c.acPart 0 72 8 w
  | 0x13 => on fun c => c.acPart 1 0 36 w
  | 0x14 => on fun c => c.acPart 1 36 36 w
  | 0x15 => on fun c => c.acPart 1 72 8 w
  | 0x16 => on fun c => { c with tmr := w }
  | 0x17 => some (s.bells p w)
  | _ => none

def execMfs (p : Fin 2) (d : DReg) (sr : Fin 64) (s : State) : Host.Outcome State Fault Refusal :=
  .next (s.insn p 1 (rdD []) fun t => match t.srRead p sr.val with
    | some (w, t1) => .ok (t1.onCore p fun c => c.setD d w)
    | none => illegal t)

def execMts (p : Fin 2) (sr : Fin 64) (ds : DReg) (s : State) : Host.Outcome State Fault Refusal :=
  .next (s.insn p 1 (rdD [ds]) fun t => match t.srWrite p sr.val ((bget t.cores p).dreg ds) with
    | some t1 => .ok t1
    | none => illegal t)

/-! Illegal words (R311, R312) -/

/-- A word that stands for no instruction: OP or FN absent, a field that must be zero is not, WID and POS, an address-register field above 8. -/
def illegalWord (w : Word) : Bool :=
  let op := fld w 35 30
  let rd := fld w 29 26
  let ra := fld w 25 22
  let rb := fld w 21 18
  let fn := fld w 5 0
  let z (hi lo : Nat) : Bool := fld w hi lo != 0
  match op with
  | 0x00 => 0x10 < fn || z 17 12 || (fn = 0x0C && rd != 0)
  | 0x01 => false
  | 0x02 => false
  | 0x03 => false
  | 0x04 => false
  | 0x05 => rd != 0
  | 0x06 => z 21 6
  | 0x07 => z 21 6
  | 0x08 => z 21 6
  | 0x09 => ra != 0
  | 0x0A => z 25 18
  | 0x10 => 8 < rd
  | 0x11 => z 17 12 || (match fn with
    | 0 => 8 < rd || 8 < ra
    | 1 => 8 < rd
    | 2 => 8 < ra
    | 3 => 8 < ra || 8 < rb
    | _ => true)
  | 0x14 => false
  | 0x15 => false
  | 0x16 => 8 < rd
  | 0x17 => 8 < rd
  | 0x18 => z 25 0
  | 0x19 => z 25 0
  | 0x1C => z 25 24
  | 0x1D => z 25 24
  | 0x1E => z 25 8
  | 0x20 => z 25 24
  | 0x21 => z 29 24
  | 0x22 => 0x0B < fn || z 29 26 || z 22 14
  | 0x24 => 0x06 < fn || z 17 13
  | 0x28 => z 9 0 || fld w 15 10 = 0 || 36 < fld w 21 16 + fld w 15 10
  | 0x29 => z 8 0 || fld w 15 10 = 0 || 36 < fld w 21 16 + fld w 15 10
  | 0x2A => z 13 0
  | 0x2C => z 25 6
  | 0x2D => z 25 6
  | 0x2E => rd != 0
  | 0x2F => rd != 0
  | _ => true

/-- ILLEGAL_INSTRUCTION: the word at PC is w. -/
def execIllegalInstruction (p : Fin 2) (w : Word) (s : State) : Host.Outcome State Fault Refusal :=
  .next (if illegalWord w then s.insn p 1 (rdD []) illegal else s)

/-! Lockstep (R295) -/

/-- LOCKSTEP_MISMATCH: kind 0, and the lock-up reset of the pair. -/
def execLockstepMismatch (p : Fin 2) (s : State) : Host.Outcome State Fault Refusal :=
  .next (if (bget s.cores p).run == .reset then s else (s.raise (pairBlk p) 0).lockUp p 0)

/-! Debug accesses (R554, R573, R574, R595) -/

/-- A debug access ends: failed or not, and the word that it read. -/
def State.dbgEnd (s : State) (fail : Bool) (w : Word) : State :=
  s.onDbg fun d => { d with ir := 0x12, fail := fail, out := w.zeroExtend 136 }

/-- Memory through the debug port; it is not issued while FAB is not released. -/
def State.dbgMem (s : State) (f : State → Resp × State) : State :=
  if s.up 2 then
    let (r, t) := f s
    t.dbgEnd r.error (r.data.getD 0 0)
  else s.dbgEnd true 0

/-- The object is reached: FAB is released, or AON holds it. -/
def State.dbgReach (s : State) (idx : Nat) : Bool := s.up 2 || (famOf idx).any fun f => famDomain f.1 == 0

/-- A pair is halted or resumed by debug. -/
def State.dbgRun (s : State) (p : Fin 2) (c : CoreRun) : State :=
  let s1 := s.onCore p fun x => { x with run := c }
  ((if s1.pwr.mode == .idle then s1.onPwr fun w => { w with mode := .run } else s1).wdDebug).dbgEnd false 0

/-- One debug access of an open port; writes, halt and resume need level 2 (log 77). -/
def State.dacc (s : State) : DebugAcc → State
  | .readMem a => s.dbgMem fun t => t.busRead 9 a.toNat 1 .good
  | .writeMem a w => if s.dbgFull then s.dbgMem fun t => t.busWrite 9 a.toNat [w] .good else s.dbgEnd true 0
  | .readObj i u => if s.dbgReach i.toNat then (s.doRead .debug none i.toNat u.toNat false).dbgEnd false 0 else s.dbgEnd true 0
  | .writeObj i u v =>
    if !s.dbgFull || !s.dbgReach i.toNat then s.dbgEnd true 0
    else if i = 0x1500 && u = 0x09 && v = [2] then s.toField.dbgEnd false 0
    else (s.doWrite .debug none i.toNat u.toNat v).dbgEnd false 0
  | .halt p =>
    let r := (bget s.cores p).run
    if s.dbgFull && (r == .running || r == .waiting) then s.dbgRun p .halted else s.dbgEnd true 0
  | .resume p => if s.dbgFull && (bget s.cores p).run == .halted then s.dbgRun p .running else s.dbgEnd true 0

/-- DACC: a locked port selects BYPASS. -/
def execDacc (a : DebugAcc) (s : State) : Host.Outcome State Fault Refusal :=
  .next (s.jtag fun t => if t.dbgOpen then t.dacc a else t.selectIr 0x3F 0)

end Sys2Proof.Machine
end

