-- ==== Sys2Proof/Machine/Release.lean ====
section
/-!
DEFINITION. The release of domains and blocks: the sequence after a reset, the return from PARK and DEEP PARK, and the start after power-on
(R62, R64, R88, R321, R341, R360, R436, R512 to R526, R560, R596).
-/
namespace Sys2Proof.Machine

/-! What the object server delivers (R62, R64) -/

/-- The family and row of a stored key. -/
def keyRow (k : ObjKey) : Option (Fam × Nat × ObjRow) :=
  (famOf (k / 256)).bind fun f => (findRow f.1 (k % 256)).map fun r => (f.1, f.2, r)

/-- Objects of a set at a release: the volatile ones take their defaults; the saved ones keep their values, or with `full` take those that are
stored (R64). -/
def State.restoreObjs (s : State) (p : Fam → Nat → Bool) (full : Bool) : State :=
  let mine (k : ObjKey) : Bool := (keyRow k).any fun x => p x.1 x.2.1
  let keep (k : ObjKey) : Bool := (keyRow k).any fun x =>
    !p x.1 x.2.1 || x.2.2.persist == .factory || (x.2.2.persist == .saved && !full)
  s.onSrv fun v => { v with
    objs := (if full then v.saved.filter fun e => mine e.1 else []).foldl (fun m e => alInsert e.1 e.2 m) (v.objs.filter fun e => keep e.1) }

/-- The objects of a domain. -/
def inDomain (d : Fin 7) (f : Fam) (_ : Nat) : Bool := famDomain f == d

/-! Parts of the domains -/

/-- A pair leaves reset (R321): it starts in ROM; in recovery mode pair B stays in WAIT (R567). -/
def State.startPair (s : State) (p : Fin 2) (lock : Bool) : State :=
  let s1 := s.onCore p fun c => { Core.reset p with
    lkcnt := c.lkcnt, lockup := lock, since := s.now, run := if p = 1 && s.upd.recov then .waiting else .running }
  if p = 0 then s1.onUpd fun u => { u with rom := true } else s1

/-- What a sequencer is loaded with, and the bank offset of a user image (R340, R341, R556); a bank without an image leaves it as delivered. -/
def State.seqEntry (s : State) (n : Fin 16) : SeqSrc × Nat :=
  let b := s.upd.mapped
  let lib : SeqSrc := if n.val < 14 then .library else .idle
  if s.upd.recov then (.idle, 0)
  else if s.imgWord b 0 != 0x964810000 then (lib, 0)
  else
    let w := s.imgWord b (fld (s.imgWord b 7) 35 18 + n.val)
    match fld w 35 34 with
    | 1 => (lib, 0)
    | 2 => (.user, fld w 23 0)
    | _ => (.idle, 0)

/-- A user image in the active bank: CODEEND words. -/
def State.userImage (s : State) (off : Nat) : List Word :=
  let a := bankBase s.upd.mapped + off
  memReadN s.mem a (fld (memRead s.mem a) 23 12)

/-- A sequencer is loaded at the release of ENG or of its block; a user image waits until ROM has verified its bank (R341). -/
def State.seqStart (s : State) (n : Fin 16) : State :=
  match s.seqEntry n with
  | (.user, off) =>
    if s.upd.checked then s.seqLoad n .user (s.userImage off)
    else s.onSeq n fun _ => { Seq.reset with src := .user }
  | (src, _) => s.seqLoad n src []

/-- USER_IMAGE_LOAD (R341, R561): the images that waited for the verification are loaded. -/
def execUserImageLoad (s : State) : Host.Outcome State Fault Refusal :=
  .next (if !(s.up 2 && s.up 3 && s.upd.checked) then s
  else (allFin 16).foldl (fun st n =>
    if (st.seq n).src == .user && !(st.seq n).started then st.seqStart n else st) s)

/-- The admission events held while FAB was not released, after the marker of the first, with the wraps among and after them (R40, R596). -/
def heldQueue (evs : List HeldEvent) (lost : Word) (hiNow : Word) : EvQ :=
  let hi (t : Time) : Word := (t >>> 36).truncate 36
  let wrap (q : EvQ) (h g : Word) : EvQ := if h = g then q else if g = h + 1 then q.mark false g else (q.mark false (g - 1)).mark false g
  match evs with
  | [] => { items := [], lost := lost }
  | e :: _ =>
    let r := evs.foldl (fun (a : EvQ × Word) x => ((wrap a.1 a.2 (hi x.time)).push 128 [x.word0, x.time.truncate 36], hi x.time))
      ((EvQ.mark false (hi e.time) { items := [], lost := lost }), hi e.time)
    wrap r.1 r.2 hiNow

/-- An item of a kind that is not admitted again at a release of FAB (R88, R107). -/
def State.notReadmitted (s : State) (kind num reason blk : Nat) : State := (s.admEvent 5 kind num 0 reason blk).raise 0x06 3

/-- A loop at a release of FAB (R88, R95): it keeps the tile it was placed on, or takes another, where the lanes take its data paths as well. -/
def State.readmitLoop (s : State) (m : Fin 360) (old : Option (Fin 16 × Fin 24)) : State :=
  let ts := s.cfg (loopIdx m) 5
  let waits := s.cfg (loopIdx m) 0x1D != 0
  let refused (reason blk : Nat) : State := (s.onLoop m fun l => { l with refused := true }).notReadmitted 1 m.val reason blk
  let lanes (st : State) : Bool := st.loopLanes st.flowsNow [] m
  if !s.cfgB (loopIdx m) 2 || s.upd.recov then s.onLoop m fun l => { l with refused := false }
  else match old.filter fun p => (s.tile p.1).role != .scheduled || s.tileTakes p.1 m ts waits with
    | some p =>
      let s1 := s.onLoop m fun l => { l with place := some p }
      if lanes s1 then s1 else refused 0x01 0x07
    | none => match s.findTile m ts waits with
      | some t =>
        let s1 := s.onLoop m fun l => l.start (t, s.freeSlot t) (Fin.ofNat 3 (s.cfg (loopIdx m) 1)) s.now
        if lanes s1 then s1 else refused 0x01 0x07
      | none => refused 0x06 (s.closestTile m)

/-- The loops leave the ledger, and are admitted again in ascending number after the contracts (R88). -/
def State.readmitLoops (s : State) (places : Bank (Option (Fin 16 × Fin 24)) 360) : State :=
  ((allFin 360).foldl (fun st m => st.readmitLoop m (bget places m)) s).rebound

/-- The loaded sequencer programs are admitted again (R88, R96). -/
def State.readmitSeqs (s : State) : State :=
  if !s.up 3 then s else (allFin 16).foldl (fun st n => if (st.seq n).started && !(st.seq n).merr then st.seqAdmit n else st) s

/-- The release of FAB (R17, R62, R84, R88, R514, R560, R572, R596). -/
def State.fabRelease (s : State) : State :=
  let gone := s.rst.unkept
  let supGone := gone.getLsbD 1
  let s1 := (s.onFab fun _ => Fabric.reset).checkLog
  let s2 := (if s1.log.queue.isEmpty then s1 else s1.appendNext).selectBank.migrateSaved
  let s3 := s2.restoreObjs (fun f _ => gone.getLsbD (famDomain f).val) true
  let s4 := (s3.restoreObjs (inDomain 2) true).onRst fun r => { r with unkept := 0 }
  let s5 := s4.onAdm fun a => { a with
    ct := Vector.replicate 256 Contract.reset, q := heldQueue a.heldEv a.heldLost s4.timeHi, heldEv := [], heldLost := 0
    reason := 0, rnum := 0 }
  let places : Bank (Option (Fin 16 × Fin 24)) 360 := s5.eng.loops.map Loop.place
  let s6 := (s5.onEth fun e => { e with rates := [] }).onEng fun e => { e with resv := [], loops := ball e.loops fun _ l => { l with place := none } }
  let s7 := (s6.readmitFlows.readmitLoops places).readmitSeqs
  ((if supGone then s7.readmitTable else s7).placeAll).setExtra

/-- The IOP part of a block at its release. -/
def State.iopBlock (s : State) (b : Nat) (back : Bool) : State :=
  let input (st : State) (i : Fin 80) : State := if back then st.inputReturn i else st.inputRelease i
  if b = 0x3B then (allFin 12).foldl (fun st n => st.valveReport n) { s with vq := EvQ.empty }
  else if b = 0x3D then ((allFin 80).filter (·.val < 64)).foldl input { s with inq := EvQ.empty, inLoss := false }
  else if b = 0x3E then ((allFin 80).filter (64 ≤ ·.val)).foldl input { s with ios := Vector.replicate 16 IoPin.reset }
  else if b = 0x3F then
    { s with ans := Vector.replicate 16 Analog.reset, adc := { s.adc with bad := 0, lowref := false, last := Vector.replicate 320 0 } }
  else if b = 0x42 then s.accessRelease
  else s

/-- A block of NET at its release. -/
def State.netBlock (s : State) (b : Nat) : State :=
  if b ≤ 0x4F then s.canRelease (Fin.ofNat 8 (b - 0x48))
  else if b ≤ 0x57 then s.linRelease (Fin.ofNat 8 (b - 0x50))
  else if b = 0x58 then s.ethRelease
  else if b = 0x5D then s.ringRelease
  else s

/-- The release of CORE (R321, R525, R562). -/
def State.coreRelease (s : State) : State :=
  let s1 := ((s.startPair 0 false).startPair 1 false).onRst fun r => { r with wdLock := false }
  s1.wdStart.onUpd fun u => { u with coreAt := if u.booted then none else some s.now }

/-- What the release of a domain does beside opening its wrappers; `back` on the return from PARK. -/
def State.releaseHooks (s : State) (d : Fin 7) (back : Bool) : State :=
  match d with
  | 1 => (s.restoreObjs (inDomain 1) true).hsGrids.setExtra.boostFollow
  | 2 => s.fabRelease
  | 3 => (allFin 16).foldl State.seqStart (s.restoreObjs (inDomain 3) false).engRelease
  | 4 => [0x3B, 0x3D, 0x3E, 0x3F, 0x42].foldl (fun st b => st.iopBlock b back) (s.restoreObjs (inDomain 4) false)
  | 5 => ((List.range 16).map (0x48 + ·) ++ [0x58, 0x5D]).foldl State.netBlock (s.restoreObjs (inDomain 5) false)
  | 6 => s.coreRelease
  | _ => s

/-- A domain is released: its wrappers open, its blocks' shadows begin to end (R497), and what waited for it is delivered (R62, R520). -/
def State.openDomain (s : State) (d : Fin 7) (back : Bool) : State :=
  let s1 : State := { s with dom := bset s.dom d { powered := true, held := false } }
  let s2 := (s1.endShadows fun b => blockDom b == some d).releaseHooks d back
  if s2.up 2 then ((if d = 2 then ([1, 2] : List (Fin 7)) else [d]).foldl State.releaseCommits s2).deliverHeld else s2

/-- The device is back in RUN (R425, R436, R513): CORE has been released. -/
def State.backInRun (s : State) : State :=
  let w := s.pwr.wake
  let s1 := s.onPwr fun p => { p with
    mode := .run, req := 0, wake := none, dstate := 0, excl := [], awakeAt := some s.now, wakes := satInc p.wakes
    wcause := (w.map Wake.word).getD p.wcause, wstamp := (w.map (·.stamp)).getD p.wstamp }
  let s2 := (s1.onTime fun t => { t with parked := true, disc := false, src := 0 }).boostFollow
  if s2.cfgB duoIdx 1 then s2.duoUnresolve else s2

/-! The sequence after a reset (R516 to R518, R526) -/

/-- When no source is left asserted, the sequence begins (R516). -/
def State.beginRelease (s : State) : State :=
  if (allFin 12).any (fun i => i.val < 10 && s.asserted i) || s.heldMask = 0 || s.rst.relAt.isSome then s
  else s.onRst fun r => { r with relAt := some s.now }

/-- A source of a domain releases.  Power-on lets AON go, and TIME starts (R35, R512). -/
def State.releaseSrc (s : State) (i : Fin 12) : State :=
  let s1 := s.onRst fun r => { r with srcs := bset r.srcs i { since := none, reach := 0, blk := none, ref := 0, clear := false } }
  if i = 0 then
    let s2 : State := { s1 with
      rst := { s1.rst with domSrc := bset s1.rst.domSrc 0 0 }, time := TimeState.reset, dom := bset s1.dom 0 { powered := true, held := false } }
    let s3 := s2.onPwr fun p => { p with awakeAt := some 0 }
    (if s3.cfgB duoIdx 1 then s3.duoUnresolve else s3).beginRelease
  else s1.beginRelease

/-- The release condition of a source holds (R512): it releases, at the earliest when its minimum assertion has passed. -/
def State.clearSrc (s : State) (i : Fin 12) : State :=
  match (s.srcOf i).since with
  | none => s
  | some t =>
    if t + minAssert i ≤ s.now then s.releaseSrc i
    else s.onRst fun r => { r with srcs := bmod r.srcs i fun x => { x with clear := true } }

/-- SUPPLY_GOOD (R512): the core supply counts only while VBAT ≥ 4.5 V. -/
def execSupplyGood (which : Sys2Proof.Supply) (s : State) : Host.Outcome State Fault Refusal :=
  .next (if s.pwr.mode == .off then s
  else match which with
    | .aon => s.clearSrc 0
    | .sup => s.clearSrc 1
    | .core => if s.sup.vbat < 4500 then s else s.clearSrc 2)

/-- RSTN_RISE (R513). -/
def execRstnRise (s : State) : Host.Outcome State Fault Refusal :=
  .next (if !s.rst.rstn then s
  else ((s.onRst fun r => { r with rstn := false }).clearSrc 3).clearSrc 4)

/-- DEBUG_RESET_WITHDRAW (R512). -/
def execDebugResetWithdraw (s : State) : Host.Outcome State Fault Refusal := .next (s.clearSrc 8)

/-- ROOT_RECOVERED (R510): the root has been good for 1 ms. -/
def execRootRecovered (s : State) : Host.Outcome State Fault Refusal :=
  .next (if s.rst.lossAt.isNone then s
  else
    let s1 := s.onRst fun r => { r with lossAt := none, xosc := true, lock := true, good := 0x1F, bkup := false }
    ((s1.onTime fun t => { t with src := 0 }).raise 0x01 14).clearSrc 9)

/-! Resets of one block (R521) -/

/-- A block is released alone: its state and volatile objects return to their reset values, and its owning chapter applies. -/
def State.releaseBlock (s : State) (b : Nat) (lock : Bool) : State :=
  let mine (i : SenseItem) : Bool := (famOf (soutKey i).1).any fun f => famBlock f.1 f.2 == b
  let s0 : State := { s with sout := s.sout.filter fun i => !mine i }
  let s1 := s0.restoreObjs (fun f n => f != .loop && famBlock f n == b) false
  let s2 :=
    if b = 0x0B || b = 0x0C then s1.startPair (Fin.ofNat 2 (b - 0x0B)) lock
    else if b ≤ 0x1F then s1.seqStart (Fin.ofNat 16 (b - 0x10))
    else if b ≤ 0x2F then s1.tileRelease (Fin.ofNat 16 (b - 0x20))
    else if b ≤ 0x42 then s1.iopBlock b false
    else if (0x58 ≤ b && b ≤ 0x5C) || b = 0x5E then s1.ethBlockRelease b
    else s1.netBlock b
  if s2.up 2 then s2.deliverHeld else s2

/-- The pulse of the oldest block reset of a kind ends: RBLK and CAUSEX tell of it (R521, R526). -/
def State.endBlockPulse (s : State) (x : BlockReset) (i : Fin 12) : State :=
  let rest := s.rst.blocks.filter fun y => !(y == x)
  let s1 := s.onRst fun r => { r with
    blocks := rest
    srcs := bmod r.srcs i fun u => { u with since := (rest.find? fun y => y.lock == x.lock).map (·.since) }
    rblk := if x.lock then r.rblk else BitVec.ofNat 8 x.blk
    causex := { ref := if x.lock then (s.srcOf i).ref else 0x02A, rcnt := 0, src := 1#12 <<< i.val, dom := 0 } }
  if s1.closed x.blk then s1 else (s1.endShadows (· == x.blk)).releaseBlock x.blk x.lock

/-- RESET_PULSE_END (R512, R521). -/
def execResetPulseEnd (src : Fin 12) (s : State) : Host.Outcome State Fault Refusal :=
  .next (if 10 ≤ src.val then
    match s.rst.blocks.find? fun x => x.lock == (src.val == 10) with
    | some x => (s.at (x.since + minAssert src)).endBlockPulse x src
    | none => s
  else match (s.srcOf src).since with
    | some t => if (s.srcOf src).clear then (s.at (t + minAssert src)).releaseSrc src else s
    | none => s)

/-! The release of a domain -/

/-- The cause word of a domain that is released (R526). -/
def State.causeOf (s : State) (d : Fin 7) : Cause :=
  let src := bget s.rst.domSrc d
  if src.getLsbD 0 then Cause.powerOn
  else { ref := bget s.rst.domRef d, rcnt := min 4095 ((bget s.rst.causes d).rcnt + 1), src := src, dom := 0 }

/-- The kinds of the sources that held SUP are raised when it is released (R527). -/
def State.supKinds (s : State) (src : BitVec 12) : State :=
  ([0, 1, 4] : List Nat).foldl (fun st k => st.raiseIf (src.getLsbD k) 0x01 k) s

/-- DOMAIN_RELEASE (R518): the next domain of the sequence, when its clocks are good and its gap has passed; the first clocks after a power-on
come with the first domain that needs them. -/
def execDomainRelease (s : State) : Host.Outcome State Fault Refusal :=
  .next (match s.nextRelease with
  | none => s
  | some (d, t) =>
    if s.rst.lossAt.isSome && clocksOf d != 0 then s
    else
      let s1 := s.at (t + if d = 1 && (s.rst.firstUp || s.rst.bkup) then 3200 else 1024)
      let src := bget s1.rst.domSrc d
      let s2 := s1.onRst fun r => { r with
        causes := bset r.causes d (s1.causeOf d)
        domSrc := bset r.domSrc d 0 }
      let s3 := if clocksOf d != 0 && s2.rst.firstUp then
          s2.onRst fun r => { r with firstUp := false, xosc := true, lock := true, good := 0x1F, bkup := false }
        else s2
      let s4 := s3.openDomain d false
      let s5 := if d = 1 then s4.supKinds src else s4
      if s5.heldMask = 0 then
        let s6 := s5.onRst fun r => { r with
          relAt := none
          causex := if r.seen.getLsbD 0 then Cause.powerOn else { ref := r.first, rcnt := 0, src := r.seen, dom := r.held } }
        if s6.pwr.mode == .returning then s6.backInRun else s6
      else s5.onRst fun r => { r with relAt := some s5.now })

/-! The return from PARK and DEEP PARK (R436) -/

/-- The delay after which a domain is released from PARK, in ticks; 2 ms more from DEEP PARK. -/
def returnDelay (d : Fin 7) : Nat :=
  match d with
  | 2 => usT 3500
  | 3 => usT 3600
  | 4 => usT 3700
  | 5 => usT 3800
  | 6 => usT 4000
  | _ => usT 3000

/-- The replay of the wake is due at the release of NET (R437). -/
def State.replayDue (s : State) : Bool :=
  s.cfg pwrIdx 0x0F != 0 && s.pwr.wake.any fun w => w.replay || ([2, 3, 4, 5, 6] : List Byte).contains w.src

/-- DOMAIN_RETURN_RELEASE (R436): a domain whose clocks are not good makes the clock-failure source fire. -/
def execDomainReturnRelease (d : Fin 7) (s : State) : Host.Outcome State Fault Refusal :=
  .next (if !(s.pwr.mode == .returning) || s.pwr.next != d.val || d = 0 then s
  else
    let s1 := s.at (s.pwr.start + returnDelay d + if s.pwr.deep then msT 2 else 0)
    if s1.rst.lossAt.isSome && clocksOf d != 0 then s1.clockFail
    else
      let s2 := s1.onPwr fun p => { p with next := d.val + 1 }
      match d with
      | 1 => ({ s2 with
          dom := bset s2.dom 1 { powered := true, held := false }
          rst := { s2.rst with xosc := true, lock := true, good := 0x1F } } : State).boostFollow
      | 2 => (s2.onRst fun r => { r with unkept := r.unkept ||| 0x7C }).openDomain 2 true
      | 5 =>
        let s3 := s2.openDomain 5 true
        if s3.replayDue then s3.onPwr fun p => { p with replay := some s3.now } else s3
      | 6 => (s2.openDomain 6 true).backInRun
      | _ => s2.openDomain d true)

/-! Power-on (R512) -/

/-- POWER_ON_RESET (R35, R425, R457, R512, R530): the AON supply has risen; every domain is held by the power-on source.  What flash and OTP
hold stays; of the configuration every object is read anew. -/
def execPowerOnReset (casc : Fin 8) (s : State) : Host.Outcome State Fault Refusal :=
  .next (if s.pwr.mode != .off then s
  else
    let c := State.cold casc
    let f := s.acs.flashFails
    let rst := { c.rst with
      srcs := bset c.rst.srcs 0 { since := some 0, reach := 0x7F, blk := none, ref := 0, clear := false }
      domSrc := Vector.replicate 7 1, held := 0x7F, seen := 1, srcCnt := bset c.rst.srcCnt 0 1
      firstUp := true, xosc := false, lock := false, good := 0, bkup := true, wdRun := none, unkept := 0x7F }
    let s1 : State := { c with
      pending := s.pending, free := s.free, mem := s.mem.filter fun e => e.1 < 0x800000
      srv := { c.srv with objs := s.srv.objs, saved := s.srv.saved, savedRest := s.srv.savedRest, schema := s.srv.schema, shadow := s.srv.shadow }
      upd := { s.upd with busy := .none, coreAt := none, checked := false, written := 0 }
      log := { s.log with queue := s.log.queue.take 1, drop := 0, check := true, records := 0 }
      sup := { c.sup with vbat := s.sup.vbat, tcase := s.sup.tcase, tj := s.sup.tj }
      rst := rst
      acs := { c.acs with
        fails := f, flashFails := f
        lockEnd := if 5 ≤ f.toNat then some (secT (600 * Nat.min 16 (2 ^ (f.toNat - 5)))) else none }
      pairs := ball c.pairs fun k x => { x with posok := s.srv.savedRest.getLsbD k.val } }
    s1.restoreObjs (fun _ _ => true) true)

end Sys2Proof.Machine
end

