-- ==== Sys2Proof/Machine/Zop.lean ====
section
/-!
DEFINITION. ZOP: screening, sessions and trailers, the services of R72, subscriptions and block transfers (R71 to R82), what ROM serves in
recovery mode (R567), and the order in which the server serves what it has accepted (R55).
-/
namespace Sys2Proof.Machine

/-! Screening (R74, R75, R80, R82) -/

/-- A message arrives on a medium on which the device serves ZOP (R75, R379, R567). -/
def State.zopMedium (s : State) (h : ZopHdr) : Bool :=
  s.up 2 && s.up 5 &&
    (match h.medium with
    | .can ch => (!s.upd.recov || ch = 0) && (s.zopRx ch).getLsbD 35
    | .udp port => port.toNat = if s.upd.recov then 49648 else s.cfg profIdx 4
    | .ring => true)

/-- The most data octets of a message (R75). -/
def zopMax (h : ZopHdr) : Nat :=
  match h.medium, h.trailer with
  | .can _, none => 56
  | .can _, some _ => 42
  | _, _ => 255

/-- The sender of a message without a session. -/
def openOf (h : ZopHdr) : Requester := .openReq h.medium h.peer

/-- The service code of a request (R72). -/
def ZopReq.svc : ZopReq → Nat
  | .read => 1 | .write _ => 2 | .commit _ _ => 3 | .subscribe _ => 4 | .unsubscribe => 5 | .describe => 7 | .blockStart _ _ => 8
  | .blockSeg _ _ => 9 | .blockEnd _ => 0x0A | .sessionOpen _ => 0x0B | .sessionClose => 0x0D | .refused svc _ => svc

/-- Words with the zero word that makes their number even. -/
def padWords (ws : List Word) : List Word := if ws.length % 2 = 1 then ws ++ [0] else ws

/-- The octets that words travel as (R77). -/
def segOctets (ws : List Word) : List Byte := octetImage (padWords ws)

/-- The data octets of a request (R72). -/
def ZopReq.data : ZopReq → List Byte
  | .write octets => octets
  | .commit go indices => go :: indices.flatMap fun i => numOcts i.toNat 2
  | .subscribe n => numOcts n.toNat 2
  | .blockStart dir len => dir :: numOcts len.toNat 5
  | .blockSeg segno words => numOcts segno.toNat 2 ++ segOctets words
  | .blockEnd crc => numOcts crc.toNat 4
  | .sessionOpen slot => [slot]
  | .read | .unsubscribe | .describe | .sessionClose | .refused _ _ => []

/-- The header octets of a request. -/
def reqHead (h : ZopHdr) (svc len : Nat) : List Byte :=
  zopHead svc (b1 (h.trailer.isSome || h.vouched) * 0x20 + b1 h.stg * 0x10) h.node h.rqid h.index h.sub len

/-- The session that a trailer names. -/
def sessOf (t : Trailer) : Option (Fin 8) := if 1 ≤ t.sid.toNat && t.sid.toNat ≤ 8 then some (Fin.ofNat 8 (t.sid.toNat - 1)) else none

/-- The MAC of a trailer is that of its message under the session's key. -/
def State.macOk (s : State) (x : Session) (t : Trailer) (h : ZopHdr) (svc : Nat) (data : List Byte) : Bool :=
  s.zopMac x.slot t.sid 0 (reqHead h svc data.length) data t.fresh == some t.mac

/-- A counter of the session has reached its end (R81). -/
def Session.spent (x : Session) : Bool := x.rx == BitVec.allOnes 36 || x.tx == BitVec.allOnes 36

def State.onSess (s : State) (i : Fin 8) (f : Session → Session) : State :=
  s.onSrv fun v => { v with sess := bmod v.sess i (·.map f) }

/-- The transfers of a requester end; one of IMAGE leaves its bank EMPTY. -/
def State.dropBlocks (s : State) (p : Block → Bool) : State :=
  let image := s.srv.blocks.any fun b => p b && b.key == okey updIdx 1
  let s1 := s.onSrv fun v => { v with blocks := v.blocks.filter fun b => !p b }
  if image then s1.imageEnd false else s1

/-- A session closes (R78): its subscriptions, its staging, its transfers and its requests not yet served end with it. -/
def State.closeSession (s : State) (i : Fin 8) : State :=
  let r := Requester.session i
  let s1 := s.onSrv fun v => { v with
    sess := bset v.sess i none, subs := v.subs.map fun x => if x.any (·.owner == r) then none else x
    queue := v.queue.filter (·.by_ != r), fwd := v.fwd.filter (·.by_ != r) }
  (s1.dropStaging fun b => b.owner == r).dropBlocks fun b => b.owner == r

/-- A trailer fails (R78, R81): the message is discarded, and the sixteenth such in succession closes the session. -/
def State.trailerFail (s : State) (i : Fin 8) (x : Session) : State :=
  if x.fails + 1 = 16 then s.closeSession i else s.onSess i fun y => { y with fails := y.fails + 1 }

/-- What the screening makes of a message. -/
inductive ZopFrom where
  | drop (s : State)                      -- discarded
  | refuse (c : Byte)                     -- answered without a session
  | take (r : Requester) (s : State)

/-- The requester of a message (R53, R80, R81). -/
def State.zopFrom (s : State) (h : ZopHdr) (svc : Nat) (data : List Byte) : ZopFrom :=
  match h.trailer with
  | none =>
    if !h.vouched then .take (openOf h) s
    else if h.medium = .ring && h.peer = 0 && s.duo.casc != 0 then .take .master s    -- in the class the master took it in (R82)
    else .refuse 0x0B
  | some t =>
    match (sessOf t).bind fun i => (bget s.srv.sess i).map fun x => (i, x) with
    | none => .refuse 0x0B
    | some (i, x) =>
      if !x.proven || x.spent then .refuse 0x0B
      else if s.macOk x t h svc data && x.rx.toNat < t.fresh.toNat then
        .take (.session i) (s.onSess i fun y => { y with rx := t.fresh, fails := 0, lastUse := s.now })
      else .drop (s.trailerFail i x)

/-- A request to another node of the cascade (R82, R530): the master puts it on the ring in the class it took it in, addressed there to node 0, and
keeps who asked for the response (log 13). -/
def State.zopForward (s : State) (r : Requester) (h : ZopHdr) (svc : Nat) (data : List Byte) : State :=
  let n := h.node.toNat
  if s.duo.casc = 0 && 1 ≤ n && n ≤ 7 && s.onTheRing && s.ring.order.getLsbD (28 + n) then
    let head := zopHead svc (b1 (reqClass r == .auth) * 0x20 + b1 h.stg * 0x10) 0 h.rqid h.index h.sub data.length
    (s.ringQueue { cls := 4, bc := false, dst := Fin.ofNat 8 n, words := packFrame (head ++ data) }).onSrv fun v => { v with
      fwd := (v.fwd.filter fun x => !(x.by_ == r && x.hdr.node == h.node && x.hdr.rqid == h.rqid)) ++ [{ by_ := r, hdr := h, svc := svc }] }
  else s.zopReply r h svc (0x0F, 0) []

/-- In recovery mode only obj 0x1000 and subindices 0x01 to 0x09 of obj 0x1500 can be reached (R567); the refusal of another. -/
def State.recoveryRefusal (s : State) (h : ZopHdr) : Option Byte :=
  let idx := h.index.toNat
  if !s.upd.recov || idx = 0x1000 then none
  else if idx != 0x1500 then some 0x01
  else if 1 ≤ h.sub.toNat && h.sub.toNat ≤ 9 then none
  else some 0x02

/-! Values -/

/-- WRITE (R51, R72): octets that do not fit the type are refused with 0x06; which refusal an access that no class may make gets comes
first. -/
def State.zopWrite (s : State) (r : Requester) (h : ZopHdr) (octets : List Byte) : State :=
  let idx := h.index.toNat
  let sub := h.sub.toNat
  match netValue (s.typeOf idx sub) octets with
  | some v => s.doWrite r (some h) idx sub v
  | none =>
    let c : Byte := if isFw idx then (match s.fwAccess r idx sub true with | .inr c => c | .inl _ => 0x06)
      else (match s.access r idx sub true with | .inr c => c | .inl _ => 0x06)
    s.zopReply r h 2 (c, 0) []

/-- The descriptor of an object (R50), or the refusal code. -/
def State.describe (s : State) (idx sub : Nat) : Word ⊕ Byte :=
  if isFw idx then
    match s.otabOf idx with
    | [] => .inr 0x01
    | l =>
      if sub = 0 then .inl (descriptor ⟨0, .u8, 0, .ro, .one 0, .none, .volatile, false, false, .any⟩)
      else match l.find? (·.1 == sub) with
      | some e => .inl e.2
      | none => .inr 0x02
  else match famOf idx with
    | none => .inr 0x01
    | some (f, _) => match findRow f sub with
      | some row => .inl (descriptor row)
      | none => .inr 0x02

/-- DESCRIBE (R72). -/
def State.zopDescribe (s : State) (r : Requester) (h : ZopHdr) : State :=
  match s.describe h.index.toNat h.sub.toNat with
  | .inl w => s.zopReply r h 7 okc (numOcts w.toNat 5)
  | .inr c => s.zopReply r h 7 (c, 0) []

/-- The entries that a COMMIT carries are written into CLIST in turn, zero into the rest, until one is refused (R63, log 24). -/
def State.writeClist (s : State) (r : Requester) (indices : List (BitVec 16)) : Code × State :=
  (List.range 8).foldl (fun (a : Code × State) k =>
    if a.1.1 != 0 then a
    else match bundleWrite a.2 r (k + 1) (indices.getD k 0).toNat with
      | some x => x
      | none => a) (okc, s)

/-- COMMIT (R63, R72): CLIST is written, and then GO; the response to a commit follows its check. -/
def State.zopCommit (s : State) (r : Requester) (h : ZopHdr) (go : Byte) (indices : List (BitVec 16)) : State :=
  if 8 < indices.length then s.zopReply r h 3 (0x06, 0) []
  else if s.upd.recov then s.zopReply r h 3 (0x01, 0) []
  else match s.access r bundleIdx 0x10 true with
  | .inr c => s.zopReply r h 3 (c, 0) []
  | .inl _ =>
    let (c1, t) := if indices.isEmpty then (okc, s) else s.writeClist r indices
    if c1.1 != 0 then t.zopReply r h 3 c1 []
    else match t.writeCheck r bundleIdx 0x10 [wd go.toNat] with
    | .inr c => t.zopReply r h 3 (c, 0) []
    | .inl _ =>
      if go = 2 then
        let (c, t2) := t.commitAbort r
        t2.zopReply r h 3 c [5]
      else
        let (c, t2) := t.commitStart r (some h)
        if c.1 = 0 then t2 else t2.zopReply r h 3 c []

/-! Subscriptions (R76) -/

/-- An object may be subscribed by a requester, or the refusal code. -/
def State.subscribable (s : State) (r : Requester) (idx sub : Nat) : Option Byte :=
  if isFw idx then
    match s.fwAccess r idx sub false with
    | .inr c => some c
    | .inl d => if d.getLsbD 8 then none else some 0x03
  else match s.access r idx sub false with
    | .inr c => some c
    | .inl (_, _, row) => if row.subs then none else some 0x03

/-- SUBSCRIBE: a second one of its owner to the same object replaces the first. -/
def State.zopSubscribe (s : State) (r : Requester) (h : ZopHdr) (minInt : BitVec 16) : State :=
  let idx := h.index.toNat
  let sub := h.sub.toNat
  match s.subscribable r idx sub with
  | some c => s.zopReply r h 4 (c, 0) []
  | none =>
    let mine (x : Option Sub) : Bool := x.any fun y => y.owner == r && y.key == okey idx sub
    if minInt = 0 then s.zopReply r h 4 (0x07, 0) []
    else match (allFin 64).find? (fun k => mine (bget s.srv.subs k)) <|> (allFin 64).find? (fun k => (bget s.srv.subs k).isNone) with
    | none => s.zopReply r h 4 (0x11, 0) []
    | some k =>
      let x : Sub := { owner := r, key := okey idx sub, minMs := minInt.toNat, last := none, seen := s.value r idx sub, stamp := none, force := false }
      (s.onSrv fun v => { v with subs := bset v.subs k (some x) }).zopReply r h 4 okc []

/-- UNSUBSCRIBE. -/
def State.zopUnsubscribe (s : State) (r : Requester) (h : ZopHdr) : State :=
  let gone (x : Option Sub) : Option Sub := if x.any fun y => y.owner == r && y.key == okey h.index.toNat h.sub.toNat then none else x
  (s.onSrv fun v => { v with subs := v.subs.map gone }).zopReply r h 5 okc []

/-- NOTIFY_SEND (R76): the value has changed since the last NOTIFY, or a commit asks for one.  Its stamp is that of the application; of a value that
no object holds it is the time now, and free where the minimum interval has held the NOTIFY back (log 61). -/
def execNotifySend (sub : Fin 64) (s : State) : Host.Outcome State Fault Refusal :=
  .next (match bget s.srv.subs sub with
  | none => s
  | some x =>
    let idx := x.key / 256
    let v := s.value x.owner idx (x.key % 256)
    if (v = x.seen && !x.force) || !s.up 2 then s
    else
      let due := (x.last.map (· + msT x.minMs)).getD 0
      let (i, s0) := s.draw
      let s1 := if due ≤ s.now then s else s0.at due
      let stamp := x.stamp.getD (if due ≤ s.now then s.stamp else Config.freeWord i)
      let s2 := s1.onSrv fun u => { u with subs := bset u.subs sub (some { x with last := some s1.now, seen := v, stamp := none, force := false }) }
      let octs := netOctets (s.typeOf idx (x.key % 256)) v ++ numOcts stamp.toNat 5
      let (m, s3) := s2.seal x.owner 6 false 0 0 (BitVec.ofNat 16 idx) (BitVec.ofNat 8 (x.key % 256)) octs
      let s4 := s3.onSrv fun u => { u with
        notify := some { dest := x.owner, key := x.key, value := v, stamp := stamp, fresh := m.fresh, mac := m.mac, octets := m.octets } }
      match s4.addressOf x.owner with
      | some (med, peer) => s4.emit med peer m.octets
      | none => s4)

/-! Block transfers (R77) -/

def imageKey : ObjKey := okey updIdx 1

/-- The most words of a segment. -/
def segMax (h : ZopHdr) : Nat :=
  match h.medium, h.trailer with
  | .can _, none => 12
  | .can _, some _ => 8
  | _, _ => 56

/-- The access that a BLOCK_START asks for: the length of the DOMAIN, none where any length may be asked, or the refusal code.  No
firmware-defined object is a DOMAIN that the handler could answer for. -/
def State.blockAccess (s : State) (r : Requester) (idx sub : Nat) (write : Bool) : Option Nat ⊕ Byte :=
  let rom := s.upd.recov && okey idx sub == imageKey && reqClass r == .opn && write    -- R567
  if isFw idx then (match s.fwAccess r idx sub write with | .inr c => .inr c | .inl _ => .inr 0x06)
  else match (if rom then s.access .debug idx sub write else s.access r idx sub write) with
  | .inr c => .inr c
  | .inl (f, _, row) => if row.type != .dom then .inr 0x06 else .inl (s.domWords f idx sub)

/-- The segments of a read transfer that the window of 8 allows are sent, `n` at most (log 62). -/
def State.sendSegs : Nat → State → Block → Block × State
  | 0, s, b => (b, s)
  | n + 1, s, b =>
    let k := segMax b.hdr
    let ws := (b.words.drop (k * b.sent)).take k
    if ws.isEmpty || b.acked + 8 ≤ b.sent then (b, s)
    else
      let (m, t) := s.seal b.owner 9 false b.hdr.node b.hdr.rqid b.hdr.index b.hdr.sub (numOcts (b.sent % 65536) 2 ++ segOctets ws)
      sendSegs n (t.emit b.hdr.medium b.hdr.peer m.octets)
        { b with sent := b.sent + 1, next := BitVec.ofNat 16 (b.sent + 1), out := b.out ++ [m.octets], last := s.now }

/-- A transfer changed in place. -/
def State.setBlock (s : State) (b c : Block) : State := s.onSrv fun v => { v with blocks := v.blocks.map fun x => if x = b then c else x }

/-- A transfer starts: another of its requester for the same object gives way.  The segments of a read follow the response. -/
def State.blockOpen (s : State) (b : Block) : State :=
  let t := (s.onSrv fun v => { v with blocks := (v.blocks.filter fun x => !(x.owner == b.owner && x.key == b.key)) ++ [b] }).zopReply b.owner b.hdr 8 okc []
  if b.write then t
  else
    let (c, u) := t.sendSegs 8 b
    u.setBlock b c

/-- BLOCK_START: direction 0 writes and 1 reads. -/
def State.zopBlockStart (s : State) (r : Requester) (h : ZopHdr) (dir : Byte) (len : Word) : State :=
  let idx := h.index.toNat
  let sub := h.sub.toNat
  let n := len.toNat
  let b : Block := { owner := r, key := okey idx sub, write := dir = 0, len := n, next := 0, words := [], crc := BitVec.allOnes 32, last := s.now, hdr := h
                     acked := 0, sent := 0, out := [] }
  if 1 < dir.toNat then s.zopReply r h 8 (0x07, 0) []
  else match s.blockAccess r idx sub (dir = 0) with
  | .inr c => s.zopReply r h 8 (c, 0) []
  | .inl want =>
    if dir = 0 then
      if okey idx sub = imageKey then
        let (c, u) := s.imageStart r n
        if c.1 = 0 then u.blockOpen b else u.zopReply r h 8 c []
      else if want.any (· != n) then s.zopReply r h 8 (0x06, 0) []
      else s.blockOpen b
    else
      let all := s.value r idx sub
      if n = 0 || all.length < n then s.zopReply r h 8 (0x07, 0) [] else s.blockOpen { b with words := all.take n }

/-- The transfer of a requester. -/
def State.blockOf (s : State) (r : Requester) (h : ZopHdr) : Option Block :=
  s.srv.blocks.find? fun b => b.owner == r && b.key == okey h.index.toNat h.sub.toNat

/-- The words received so far. -/
def State.gotWords (s : State) (b : Block) : Nat := if b.key = imageKey then s.upd.written else b.words.length

/-- A segment of a written DOMAIN: in order, it is taken and acknowledged; a gap repeats the last acknowledgement; more words than the
transfer has end it. -/
def State.segIn (s : State) (r : Requester) (h : ZopHdr) (b : Block) (segno : BitVec 16) (ws : List Word) : State :=
  let got := s.gotWords b
  if b.key = imageKey && s.upd.busy != .loading then s    -- the erase completes before the first acknowledgement (R563)
  else if segno != b.next then
    let t := s.setBlock b { b with last := s.now }
    if got = 0 then t else t.zopReply r h 9 okc (numOcts (b.next - 1).toNat 2)
  else
    let p := padWords ws
    let now := got + p.length
    if b.len < now && !(now = b.len + 1 && b.len % 2 = 1) then
      (s.dropBlocks (· == b)).zopReply r h 9 (0x0E, 0) []
    else
      let c : Block := { b with next := b.next + 1, crc := (octetImage p).foldl crcOctet b.crc, last := s.now
                                words := if b.key = imageKey then [] else (b.words ++ p).take b.len }
      let t := s.setBlock b c
      (if b.key = imageKey then t.imageSeg p else t).zopReply r h 9 okc (numOcts segno.toNat 2)

/-- The acknowledgement of a read DOMAIN's segments up to one: the window moves on; one that is repeated asks for what follows it again; one that names
no segment in the window ends the transfer (log 62). -/
def State.segAck (s : State) (r : Requester) (h : ZopHdr) (b : Block) (segno : BitVec 16) : State :=
  let new := (segno + 1 - BitVec.ofNat 16 b.acked).toNat     -- segments newly acknowledged
  if b.sent < b.acked + new then (s.dropBlocks (· == b)).zopReply r h 9 (0x0E, 0) []
  else
    let c : Block := if new = 0 then { b with sent := b.acked, out := [], last := s.now }
      else { b with acked := b.acked + new, out := b.out.drop new, last := s.now }
    let (d, t) := s.sendSegs 8 c
    t.setBlock b d

/-- BLOCK_SEG. -/
def State.zopBlockSeg (s : State) (r : Requester) (h : ZopHdr) (segno : BitVec 16) (words : List Word) : State :=
  match s.blockOf r h with
  | none => s.zopReply r h 9 (0x0E, 0) []
  | some b =>
    if (if b.write then segMax h else 0) < words.length then s.zopReply r h 9 (0x06, 0) []
    else if b.write then s.segIn r h b segno words else s.segAck r h b segno

/-- BLOCK_END: a correct one applies what was written, at its apply point. -/
def State.zopBlockEnd (s : State) (r : Requester) (h : ZopHdr) (crc : BitVec 32) : State :=
  match s.blockOf r h with
  | none => s.zopReply r h 0x0A (0x0E, 0) []
  | some b =>
    let sum := if b.write then b.crc else (segOctets b.words).foldl crcOctet (BitVec.allOnes 32)
    if crcShow sum != crc || (b.write && s.gotWords b < b.len) then (s.dropBlocks (· == b)).zopReply r h 0x0A (0x0E, 0) []
    else
      let u := s.onSrv fun v => { v with blocks := v.blocks.filter (· != b) }
      if !b.write then u.zopReply r h 0x0A okc []
      else if b.key = imageKey then (u.imageEnd true).zopReply r h 0x0A okc []
      else u.doWrite r (some h) h.index.toNat h.sub.toNat b.words

/-- BLOCK_TIMEOUT: the transfer that has waited longest ends, 1 s after its last segment. -/
def execBlockTimeout (s : State) : Host.Outcome State Fault Refusal :=
  .next (match s.srv.blocks with
  | [] => s
  | x :: l =>
    let b := l.foldl (fun a c => if c.last < a.last then c else a) x
    ((s.at (b.last + secT 1)).dropBlocks (· == b)).zopReply b.owner b.hdr 9 (0x0E, 0) [])

/-- BANK_ERASE_DONE (R563): the first segment may now be acknowledged. -/
def execBankEraseDone (s : State) : Host.Outcome State Fault Refusal :=
  .next (match s.upd.busy with
  | .erasing _ =>
    (s.imageErased).onSrv fun v => { v with blocks := v.blocks.map fun b => if b.key = imageKey then { b with last := s.now } else b }
  | _ => s)

/-! Sessions (R78, R79) -/

/-- The unproven sessions. -/
def State.unproven (s : State) : List (Fin 8 × Session) :=
  (allFin 8).filterMap fun i => (bget s.srv.sess i).bind fun x => if x.proven then none else some (i, x)

/-- The oldest of them. -/
def State.oldestUnproven (s : State) : Option (Fin 8) :=
  (s.unproven.foldl (fun a x => match a with
    | none => some x
    | some y => if x.2.opened < y.2.opened then some x else a) none).map Prod.fst

/-- The session that a SESSION_OPEN takes: a free one, or that of an unproven one which closes; none where all eight are proven (R79). -/
def State.sessionPlace (s : State) : Option (Fin 8) :=
  let free := (allFin 8).find? fun i => (bget s.srv.sess i).isNone
  if 2 ≤ s.unproven.length then s.oldestUnproven else free <|> s.oldestUnproven

/-- SESSION_OPEN. -/
def State.zopSessionOpen (s : State) (r : Requester) (h : ZopHdr) (slot : Byte) : State :=
  if !(if k : slot.toNat < 32 then (bget s.upd.keys ⟨slot.toNat, k⟩).isSome else false) then s.zopReply r h 0x0B (0x07, 0) []
  else match s.sessionPlace with
  | none => s.zopReply r h 0x0B (0x13, 8) []
  | some i =>
    let (k, t1) := (s.closeSession i).draw
    let chal := Config.freeWord k
    let x : Session := { proven := false, slot := slot, chal := chal, peer := openOf h, rx := chal, tx := chal, opened := s.now, lastUse := s.now, fails := 0 }
    let t2 := t1.onSrv fun v => { v with
      sess := bset v.sess i (some x), insts := bset v.insts ⟨i.val + 3, by omega⟩ CommitInst.reset }
    t2.zopReply r h 0x0B okc (BitVec.ofNat 8 (i.val + 1) :: freshOcts chal)

/-- SESSION_CLOSE: the session of its trailer. -/
def State.zopSessionClose (s : State) (r : Requester) (h : ZopHdr) : State :=
  match r with
  | .session i => (s.zopReply r h 0x0D okc []).closeSession i
  | _ => s.zopReply r h 0x0D (0x0B, 0) []

/-- SESSION_PROOF (R78): FRESH equal to the challenge under the session's key opens the session. -/
def execSessionProof (h : ZopHdr) (s : State) : Host.Outcome State Fault Refusal :=
  let none_ := s.zopReply (openOf h) h 0x0C (0x0B, 0) []
  .next (if !s.zopMedium h then s
  else match h.trailer with
  | none => none_
  | some t =>
    match (sessOf t).bind fun i => (bget s.srv.sess i).map fun x => (i, x) with
    | none => none_
    | some (i, x) =>
      if x.proven && x.spent then none_
      else if !x.proven && t.fresh = x.chal && s.macOk x t h 0x0C [] then
        (s.onSess i fun y => { y with proven := true, rx := x.chal, tx := x.chal, fails := 0, lastUse := s.now }).zopReply (.session i) h 0x0C okc []
      else s.trailerFail i x)

/-- SESSION_PROOF_TIMEOUT (R79). -/
def execSessionProofTimeout (sid : Fin 8) (s : State) : Host.Outcome State Fault Refusal :=
  .next (match bget s.srv.sess sid with
  | some x => if x.proven then s else (s.at (x.opened + secT 1)).closeSession sid
  | none => s)

/-- SESSION_IDLE_TIMEOUT (R78). -/
def execSessionIdleTimeout (sid : Fin 8) (s : State) : Host.Outcome State Fault Refusal :=
  .next (match bget s.srv.sess sid with
  | some x => if x.proven then (s.at (x.lastUse + secT (s.cfg profIdx 5))).closeSession sid else s
  | none => s)

/-! Requests in their order (R55, R72) -/

/-- The object of a request can be reached in recovery mode (R567); a service that names none can. -/
def State.zopBarred (s : State) (h : ZopHdr) (z : ZopReq) : Option Byte :=
  match z with
  | .commit _ _ | .sessionOpen _ | .sessionClose | .refused _ _ => none
  | _ => s.recoveryRefusal h

/-- A message is served. -/
def State.serveMsg (s : State) (r : Requester) (h : ZopHdr) (z : ZopReq) : State :=
  match z with
  | .refused svc c => s.zopReply r h svc (c, 0) []
  | _ =>
    if h.node != 0 then s.zopForward r h z.svc z.data
    else match s.zopBarred h z with
    | some c => s.zopReply r h z.svc (c, 0) []
    | none =>
      match z with
      | .read => s.doRead r (some h) h.index.toNat h.sub.toNat h.stg
      | .write octets => s.zopWrite r h octets
      | .commit go indices => s.zopCommit r h go indices
      | .subscribe n => s.zopSubscribe r h n
      | .unsubscribe => s.zopUnsubscribe r h
      | .describe => s.zopDescribe r h
      | .blockStart dir len => s.zopBlockStart r h dir len
      | .blockSeg segno words => s.zopBlockSeg r h segno words
      | .blockEnd crc => s.zopBlockEnd r h crc
      | .sessionOpen slot => s.zopSessionOpen r h slot
      | .sessionClose => s.zopSessionClose r h
      | .refused svc c => s.zopReply r h svc (c, 0) []

/-- A message that has a requester is accepted in its turn. -/
def State.zopAccept (s : State) (r : Requester) (h : ZopHdr) (z : ZopReq) : State :=
  s.accept (.msg r h z) (·.zopReply r h z.svc (0x10, 0) []) (·.serveMsg r h z)

/-- A message comes (R74, R75, R80): what passes the screening is a request of its sender. -/
def State.zopMsg (s : State) (h : ZopHdr) (z : ZopReq) : State :=
  if !s.zopMedium h then s
  else if zopMax h < z.data.length then s.zopAccept (openOf h) h (.refused z.svc 0x06)
  else match s.zopFrom h z.svc z.data with
  | .drop t => t
  | .refuse c => s.zopAccept (openOf h) h (.refused z.svc c)
  | .take r t => t.zopAccept r h z

/-- ZOP_READ (R72). -/
def execZopRead (h : ZopHdr) (s : State) : Host.Outcome State Fault Refusal := .next (s.zopMsg h .read)

/-- ZOP_WRITE (R72, R51). -/
def execZopWrite (h : ZopHdr) (octets : List Byte) (s : State) : Host.Outcome State Fault Refusal := .next (s.zopMsg h (.write octets))

/-- ZOP_DESCRIBE (R50, R72). -/
def execZopDescribe (h : ZopHdr) (s : State) : Host.Outcome State Fault Refusal := .next (s.zopMsg h .describe)

/-- ZOP_COMMIT (R63, R72). -/
def execZopCommit (h : ZopHdr) (go : Byte) (indices : List (BitVec 16)) (s : State) : Host.Outcome State Fault Refusal :=
  .next (s.zopMsg h (.commit go indices))

/-- ZOP_SUBSCRIBE (R76). -/
def execZopSubscribe (h : ZopHdr) (minInt : BitVec 16) (s : State) : Host.Outcome State Fault Refusal := .next (s.zopMsg h (.subscribe minInt))

/-- ZOP_UNSUBSCRIBE (R76). -/
def execZopUnsubscribe (h : ZopHdr) (s : State) : Host.Outcome State Fault Refusal := .next (s.zopMsg h .unsubscribe)

/-- BLOCK_START (R77). -/
def execBlockStart (h : ZopHdr) (dir : Byte) (len : Word) (s : State) : Host.Outcome State Fault Refusal := .next (s.zopMsg h (.blockStart dir len))

/-- BLOCK_SEG (R77). -/
def execBlockSeg (h : ZopHdr) (segno : BitVec 16) (words : List Word) (s : State) : Host.Outcome State Fault Refusal :=
  .next (s.zopMsg h (.blockSeg segno words))

/-- BLOCK_END (R77). -/
def execBlockEnd (h : ZopHdr) (crc : BitVec 32) (s : State) : Host.Outcome State Fault Refusal := .next (s.zopMsg h (.blockEnd crc))

/-- SESSION_OPEN (R78, R79). -/
def execSessionOpen (h : ZopHdr) (slot : Byte) (s : State) : Host.Outcome State Fault Refusal := .next (s.zopMsg h (.sessionOpen slot))

/-- SESSION_CLOSE (R78). -/
def execSessionClose (h : ZopHdr) (s : State) : Host.Outcome State Fault Refusal := .next (s.zopMsg h .sessionClose)

/-- A queued request is served; none where it has to wait for its block (R520). -/
def State.serveReq (s : State) (q : SrvReq) : Option State :=
  let t := s.onSrv fun v => { v with queue := v.queue.erase q }
  match q with
  | .core c => s.serveCore c
  | .acc a => some (t.doAcc a)
  | .msg r h z => some (t.serveMsg r h z)

/-- The first of the queued requests that can be served: none of its instance is before it (R72), nor is an answer outstanding. -/
def State.serveFirst (s : State) : List SrvReq → List Requester → Option State
  | [], _ => none
  | q :: l, before =>
    if before.contains q.by_ || s.waits q.by_ then s.serveFirst l (q.by_ :: before)
    else match s.serveReq q with
    | some t => some t
    | none => s.serveFirst l (q.by_ :: before)

/-- OBJECT_SERVER_ANSWER: the oldest accepted request that waits for nothing is served (R55, R68). -/
def execObjectServerAnswer (s : State) : Host.Outcome State Fault Refusal :=
  .next (if s.up 2 then (s.serveFirst s.srv.queue []).getD s else s)

/-! Malformed messages (R74) -/

/-- ZOP_MALFORMED: the octets of a frame or datagram that fails the screening; one that passes it is another row's. -/
def execZopMalformed (medium : Medium) (peer : Nat) (octets : List Byte) (s : State) : Host.Outcome State Fault Refusal :=
  let o (i : Nat) : Nat := (octets.getD i 0).toNat
  let h : ZopHdr := { medium := medium, peer := peer, trailer := none, vouched := false, stg := false, node := octets.getD 2 0, rqid := octets.getD 3 0
                      index := BitVec.ofNat 16 (o 4 * 256 + o 5), sub := octets.getD 6 0 }
  let svc := o 0 % 64
  let trail := if o 1 / 32 % 2 = 1 then 14 else 0
  .next (if !s.zopMedium h || octets.length < 8 then s
  else if o 0 / 64 != 1 || 128 ≤ o 1 then s
  else if svc = 0 || svc = 6 || 0x0D < svc || o 1 % 16 != 0 then s.zopAccept (openOf h) h (.refused svc 0x14)
  else if octets.length < 8 + o 7 + trail then s.zopAccept (openOf h) h (.refused svc 0x06)
  else s)

end Sys2Proof.Machine
end

