-- ==== Sys2Proof/Machine/Strobe.lean ====
section
/-!
DEFINITION. The course of TIME: its ticks and wraps (R35, R40, R45, R47, R48), and the base-cycle strobe (R43, R46, R56, R61, R101).
-/
namespace Sys2Proof.Machine

/-- TIME_WRAP (R40): TIME [35:0] passes from all ones to zero. -/
def execTimeWrap (s : State) : Host.Outcome State Fault Refusal := .next (s.at ((s.now / 2 ^ 36 + 1) * 2 ^ 36))

/-- A period of the AON oscillator carries TIME on by 3 051 or 3 052 ticks, 3 051.757 812 5 on average (R47). -/
def State.aonTick (s : State) : State :=
  let a := s.time.aonAcc + 97
  (s.at (s.now + 3051 + a / 128)).onTime fun t => { t with aonAcc := a % 128 }

/-- A period of the backup oscillator carries TIME on by 6 or 7 ticks, 6.25 on average (R48). -/
def State.backupTick (s : State) : State :=
  let a := s.time.bkAcc + 1
  (s.at (s.now + 6 + a / 4)).onTime fun t => { t with bkAcc := a % 4 }

/-- A period of CLK_PER: one tick, and none or two where one in 2 000 is dropped or added to remove an offset (R45). -/
def State.perTick (s : State) : State :=
  let t := s.time
  if t.offset != 0 && 1999 ≤ t.since then
    let s1 := if t.offset < 0 then s else s.at (s.now + 2)
    let left := if t.offset < 0 then t.offset + 1 else t.offset - 1
    s1.onTime fun u => { u with offset := left, since := 0, slew := left != 0 }
  else (s.at (s.now + 1)).onTime fun u => { u with since := t.since + 1 }

/-- Nothing is commanded: one period of the clock that carries TIME passes (log 1). -/
def State.tick (s : State) : State :=
  match s.pwr.mode with
  | .off => s
  | .park => s.aonTick
  | .deep => s.aonTick
  | _ => if s.rst.bkup then s.backupTick else s.perTick

/-! The strobe -/

/-- Accepted CYC values are applied at the strobe, PER values go on to their owner's boundary (R56, R57). -/
def State.strobeCyc (s : State) : State :=
  if !s.up 2 then s
  else s.srv.cyc.foldl (fun st e =>
    match famOf (e.1 / 256) with
    | none => st
    | some (f, _) => match findRow f (e.1 % 256) with
      | none => st
      | some row =>
        if row.apply == .per then st.onSrv fun v => { v with per := alInsert e.1 e.2.2 v.per }
        else st.applyVal e.2.1 row (e.1 / 256) e.2.2) (s.onSrv fun v => { v with cyc := [] })

/-- The boundary whose strobe comes next: that at or below TIME if it has not been sent, else the next. -/
def State.strobeTime (s : State) : Nat := if s.time.strobed then (s.now / 100000 + 1) * 100000 else s.now / 100000 * 100000

/-- BASE_CYCLE_STROBE (R43, R46): a pending step; the accepted values and commits; then what each block does at its strobe.  A device that is
parked or off has none. -/
def execBaseCycleStrobe (env : StrobeEnv) (s : State) : Host.Outcome State Fault Refusal :=
  .next (if s.pwr.mode == .park || s.pwr.mode == .deep || s.pwr.mode == .off then s
  else
    let s1 := ((s.at s.strobeTime).applyStep).onTime fun t => { t with strobed := true }
    let s2 := if s1.up 2 then s1.strobeCyc.strobeCommits else s1
    let s3 := ((s2.governorStrobe env).recheckAll).engStrobe
    let s4 := if s3.up 5 then (allFin 8).foldl State.canBoundary s3 else s3
    (s4.duoStrobe).onRing fun r => { r with dirty := false })

end Sys2Proof.Machine
end

