-- ==== Sys2Proof/Machine/Dispatch.lean ====
section
/-!
DEFINITION. The meaning of each command: one arm per constructor.
-/
namespace Sys2Proof.Machine

def exec (i : Instr) (s : State) : Host.Outcome State Fault Refusal :=
  match i with
  | .fabricTransaction tx => Sys2Proof.Machine.execFabricTransaction tx s
  | .egressGrant egress ecc => Sys2Proof.Machine.execEgressGrant egress ecc s
  | .fabricResponse tag => Sys2Proof.Machine.execFabricResponse tag s
  | .staleResponse tag => Sys2Proof.Machine.execStaleResponse tag s
  | .responseTimeout tag => Sys2Proof.Machine.execResponseTimeout tag s
  | .creditReturn => Sys2Proof.Machine.execCreditReturn s
  | .sramScrub ecc => Sys2Proof.Machine.execSramScrub ecc s
  | .timeLoRead port => Sys2Proof.Machine.execTimeLoRead port s
  | .timeStRead port => Sys2Proof.Machine.execTimeStRead port s
  | .timeWrap => Sys2Proof.Machine.execTimeWrap s
  | .baseCycleStrobe env => Sys2Proof.Machine.execBaseCycleStrobe env s
  | .zopRead h => Sys2Proof.Machine.execZopRead h s
  | .zopWrite h octets => Sys2Proof.Machine.execZopWrite h octets s
  | .zopCommit h go indices => Sys2Proof.Machine.execZopCommit h go indices s
  | .zopSubscribe h minInt => Sys2Proof.Machine.execZopSubscribe h minInt s
  | .zopUnsubscribe h => Sys2Proof.Machine.execZopUnsubscribe h s
  | .zopDescribe h => Sys2Proof.Machine.execZopDescribe h s
  | .blockStart h dir len => Sys2Proof.Machine.execBlockStart h dir len s
  | .blockSeg h segno words => Sys2Proof.Machine.execBlockSeg h segno words s
  | .blockEnd h crc => Sys2Proof.Machine.execBlockEnd h crc s
  | .blockTimeout => Sys2Proof.Machine.execBlockTimeout s
  | .sessionOpen h slot => Sys2Proof.Machine.execSessionOpen h slot s
  | .sessionProof h => Sys2Proof.Machine.execSessionProof h s
  | .sessionClose h => Sys2Proof.Machine.execSessionClose h s
  | .sessionProofTimeout sid => Sys2Proof.Machine.execSessionProofTimeout sid s
  | .sessionIdleTimeout sid => Sys2Proof.Machine.execSessionIdleTimeout sid s
  | .zopMalformed medium peer octets => Sys2Proof.Machine.execZopMalformed medium peer octets s
  | .notifySend sub => Sys2Proof.Machine.execNotifySend sub s
  | .bundleCommit r => Sys2Proof.Machine.execBundleCommit r s
  | .bundleAbort r => Sys2Proof.Machine.execBundleAbort r s
  | .consistencyCheckDone r => Sys2Proof.Machine.execConsistencyCheckDone r s
  | .stagingTimeout r => Sys2Proof.Machine.execStagingTimeout r s
  | .store r => Sys2Proof.Machine.execStore r s
  | .savedStoreTimer => Sys2Proof.Machine.execSavedStoreTimer s
  | .savedStoreDone ok => Sys2Proof.Machine.execSavedStoreDone ok s
  | .fwobjHandlerTimeout => Sys2Proof.Machine.execFwobjHandlerTimeout s
  | .u72HalfTimeout p => Sys2Proof.Machine.execU72HalfTimeout p s
  | .objectServerAnswer => Sys2Proof.Machine.execObjectServerAnswer s
  | .eventQueueRead port q => Sys2Proof.Machine.execEventQueueRead port q s
  | .speedwellPass => Sys2Proof.Machine.execSpeedwellPass s
  | .hsNop g mask => Sys2Proof.Machine.execHsNop g mask s
  | .hsOff v g mask => Sys2Proof.Machine.execHsOff v g mask s
  | .hsOn v g mask => Sys2Proof.Machine.execHsOn v g mask s
  | .hsPwm v g mask => Sys2Proof.Machine.execHsPwm v g mask s
  | .hsDuty g mask d => Sys2Proof.Machine.execHsDuty g mask d s
  | .hsClearLatch v g mask => Sys2Proof.Machine.execHsClearLatch v g mask s
  | .hsMalformedWord g w => Sys2Proof.Machine.execHsMalformedWord g w s
  | .hsPeriodBoundary ch => Sys2Proof.Machine.execHsPeriodBoundary ch s
  | .hsOntimeEnd ch => Sys2Proof.Machine.execHsOntimeEnd ch s
  | .hsInrushTrip ch => Sys2Proof.Machine.execHsInrushTrip ch s
  | .hsLadderOfftimeEnd ch => Sys2Proof.Machine.execHsLadderOfftimeEnd ch s
  | .hsInrushWindowClose ch => Sys2Proof.Machine.execHsInrushWindowClose ch s
  | .hsOvercurrentTrip ch => Sys2Proof.Machine.execHsOvercurrentTrip ch s
  | .quietWindowEnd g => Sys2Proof.Machine.execQuietWindowEnd g s
  | .junctionWarning g tj => Sys2Proof.Machine.execJunctionWarning g tj s
  | .thermalShutdown g tj => Sys2Proof.Machine.execThermalShutdown g tj s
  | .junctionSensorFail g => Sys2Proof.Machine.execJunctionSensorFail g s
  | .offstateTestDue l => Sys2Proof.Machine.execOffstateTestDue l s
  | .offstateTestPhaseEnd l m => Sys2Proof.Machine.execOffstateTestPhaseEnd l m s
  | .lowCurrentDetect ch => Sys2Proof.Machine.execLowCurrentDetect ch s
  | .senseSample item code checkOk => Sys2Proof.Machine.execSenseSample item code checkOk s
  | .soutSelect r item => Sys2Proof.Machine.execSoutSelect r item s
  | .holdTimerExpire item => Sys2Proof.Machine.execHoldTimerExpire item s
  | .hbNop g pmask => Sys2Proof.Machine.execHbNop g pmask s
  | .hbFree v g pmask => Sys2Proof.Machine.execHbFree v g pmask s
  | .hbStop v g pmask => Sys2Proof.Machine.execHbStop v g pmask s
  | .hbRun v g pmask dir duty => Sys2Proof.Machine.execHbRun v g pmask dir duty s
  | .hbMove v g pmask target => Sys2Proof.Machine.execHbMove v g pmask target s
  | .hbPulse v g pmask dir ms => Sys2Proof.Machine.execHbPulse v g pmask dir ms s
  | .hbPark v g pmask dir => Sys2Proof.Machine.execHbPark v g pmask dir s
  | .hbClearLatch v g pmask => Sys2Proof.Machine.execHbClearLatch v g pmask s
  | .hbMalformedWord g w => Sys2Proof.Machine.execHbMalformedWord g w s
  | .legOff r leg => Sys2Proof.Machine.execLegOff r leg s
  | .legHighOn r leg => Sys2Proof.Machine.execLegHighOn r leg s
  | .legLowOn r leg => Sys2Proof.Machine.execLegLowOn r leg s
  | .legPwm r leg => Sys2Proof.Machine.execLegPwm r leg s
  | .limiterStep k => Sys2Proof.Machine.execLimiterStep k s
  | .zeroSpeedDetect k => Sys2Proof.Machine.execZeroSpeedDetect k s
  | .zeroSpeedTimeout k => Sys2Proof.Machine.execZeroSpeedTimeout k s
  | .dwellEnd k => Sys2Proof.Machine.execDwellEnd k s
  | .positionCount k ev => Sys2Proof.Machine.execPositionCount k ev s
  | .posWrite r k v => Sys2Proof.Machine.execPosWrite r k v s
  | .kinkDetect k => Sys2Proof.Machine.execKinkDetect k s
  | .stallTimeout k => Sys2Proof.Machine.execStallTimeout k s
  | .pinchDetect k => Sys2Proof.Machine.execPinchDetect k s
  | .parkInputActive k => Sys2Proof.Machine.execParkInputActive k s
  | .parkTimeout k => Sys2Proof.Machine.execParkTimeout k s
  | .pulseEnd k => Sys2Proof.Machine.execPulseEnd k s
  | .currentLimitAct k => Sys2Proof.Machine.execCurrentLimitAct k s
  | .hbOvercurrentTrip leg high => Sys2Proof.Machine.execHbOvercurrentTrip leg high s
  | .crossConduction leg => Sys2Proof.Machine.execCrossConduction leg s
  | .valveNop mask => Sys2Proof.Machine.execValveNop mask s
  | .valveOff v mask => Sys2Proof.Machine.execValveOff v mask s
  | .valveOn v mask => Sys2Proof.Machine.execValveOn v mask s
  | .valvePulse mask ms => Sys2Proof.Machine.execValvePulse mask ms s
  | .valveClearLatch v mask => Sys2Proof.Machine.execValveClearLatch v mask s
  | .valveMalformedWord w => Sys2Proof.Machine.execValveMalformedWord w s
  | .pullInDetect n dip => Sys2Proof.Machine.execPullInDetect n dip s
  | .valvePeakEnd n why energy => Sys2Proof.Machine.execValvePeakEnd n why energy s
  | .valveHoldStart n => Sys2Proof.Machine.execValveHoldStart n s
  | .valveDecayEnd n erec => Sys2Proof.Machine.execValveDecayEnd n erec s
  | .releaseDetect n => Sys2Proof.Machine.execReleaseDetect n s
  | .releaseTimeout n => Sys2Proof.Machine.execReleaseTimeout n s
  | .valvePulseEnd n => Sys2Proof.Machine.execValvePulseEnd n s
  | .dutyLimitReached n => Sys2Proof.Machine.execDutyLimitReached n s
  | .dutyLatchSelfClear n => Sys2Proof.Machine.execDutyLatchSelfClear n s
  | .valveOvercurrentTrip n => Sys2Proof.Machine.execValveOvercurrentTrip n s
  | .bankSwitchTrip b => Sys2Proof.Machine.execBankSwitchTrip b s
  | .bankClear r b => Sys2Proof.Machine.execBankClear r b s
  | .boostSetpointReached vout => Sys2Proof.Machine.execBoostSetpointReached vout s
  | .boostChargeTimeout => Sys2Proof.Machine.execBoostChargeTimeout s
  | .boostClear r => Sys2Proof.Machine.execBoostClear r s
  | .boostOvervoltage vout => Sys2Proof.Machine.execBoostOvervoltage vout s
  | .boostDischarged => Sys2Proof.Machine.execBoostDischarged s
  | .ledNop n => Sys2Proof.Machine.execLedNop n s
  | .ledLevel v n x fade => Sys2Proof.Machine.execLedLevel v n x fade s
  | .ledClearLatch v n => Sys2Proof.Machine.execLedClearLatch v n s
  | .ledMalformedWord w => Sys2Proof.Machine.execLedMalformedWord w s
  | .ledPeriodBoundary n reached => Sys2Proof.Machine.execLedPeriodBoundary n s reached
  | .ledOpenString n => Sys2Proof.Machine.execLedOpenString n s
  | .ledStringShort n => Sys2Proof.Machine.execLedStringShort n s
  | .ledThermalShutdown n => Sys2Proof.Machine.execLedThermalShutdown n s
  | .shedOffTimeout what => Sys2Proof.Machine.execShedOffTimeout what s
  | .chainSetCgo v => Sys2Proof.Machine.execChainSetCgo v s
  | .chainRefresh ok => Sys2Proof.Machine.execChainRefresh ok s
  | .chainNop => Sys2Proof.Machine.execChainNop s
  | .chainMalformedWord w => Sys2Proof.Machine.execChainMalformedWord w s
  | .matrixShow v buf => Sys2Proof.Machine.execMatrixShow v buf s
  | .matrixFrameStart badRows => Sys2Proof.Machine.execMatrixFrameStart badRows s
  | .fsyncEdge badRows => Sys2Proof.Machine.execFsyncEdge s badRows
  | .fsyncLost => Sys2Proof.Machine.execFsyncLost s
  | .loopRelease m => Sys2Proof.Machine.execLoopRelease m s
  | .loopStep t mismatch => Sys2Proof.Machine.execLoopStep t mismatch s
  | .loopStreamArrival endpoint words => Sys2Proof.Machine.execLoopStreamArrival endpoint words s
  | .loopWaitExpire m => Sys2Proof.Machine.execLoopWaitExpire m s
  | .loopDeadline m => Sys2Proof.Machine.execLoopDeadline m s
  | .loopModeOff r m => Sys2Proof.Machine.execLoopModeOff r m s
  | .loopModeManual r m => Sys2Proof.Machine.execLoopModeManual r m s
  | .loopModeAuto r m => Sys2Proof.Machine.execLoopModeAuto r m s
  | .tileFailure t => Sys2Proof.Machine.execTileFailure t s
  | .remapLoadDone => Sys2Proof.Machine.execRemapLoadDone s
  | .lockstepMismatch p => Sys2Proof.Machine.execLockstepMismatch p s
  | .interruptEntry p => Sys2Proof.Machine.execInterruptEntry p s
  | .timerCompareMatch p => Sys2Proof.Machine.execTimerCompareMatch p s
  | .stfFlushTimeout p c => Sys2Proof.Machine.execStfFlushTimeout p c s
  | .illegalInstruction p w => Sys2Proof.Machine.execIllegalInstruction p w s
  | .mov p d a => Sys2Proof.Machine.execMov p d a s
  | .add p d a b => Sys2Proof.Machine.execAdd p d a b s
  | .sub p d a b => Sys2Proof.Machine.execSub p d a b s
  | .adds p d a b => Sys2Proof.Machine.execAdds p d a b s
  | .subs p d a b => Sys2Proof.Machine.execSubs p d a b s
  | .and p d a b => Sys2Proof.Machine.execAnd p d a b s
  | .or p d a b => Sys2Proof.Machine.execOr p d a b s
  | .xor p d a b => Sys2Proof.Machine.execXor p d a b s
  | .andn p d a b => Sys2Proof.Machine.execAndn p d a b s
  | .shl p d a b => Sys2Proof.Machine.execShl p d a b s
  | .shr p d a b => Sys2Proof.Machine.execShr p d a b s
  | .sar p d a b => Sys2Proof.Machine.execSar p d a b s
  | .cmp p a b => Sys2Proof.Machine.execCmp p a b s
  | .min p d a b => Sys2Proof.Machine.execMin p d a b s
  | .max p d a b => Sys2Proof.Machine.execMax p d a b s
  | .clz p d a => Sys2Proof.Machine.execClz p d a s
  | .neg p d a => Sys2Proof.Machine.execNeg p d a s
  | .addi p d a imm => Sys2Proof.Machine.execAddi p d a imm s
  | .andi p d a imm => Sys2Proof.Machine.execAndi p d a imm s
  | .ori p d a imm => Sys2Proof.Machine.execOri p d a imm s
  | .xori p d a imm => Sys2Proof.Machine.execXori p d a imm s
  | .cmpi p a imm => Sys2Proof.Machine.execCmpi p a imm s
  | .shli p d a sh => Sys2Proof.Machine.execShli p d a sh s
  | .shri p d a sh => Sys2Proof.Machine.execShri p d a sh s
  | .sari p d a sh => Sys2Proof.Machine.execSari p d a sh s
  | .movi p d imm => Sys2Proof.Machine.execMovi p d imm s
  | .movhi p d imm => Sys2Proof.Machine.execMovhi p d imm s
  | .lea p an ab off => Sys2Proof.Machine.execLea p an ab off s
  | .addar p an ab b => Sys2Proof.Machine.execAddar p an ab b s
  | .mova p an a => Sys2Proof.Machine.execMova p an a s
  | .movd p d aa => Sys2Proof.Machine.execMovd p d aa s
  | .cmpa p aa ab => Sys2Proof.Machine.execCmpa p aa ab s
  | .ld p d ab off ecc => Sys2Proof.Machine.execLd p d ab off ecc s
  | .st p ds ab off ecc => Sys2Proof.Machine.execSt p ds ab off ecc s
  | .lda p an ab off ecc => Sys2Proof.Machine.execLda p an ab off ecc s
  | .sta p an ab off ecc => Sys2Proof.Machine.execSta p an ab off ecc s
  | .push p ds ecc => Sys2Proof.Machine.execPush p ds ecc s
  | .pop p d ecc => Sys2Proof.Machine.execPop p d ecc s
  | .ldo p d index sub => Sys2Proof.Machine.execLdo p d index sub s
  | .sto p ds index sub => Sys2Proof.Machine.execSto p ds index sub s
  | .stf p ds c => Sys2Proof.Machine.execStf p ds c s
  | .b p cond rel => Sys2Proof.Machine.execB p cond rel s
  | .call p rel => Sys2Proof.Machine.execCall p rel s
  | .nop p => Sys2Proof.Machine.execNop p s
  | .jmpr p ab => Sys2Proof.Machine.execJmpr p ab s
  | .callr p ab => Sys2Proof.Machine.execCallr p ab s
  | .ret p => Sys2Proof.Machine.execRet p s
  | .rti p => Sys2Proof.Machine.execRti p s
  | .wait p => Sys2Proof.Machine.execWait p s
  | .sync p => Sys2Proof.Machine.execSync p s
  | .ei p => Sys2Proof.Machine.execEi p s
  | .di p => Sys2Proof.Machine.execDi p s
  | .bkpt p => Sys2Proof.Machine.execBkpt p s
  | .trap p n => Sys2Proof.Machine.execTrap p n s
  | .cinvi p => Sys2Proof.Machine.execCinvi p s
  | .mul p a b => Sys2Proof.Machine.execMul p a b s
  | .mulu p a b => Sys2Proof.Machine.execMulu p a b s
  | .mac p n => Sys2Proof.Machine.execMac p n s
  | .msu p n => Sys2Proof.Machine.execMsu p n s
  | .acclr p n => Sys2Proof.Machine.execAcclr p n s
  | .acr p d n sh => Sys2Proof.Machine.execAcr p d n sh s
  | .acw p n a sh => Sys2Proof.Machine.execAcw p n a sh s
  | .bfi p d a pos wid => Sys2Proof.Machine.execBfi p d a pos wid s
  | .bfx p d a pos wid sx => Sys2Proof.Machine.execBfx p d a pos wid sx s
  | .bperm p d a sel => Sys2Proof.Machine.execBperm p d a sel s
  | .mfs p d sr => Sys2Proof.Machine.execMfs p d sr s
  | .mts p sr ds => Sys2Proof.Machine.execMts p sr ds s
  | .cwb p ab off ecc => Sys2Proof.Machine.execCwb p ab off ecc s
  | .cinv p ab off ecc => Sys2Proof.Machine.execCinv p ab off ecc s
  | .slotPeriodicEligible n slot => Sys2Proof.Machine.execSlotPeriodicEligible n slot s
  | .bindingEvent n b evt => Sys2Proof.Machine.execBindingEvent n b evt s
  | .activationStart n => Sys2Proof.Machine.execActivationStart n s
  | .activationAbort n => Sys2Proof.Machine.execActivationAbort n s
  | .seqTmrExpire n b => Sys2Proof.Machine.execSeqTmrExpire n b s
  | .seqHeldAccess n => Sys2Proof.Machine.execSeqHeldAccess n s
  | .userImageLoad => Sys2Proof.Machine.execUserImageLoad s
  | .signalRead port n => Sys2Proof.Machine.execSignalRead port n s
  | .lysMov n d a => Sys2Proof.Machine.execLysMov n d a s
  | .lysAdd n d a b => Sys2Proof.Machine.execLysAdd n d a b s
  | .lysSub n d a b => Sys2Proof.Machine.execLysSub n d a b s
  | .lysAnd n d a b => Sys2Proof.Machine.execLysAnd n d a b s
  | .lysOr n d a b => Sys2Proof.Machine.execLysOr n d a b s
  | .lysXor n d a b => Sys2Proof.Machine.execLysXor n d a b s
  | .lysShl n d a b => Sys2Proof.Machine.execLysShl n d a b s
  | .lysShr n d a b => Sys2Proof.Machine.execLysShr n d a b s
  | .lysSar n d a b => Sys2Proof.Machine.execLysSar n d a b s
  | .lysCmp n a b => Sys2Proof.Machine.execLysCmp n a b s
  | .lysMin n d a b => Sys2Proof.Machine.execLysMin n d a b s
  | .lysMax n d a b => Sys2Proof.Machine.execLysMax n d a b s
  | .lysMovi n d imm => Sys2Proof.Machine.execLysMovi n d imm s
  | .lysAddi n d imm => Sys2Proof.Machine.execLysAddi n d imm s
  | .lysCmpi n d imm => Sys2Proof.Machine.execLysCmpi n d imm s
  | .lysAndi n d imm => Sys2Proof.Machine.execLysAndi n d imm s
  | .lysOri n d imm => Sys2Proof.Machine.execLysOri n d imm s
  | .lysLui n d imm => Sys2Proof.Machine.execLysLui n d imm s
  | .lysLdh n d a off => Sys2Proof.Machine.execLysLdh n d a off s
  | .lysSth n d a off => Sys2Proof.Machine.execLysSth n d a off s
  | .lysIn n d port => Sys2Proof.Machine.execLysIn n d port s
  | .lysOut n d port => Sys2Proof.Machine.execLysOut n d port s
  | .lysGet n d g => Sys2Proof.Machine.execLysGet n d g s
  | .lysB n cond rel => Sys2Proof.Machine.execLysB n cond rel s
  | .lysJ n tgt => Sys2Proof.Machine.execLysJ n tgt s
  | .lysCall n tgt => Sys2Proof.Machine.execLysCall n tgt s
  | .lysJr n a => Sys2Proof.Machine.execLysJr n a s
  | .lysDbnz n d rel => Sys2Proof.Machine.execLysDbnz n d rel s
  | .lysEnd n => Sys2Proof.Machine.execLysEnd n s
  | .lysSig n imm => Sys2Proof.Machine.execLysSig n imm s
  | .lysIllegal n w => Sys2Proof.Machine.execLysIllegal n w s
  | .debounceAccept num => Sys2Proof.Machine.execDebounceAccept num s
  | .chatterFallback num => Sys2Proof.Machine.execChatterFallback num s
  | .filterAccept num => Sys2Proof.Machine.execFilterAccept num s
  | .filterExit num => Sys2Proof.Machine.execFilterExit num s
  | .openBandLost num => Sys2Proof.Machine.execOpenBandLost num s
  | .parkPoll n mV => Sys2Proof.Machine.execParkPoll n mV s
  | .ioCmdOff r n => Sys2Proof.Machine.execIoCmdOff r n s
  | .ioCmdOn r n => Sys2Proof.Machine.execIoCmdOn r n s
  | .ioClear r n => Sys2Proof.Machine.execIoClear r n s
  | .ioOvercurrent n => Sys2Proof.Machine.execIoOvercurrent n s
  | .ioThermal n => Sys2Proof.Machine.execIoThermal n s
  | .adcConversion adc slot code checkOk => Sys2Proof.Machine.execAdcConversion adc slot code checkOk s
  | .arefLow => Sys2Proof.Machine.execArefLow s
  | .canFrameReceive ch frame => Sys2Proof.Machine.execCanFrameReceive ch frame s
  | .canTxRequest r ch m => Sys2Proof.Machine.execCanTxRequest r ch m s
  | .canTxAbort r ch m => Sys2Proof.Machine.execCanTxAbort r ch m s
  | .canNewClear r ch m => Sys2Proof.Machine.execCanNewClear r ch m s
  | .canTxAttempt ch => Sys2Proof.Machine.execCanTxAttempt ch s
  | .canTxDone ch => Sys2Proof.Machine.execCanTxDone ch s
  | .canTxFail ch lost => Sys2Proof.Machine.execCanTxFail ch lost s
  | .canBusError ch kind tx step8 => Sys2Proof.Machine.execCanBusError ch kind tx step8 s
  | .borst r ch => Sys2Proof.Machine.execBorst r ch s
  | .canBusoffRecovered ch => Sys2Proof.Machine.execCanBusoffRecovered ch s
  | .abdCandidateTimeout ch error => Sys2Proof.Machine.execAbdCandidateTimeout ch error s
  | .canWupDetect ch => Sys2Proof.Machine.execCanWupDetect ch s
  | .canWufDetect ch frame error => Sys2Proof.Machine.execCanWufDetect ch frame error s
  | .wufDecoderTimeout ch => Sys2Proof.Machine.execWufDecoderTimeout ch s
  | .txdDominantTimeout x => Sys2Proof.Machine.execTxdDominantTimeout x s
  | .linSlotStart ch => Sys2Proof.Machine.execLinSlotStart ch s
  | .linResponseComplete ch octets res => Sys2Proof.Machine.execLinResponseComplete ch octets res s
  | .linResponseTimeout ch got => Sys2Proof.Machine.execLinResponseTimeout ch got s
  | .linNewClear r ch m => Sys2Proof.Machine.execLinNewClear r ch m s
  | .linTxPending r ch m => Sys2Proof.Machine.execLinTxPending r ch m s
  | .runtblWrite r ch v => Sys2Proof.Machine.execRuntblWrite r ch v s
  | .linBusDominant ch => Sys2Proof.Machine.execLinBusDominant ch s
  | .ethFrameReceive port f => Sys2Proof.Machine.execEthFrameReceive port f s
  | .ethFrameTransmit port => Sys2Proof.Machine.execEthFrameTransmit port s
  | .hostTxKick r v => Sys2Proof.Machine.execHostTxKick r v s
  | .macAgeout idx => Sys2Proof.Machine.execMacAgeout idx s
  | .xgLinkChange x up speed an => Sys2Proof.Machine.execXgLinkChange x up speed an s
  | .t1sBeaconLost x => Sys2Proof.Machine.execT1sBeaconLost x s
  | .ptpSyncReceive offset gmid => Sys2Proof.Machine.execPtpSyncReceive offset gmid s
  | .ptpSyncSend port => Sys2Proof.Machine.execPtpSyncSend port s
  | .ptpPdelay port delay => Sys2Proof.Machine.execPtpPdelay port delay s
  | .ptpSyncTimeout => Sys2Proof.Machine.execPtpSyncTimeout s
  | .ringCycleStart => Sys2Proof.Machine.execRingCycleStart s
  | .ringCycReceive c => Sys2Proof.Machine.execRingCycReceive c s
  | .ringTendReceive => Sys2Proof.Machine.execRingTendReceive s
  | .ringFrameReceive f => Sys2Proof.Machine.execRingFrameReceive f s
  | .ringCodeViolation => Sys2Proof.Machine.execRingCodeViolation s
  | .ringTrainRepair => Sys2Proof.Machine.execRingTrainRepair s
  | .ringCycLost => Sys2Proof.Machine.execRingCycLost s
  | .ringTendLost => Sys2Proof.Machine.execRingTendLost s
  | .ringJoin => Sys2Proof.Machine.execRingJoin s
  | .ringTimerTake => Sys2Proof.Machine.execRingTimerTake s
  | .parkReqNone r => Sys2Proof.Machine.execParkReqNone r s
  | .parkRequest r => Sys2Proof.Machine.execParkRequest r s
  | .deepParkRequest r => Sys2Proof.Machine.execDeepParkRequest r s
  | .idleEnter => Sys2Proof.Machine.execIdleEnter s
  | .idleExit => Sys2Proof.Machine.execIdleExit s
  | .entryStart => Sys2Proof.Machine.execEntryStart s
  | .entryComplete => Sys2Proof.Machine.execEntryComplete s
  | .entryDrainTimeout => Sys2Proof.Machine.execEntryDrainTimeout s
  | .wakeEvent src num => Sys2Proof.Machine.execWakeEvent src num s
  | .wakeTimerExpire => Sys2Proof.Machine.execWakeTimerExpire s
  | .domainReturnRelease d => Sys2Proof.Machine.execDomainReturnRelease d s
  | .wakeReplay => Sys2Proof.Machine.execWakeReplay s
  | .daisyRoundOpen => Sys2Proof.Machine.execDaisyRoundOpen s
  | .daisyRoundReceive m med => Sys2Proof.Machine.execDaisyRoundReceive m med s
  | .daisyRoundTimeout => Sys2Proof.Machine.execDaisyRoundTimeout s
  | .daisyCommitRepeat => Sys2Proof.Machine.execDaisyCommitRepeat s
  | .daisyCommitReceive m med => Sys2Proof.Machine.execDaisyCommitReceive m med s
  | .daisyKeepReceive m med => Sys2Proof.Machine.execDaisyKeepReceive m med s
  | .daisyKeepSend => Sys2Proof.Machine.execDaisyKeepSend s
  | .daisyWakeReceive m med => Sys2Proof.Machine.execDaisyWakeReceive m med s
  | .maxawakeExpire => Sys2Proof.Machine.execMaxawakeExpire s
  | .pollRequest cause => Sys2Proof.Machine.execPollRequest cause s
  | .pollPoweringEnd amp => Sys2Proof.Machine.execPollPoweringEnd s amp
  | .pollSlotEnd obs => Sys2Proof.Machine.execPollSlotEnd obs s
  | .lockoutExpire => Sys2Proof.Machine.execLockoutExpire s
  | .lockoutClear r => Sys2Proof.Machine.execLockoutClear r s
  | .lfDriverClear r => Sys2Proof.Machine.execLfDriverClear r s
  | .lfShort => Sys2Proof.Machine.execLfShort s
  | .resultRead r => Sys2Proof.Machine.execResultRead r s
  | .handleMeasure e code => Sys2Proof.Machine.execHandleMeasure e code s
  | .lfSearch ack => Sys2Proof.Machine.execLfSearch ack s
  | .searchStop => Sys2Proof.Machine.execSearchStop s
  | .classShed k => Sys2Proof.Machine.execClassShed k s
  | .classRestore k => Sys2Proof.Machine.execClassRestore k s
  | .restoreEnergiseBatch => Sys2Proof.Machine.execRestoreEnergiseBatch s
  | .crankEntry => Sys2Proof.Machine.execCrankEntry s
  | .crankExit => Sys2Proof.Machine.execCrankExit s
  | .overvoltageSet => Sys2Proof.Machine.execOvervoltageSet s
  | .overvoltageClear => Sys2Proof.Machine.execOvervoltageClear s
  | .groundLoss => Sys2Proof.Machine.execGroundLoss s
  | .groundRestored => Sys2Proof.Machine.execGroundRestored s
  | .caseSensorFail => Sys2Proof.Machine.execCaseSensorFail s
  | .faultReport n fresh bad => Sys2Proof.Machine.execFaultReport n fresh s bad
  | .freezeComplete => Sys2Proof.Machine.execFreezeComplete s
  | .errnPulseEnd => Sys2Proof.Machine.execErrnPulseEnd s
  | .errnMismatch => Sys2Proof.Machine.execErrnMismatch s
  | .errnlvlWrite r v => Sys2Proof.Machine.execErrnlvlWrite r v s
  | .fclr r => Sys2Proof.Machine.execFclr r s
  | .stclr r v => Sys2Proof.Machine.execStclr r v s
  | .srel r => Sys2Proof.Machine.execSrel r s
  | .dgclr r v => Sys2Proof.Machine.execDgclr r v s
  | .shadowEnd blk => Sys2Proof.Machine.execShadowEnd blk s
  | .dumpgo r => Sys2Proof.Machine.execDumpgo r s
  | .dumpEraseDone => Sys2Proof.Machine.execDumpEraseDone s
  | .dumpComplete ok => Sys2Proof.Machine.execDumpComplete ok s
  | .powerOnReset casc => Sys2Proof.Machine.execPowerOnReset casc s
  | .aonBrownout => Sys2Proof.Machine.execAonBrownout s
  | .supBrownout => Sys2Proof.Machine.execSupBrownout s
  | .coreBrownout => Sys2Proof.Machine.execCoreBrownout s
  | .supplyGood which => Sys2Proof.Machine.execSupplyGood which s
  | .rstnFall => Sys2Proof.Machine.execRstnFall s
  | .rstnRise => Sys2Proof.Machine.execRstnRise s
  | .swrst r v => Sys2Proof.Machine.execSwrst r v s
  | .swblk r v => Sys2Proof.Machine.execSwblk r v s
  | .debugResetRequest => Sys2Proof.Machine.execDebugResetRequest s
  | .debugResetWithdraw => Sys2Proof.Machine.execDebugResetWithdraw s
  | .resetPulseEnd src => Sys2Proof.Machine.execResetPulseEnd src s
  | .domainRelease => Sys2Proof.Machine.execDomainRelease s
  | .clockGoodTimeout => Sys2Proof.Machine.execClockGoodTimeout s
  | .rootLoss => Sys2Proof.Machine.execRootLoss s
  | .rootRestart => Sys2Proof.Machine.execRootRestart s
  | .rootRecovered => Sys2Proof.Machine.execRootRecovered s
  | .aonOscCheck dev => Sys2Proof.Machine.execAonOscCheck dev s
  | .wdkick p v => Sys2Proof.Machine.execWdkick p v s
  | .watchdogWarning => Sys2Proof.Machine.execWatchdogWarning s
  | .watchdogExpire => Sys2Proof.Machine.execWatchdogExpire s
  | .wdlock r => Sys2Proof.Machine.execWdlock r s
  | .duoStateReceive f => Sys2Proof.Machine.execDuoStateReceive f s
  | .duoCopyDeadline => Sys2Proof.Machine.execDuoCopyDeadline s
  | .duoAlarmReceive id => Sys2Proof.Machine.execDuoAlarmReceive id s
  | .imageVerifyDone verr => Sys2Proof.Machine.execImageVerifyDone verr s
  | .bankEraseDone => Sys2Proof.Machine.execBankEraseDone s
  | .romBootVerifyDone verr => Sys2Proof.Machine.execRomBootVerifyDone verr s
  | .activate r => Sys2Proof.Machine.execActivate r s
  | .confirm r => Sys2Proof.Machine.execConfirm r s
  | .bootok r => Sys2Proof.Machine.execBootok r s
  | .bootokTimeout => Sys2Proof.Machine.execBootokTimeout s
  | .keyload r slot key => Sys2Proof.Machine.execKeyload r slot key s
  | .keyclr r v => Sys2Proof.Machine.execKeyclr r v s
  | .ukrev r v => Sys2Proof.Machine.execUkrev r v s
  | .logAppend ok => Sys2Proof.Machine.execLogAppend ok s
  | .extest => Sys2Proof.Machine.execExtest s
  | .idcode => Sys2Proof.Machine.execIdcode s
  | .samplePreload => Sys2Proof.Machine.execSamplePreload s
  | .dchal => Sys2Proof.Machine.execDchal s
  | .dresp level mac => Sys2Proof.Machine.execDresp level mac s
  | .dacc a => Sys2Proof.Machine.execDacc a s
  | .bypass => Sys2Proof.Machine.execBypass s
  | .registerWrite r index sub v => Sys2Proof.Machine.execRegisterWrite r index sub v s
  | .pairPwmPeriodBoundary k => Sys2Proof.Machine.execPairPwmPeriodBoundary k s
  | .productLands p => Sys2Proof.Machine.execProductLands p s
  | .junctionCooled g tj => Sys2Proof.Machine.execJunctionCooled g tj s
  | .boostRailTooLow b vout => Sys2Proof.Machine.execBoostRailTooLow b vout s
  | .boostSwitchOvercurrent => Sys2Proof.Machine.execBoostSwitchOvercurrent s
  | .inputClassChange num mV => Sys2Proof.Machine.execInputClassChange num mV s
  | .openBandRestored num => Sys2Proof.Machine.execOpenBandRestored num s
  | .arefRestored => Sys2Proof.Machine.execArefRestored s
  | .canIntegration ch => Sys2Proof.Machine.execCanIntegration ch s
  | .ringSymbolLock lock => Sys2Proof.Machine.execRingSymbolLock lock s
  | .plcaBeaconSeen x => Sys2Proof.Machine.execPlcaBeaconSeen x s
  | .t1sJabber x => Sys2Proof.Machine.execT1sJabber x s

end Sys2Proof.Machine
end

