-- ==== Sys2Proof/Safety.lean ====
section
/-!
DEFINITION. The terms in which statements about the machine are made: what a command completes with, what it leaves, and what holds at
every step of a run.
-/
namespace Sys2Proof.Machine

/-- Memory keeps its canonical form, and no pair holds more than the 32 return entries of R305. -/
def State.Sound (s : State) : Prop := Memory.wf s.mem = true ∧ ∀ p : Fin 2, (bget s.cores p).rs.length ≤ 32

/-- The command answers a next state, of which `post` holds. -/
def Runs (i : Instr) (s : State) (post : State → Prop) : Prop := ∃ t, exec i s = .next t ∧ post t

/-! Myuno-36 -/

/-- A pair issues, and its instruction cache holds the word at its PC. -/
def State.Ready (s : State) (p : Fin 2) : Prop :=
  s.issues p = true ∧ ((bget s.cores p).icache.find? fun x => x.line = (bget s.cores p).pc.toNat / 8).isSome = true

/-- Nothing changes but one pair. -/
def OnlyCore (p : Fin 2) (s t : State) : Prop := t = { s with cores := t.cores } ∧ ∀ q, q ≠ p → bget t.cores q = bget s.cores q

/-- Of a pair nothing changes but D registers, PSW, PC, and products that land. -/
def OnlyD (c c' : Core) : Prop :=
  c' = { c with d := c'.d, readyD := c'.readyD, psw := c'.psw, pc := c'.pc, pcs := c'.pcs, cyc := c'.cyc, mh := c'.mh, ml := c'.ml, prods := c'.prods }

/-- Bits of PSW from bit n up are unchanged. -/
def PswFrom (n : Nat) (c c' : Core) : Prop := ∀ i, n ≤ i → c'.psw.getLsbD i = c.psw.getLsbD i

/-- An instruction writes r to Dd and leaves every other D register. -/
def Gives (i : Instr) (p : Fin 2) (s : State) (d : DReg) (r : Word) (flags : Core → Core → Prop) : Prop :=
  Runs i s fun t =>
    let c := bget s.cores p
    let c' := bget t.cores p
    c'.dreg d = r ∧ c'.pc = c.pc + 1 ∧ flags c c' ∧ (∀ k, k ≠ d → c'.dreg k = c.dreg k) ∧ OnlyD c c' ∧ OnlyCore p s t

/-- An instruction that writes no D register. -/
def Keeps (i : Instr) (p : Fin 2) (s : State) (flags : Core → Core → Prop) : Prop :=
  Runs i s fun t =>
    let c := bget s.cores p
    let c' := bget t.cores p
    c'.pc = c.pc + 1 ∧ flags c c' ∧ (∀ k, c'.dreg k = c.dreg k) ∧ OnlyD c c' ∧ OnlyCore p s t

/-- Of a pair nothing changes but A registers, SP, PC, and products that land. -/
def OnlyA (c c' : Core) : Prop :=
  c' = { c with a := c'.a, sp := c'.sp, readyA := c'.readyA, pc := c'.pc, pcs := c'.pcs, cyc := c'.cyc, mh := c'.mh, ml := c'.ml, prods := c'.prods }

/-- An instruction writes a to An, A0 to A7 or SP, and leaves every other one. -/
def GivesA (i : Instr) (p : Fin 2) (s : State) (n : AFld) (a : Addr) : Prop :=
  Runs i s fun t =>
    let c := bget s.cores p
    let c' := bget t.cores p
    c'.areg n = a ∧ c'.pc = c.pc + 1 ∧ (∀ k : AFld, k.val ≤ 8 → k ≠ n → c'.areg k = c.areg k) ∧ OnlyA c c' ∧ OnlyCore p s t

/-- Every flag is unchanged. -/
def NoFlags (c c' : Core) : Prop := c'.psw = c.psw

/-- Z and N are those of a result; the other bits of PSW are unchanged. -/
def FlagsZN (r : Word) (c c' : Core) : Prop := c'.psw.getLsbD 0 = (r == 0) ∧ c'.psw.getLsbD 1 = r.msb ∧ PswFrom 2 c c'

/-- Z, N, C and V; the other bits of PSW are unchanged. -/
def FlagsZNCV (r : Word) (carry ovf : Bool) (c c' : Core) : Prop :=
  c'.psw.getLsbD 0 = (r == 0) ∧ c'.psw.getLsbD 1 = r.msb ∧ c'.psw.getLsbD 2 = carry ∧ c'.psw.getLsbD 3 = ovf ∧ PswFrom 4 c c'

/-- Z and N of a result, SV set by a saturation and never cleared; C, V and the other bits of PSW are unchanged. -/
def FlagsSat (r : Word) (sat : Bool) (c c' : Core) : Prop :=
  c'.psw.getLsbD 0 = (r == 0) ∧ c'.psw.getLsbD 1 = r.msb ∧ c'.psw.getLsbD 2 = c.psw.getLsbD 2 ∧ c'.psw.getLsbD 3 = c.psw.getLsbD 3 ∧
    c'.psw.getLsbD 4 = (c.psw.getLsbD 4 || sat) ∧ PswFrom 5 c c'

/-- Of a pair nothing changes but the accumulators, PSW, PC, and products that land. -/
def OnlyAc (c c' : Core) : Prop :=
  c' = { c with ac := c'.ac, psw := c'.psw, pc := c'.pc, pcs := c'.pcs, cyc := c'.cyc, mh := c'.mh, ml := c'.ml, prods := c'.prods }

/-- Of a pair nothing changes but its return stack, PSW, PC, RUN and products that land. -/
def OnlyFlow (c c' : Core) : Prop :=
  c' = { c with rs := c'.rs, psw := c'.psw, run := c'.run, pc := c'.pc, pcs := c'.pcs, cyc := c'.cyc, mh := c'.mh, ml := c'.ml, prods := c'.prods }

/-- SV is set by a saturation and never cleared; every other bit of PSW is unchanged. -/
def FlagsSV (sat : Bool) (c c' : Core) : Prop := ∀ i, c'.psw.getLsbD i = if i = 4 then c.psw.getLsbD 4 || sat else c.psw.getLsbD i

/-- A return-stack entry (R305): I, PSW and the return address. -/
def IsEntry (e : Word) (i : Bool) (psw : BitVec 11) (ret : Addr) : Prop :=
  e.getLsbD 35 = i ∧ e.extractLsb' 24 11 = psw ∧ e.extractLsb' 0 24 = ret

/-- The instruction cache of a pair holds word w as vector v. -/
def State.HasVector (s : State) (p : Fin 2) (v : Nat) (w : Word) : Prop :=
  let a := ((bget s.cores p).vbase + BitVec.ofNat 24 v).toNat
  ∃ x, (bget s.cores p).icache.find? (fun x => x.line = a / 8) = some x ∧ x.words[a % 8]? = some w

/-- A handler is entered from `c` (R319, R320): PC is bits 23 to 0 of the vector word, an entry with I = 1 is pushed. -/
def EntersAt (c c' : Core) (w : Word) (ret : Addr) : Prop :=
  c'.pc = w.extractLsb' 0 24 ∧ ∃ e, c'.rs = e :: c.rs ∧ IsEntry e true c.psw ret

/-- Exception v is taken (R320): IE is cleared, the rest of PSW kept, ECAUSE holds v and a TRAP number, EADDR the data address of exceptions 2,
3 and 7, and nothing of the pair changes but these, PC, and the multiplier. -/
def Excepts (c c' : Core) (w : Word) (v n : Nat) (ret : Addr) (ea : Addr) : Prop :=
  EntersAt c c' w ret ∧ c'.ecause = BitVec.ofNat 16 (n * 256 + v) ∧ c'.eaddr = ea ∧
    (∀ i, c'.psw.getLsbD i = if i = 5 then false else c.psw.getLsbD i) ∧
    c' = { c with rs := c'.rs, pc := c'.pc, pcs := c'.pcs, psw := c'.psw, ecause := c'.ecause, eaddr := c'.eaddr, cyc := c'.cyc, mh := c'.mh, ml := c'.ml, prods := c'.prods }

/-- A block's report is the last on its way to the collector, with the stamp of now. -/
def Reports (s t : State) (blk kind : Nat) : Prop :=
  t.flt.inflight = s.flt.inflight ++ [{ src := blk * 32 + kind, stamp := s.stamp, wrapped := none }]

/-! Lyssouf-18 -/

/-- An activation runs on sequencer n, outside a delay slot, with at least k cycles left (R332). -/
def State.LysReady (s : State) (n : Fin 16) (a : SeqAct) (k : Nat) : Prop :=
  (s.seq n).act = some a ∧ s.up 3 = true ∧ (s.seq n).merr = false ∧ a.branch = none ∧ a.cycles + k ≤ (s.slot n a.slot).c

/-- Nothing changes but one sequencer. -/
def OnlySeq (n : Fin 16) (s t : State) : Prop := t = { s with seqs := t.seqs } ∧ ∀ m, m ≠ n → t.seq m = s.seq m

/-- The activation goes on after k cycles at the next half. -/
def Steps (a : SeqAct) (k : Nat) (q q' : Seq) : Prop :=
  q'.pc = q.pc + 1 ∧ q'.act = some { a with cycles := a.cycles + k }

/-- An instruction of one cycle gives r to Sd, with its flags, and leaves every other register and the rest of the machine. -/
def LysGives (i : Instr) (n : Fin 16) (a : SeqAct) (s : State) (d : SReg) (r : Half) (flags : Seq → Seq → Prop) : Prop :=
  Runs i s fun t =>
    let q := s.seq n
    let q' := t.seq n
    bget q'.regs d = r ∧ (∀ k, k ≠ d → bget q'.regs k = bget q.regs k) ∧ flags q q' ∧ Steps a 1 q q' ∧
      q' = { q with regs := q'.regs, z := q'.z, n := q'.n, c := q'.c, v := q'.v, pc := q'.pc, act := q'.act } ∧ OnlySeq n s t

/-- An instruction of one cycle that writes no register. -/
def LysKeeps (i : Instr) (n : Fin 16) (a : SeqAct) (s : State) (flags : Seq → Seq → Prop) : Prop :=
  Runs i s fun t =>
    let q := s.seq n
    let q' := t.seq n
    q'.regs = q.regs ∧ flags q q' ∧ Steps a 1 q q' ∧
      q' = { q with z := q'.z, n := q'.n, c := q'.c, v := q'.v, pc := q'.pc, act := q'.act } ∧ OnlySeq n s t

def LysNoFlags (q q' : Seq) : Prop := q'.z = q.z ∧ q'.n = q.n ∧ q'.c = q.c ∧ q'.v = q.v
def LysZN (r : Half) (q q' : Seq) : Prop := q'.z = (r == 0) ∧ q'.n = r.msb ∧ q'.c = q.c ∧ q'.v = q.v
def LysZNCV (r : Half) (cy ov : Bool) (_q q' : Seq) : Prop := q'.z = (r == 0) ∧ q'.n = r.msb ∧ q'.c = cy ∧ q'.v = ov

/-! Blocks with loads -/

/-- A report of block blk goes to the collector with the stamp of the state reached. -/
def ReportsNow (s t : State) (blk kind : Nat) : Prop :=
  t.flt.inflight = s.flt.inflight ++ [{ src := blk * 32 + kind, stamp := t.stamp, wrapped := none }]

/-- An instant that lies ahead, or is now. -/
def State.Ahead (s : State) (e : Nat) : Prop := s.now ≤ e ∧ e < 2 ^ 72

/-- Memory, the pairs, the object server, the fabric and the domains are unchanged. -/
def Apart (s t : State) : Prop := t.mem = s.mem ∧ t.cores = s.cores ∧ t.srv = s.srv ∧ t.fab = s.fab ∧ t.dom = s.dom

/-- A charge fits the supply, its group and the module as they are derated now (R99, R475, R476). -/
def State.Fits (s : State) (c : Charge) : Prop :=
  let l := s.ledger (setCharge s.adm.charges c)
  supplyFits s l = true ∧ (groupOf c.code < 13 → groupFits s (groupOf c.code) s.sup.gfact s.sup.mfact l = true) ∧
    moduleFits s s.sup.gfact s.sup.mfact l = true

/-- Nothing but its command state rules a load: no level rule, safe state, standby, shed, hold-off, INHIBIT or deferral (R99, R113). -/
def State.Unruled (s : State) (code : Nat) : Prop :=
  bget s.adm.level (tgtFin code) = none ∧ s.safeOf code = none ∧ s.duoHeld code = false ∧ s.isShed code = false ∧ s.heldOff = false ∧
    s.adm.inh.getLsbD code = false ∧ s.isDeferred code = false

/-- No more than one high-side channel and the ledger changes. -/
def OnlyHs (ch : Fin 72) (s t : State) : Prop := t = { s with hs := t.hs, adm := t.adm } ∧ ∀ k, k ≠ ch → bget t.hs k = bget s.hs k

/-- A command with a mask acts on the channels that it names one after the other, the lowest first (R124, R158, R201): it is the command for the
lowest, then the command for the rest. -/
def Ascending {n : Nat} (i : BitVec n → Instr) (s : State) : Prop :=
  ∀ (m : BitVec n) (c : Fin n), m.getLsbD c.val = true → (∀ k, k < c.val → m.getLsbD k = false) →
    ∃ u, exec (i (BitVec.ofNat n (2 ^ c.val))) s = .next u ∧ exec (i m) s = exec (i (m &&& ~~~BitVec.ofNat n (2 ^ c.val))) u

/-- A write of an object reaches its block: the server is free to serve it, the access is allowed, a protected object can be logged, and the block is
released (R53, R55, R59, R520, R570). -/
def State.Takes (s : State) (r : Requester) (idx sub : Nat) (v : Val) : Prop :=
  s.srvFree r = true ∧ ∃ f n row, s.writeCheck r idx sub v = .inl (f, n, row) ∧ famOf idx = some (f, n) ∧ s.served r f = true ∧
    s.reaches f n = true ∧ (row.prot = true → s.log.queue.length < 32)

/-- Written as an object, a command does what its word does, and is answered (R122, R157, R200); a pair's access first discards what it holds of
another (R69). -/
def AsObject (i : Via → Instr) (idx sub : Nat) (v : Val) (s : State) : Prop :=
  ∀ (r : Requester), s.Takes r idx sub v →
    ∃ u code, exec (i .word) (s.noteAccess r) = .next u ∧ exec (i (.object r)) s = .next (u.tell r code [])

/-- No more than one pair with its legs and the ledger changes. -/
def OnlyPair (k : Fin 8) (s t : State) : Prop :=
  t = { s with pairs := t.pairs, legs := t.legs, adm := t.adm } ∧ (∀ j, j ≠ k → bget t.pairs j = bget s.pairs j) ∧
    ∀ n : Fin 16, n.val / 2 ≠ k.val → bget t.legs n = bget s.legs n

/-! The object server -/

/-- A message for this node passes the screening and can be served at once: r is its requester, and u the state in which it is served (R55, R74, R75,
R78, R80 to R82). -/
def State.Hears (s : State) (h : ZopHdr) (svc : Nat) (data : List Byte) (r : Requester) (u : State) : Prop :=
  s.zopMedium h = true ∧ data.length ≤ zopMax h ∧ h.node = 0 ∧ s.upd.recov = false ∧ u.srvFree r = true ∧
    (h.trailer = none ∧ u = s ∧ (h.vouched = false ∧ r = openOf h ∨ h.vouched = true ∧ h.medium = .ring ∧ h.peer = 0 ∧ s.duo.casc ≠ 0 ∧ r = .master) ∨
      ∃ tr i x, h.trailer = some tr ∧ tr.sid.toNat = i.val + 1 ∧ bget s.srv.sess i = some x ∧ x.proven = true ∧ x.rx ≠ BitVec.allOnes 36 ∧
        x.tx ≠ BitVec.allOnes 36 ∧ s.macOk x tr h svc data = true ∧ x.rx < tr.fresh ∧ r = .session i ∧
        u = s.onSrv fun v => { v with sess := bset v.sess i (some { x with rx := tr.fresh, fails := 0, lastUse := s.now }) })

/-- The octets of a MAC, the first the most significant. -/
def macOcts (m : BitVec 64) : List Byte := (List.range 8).map fun k => m.extractLsb' (56 - 8 * k) 8

/-- A message leaves where its request came from: in a ring frame to its node, or among those that wait for a CAN channel (R75, R384). -/
def LeavesBy (u t : State) (h : ZopHdr) (octets : List Byte) : Prop :=
  match h.medium with
  | .ring => t.cans = u.cans ∧
    t.ring = { u.ring with txq := u.ring.txq ++ [{ cls := 4, bc := false, dst := Fin.ofNat 8 h.peer, words := packFrame octets }] }
  | .can ch => t.ring = u.ring ∧ (∀ k, k ≠ ch → bget t.cans k = bget u.cans k) ∧
    bget t.cans ch = { bget u.cans ch with zopq := (bget u.cans ch).zopq ++ [octets] }
  | .udp _ => t.ring = u.ring ∧ t.cans = u.cans

/-- A response to r, of a code and the octets of a success: its header echoes what the request names, a refusal carries code and detail; to a session it
carries the next FRESH and its MAC; between master and follower AUTH stands alone (R71 to R73, R80).  Nothing else changes. -/
def Replies (u t : State) (r : Requester) (h : ZopHdr) (svc : Nat) (c : Code) (octets : List Byte) : Prop :=
  let data := if c.1 = 0 then octets else [c.1, c.2.extractLsb 15 8, c.2.extractLsb 7 0]
  let head (auth : Nat) := zopHead svc ((if c.1 = 0 then 0x80 else 0xC0) + auth) h.node h.rqid h.index h.sub data.length
  t = { u with srv := { u.srv with answer := t.srv.answer, sess := t.srv.sess }, ring := t.ring, cans := t.cans } ∧
    ∃ a, t.srv.answer = some a ∧ a.dest = r ∧ a.rqid = h.rqid ∧ a.code = c.1 ∧ a.detail = c.2 ∧ LeavesBy u t h a.octets ∧
      a.data = (if c.1 = 0 then octets.map fun o => wd o.toNat else []) ∧
      match r with
      | .session i => ∀ x, bget u.srv.sess i = some x →
        let sid := BitVec.ofNat 8 (i.val + 1)
        a.authed = true ∧ a.fresh = satInc x.tx ∧ a.mac = u.zopMac x.slot sid 1 (head 0x20) data (satInc x.tx) ∧
          (∀ m, a.mac = some m → a.octets = head 0x20 ++ data ++ sid :: freshOcts (satInc x.tx) ++ macOcts m) ∧
          bget t.srv.sess i = some { x with tx := satInc x.tx } ∧ ∀ j, j ≠ i → bget t.srv.sess j = bget u.srv.sess j
      | .master => a.authed = false ∧ a.octets = head 0x20 ++ data ∧ t.srv.sess = u.srv.sess
      | _ => a.authed = false ∧ a.octets = head 0 ++ data ∧ t.srv.sess = u.srv.sess

/-- The segments of a read transfer that the window of 8 allows are sent (R77): those after the last one sent, each with its number and its words, behind
the header of a response to the BLOCK_START; they are kept until they are acknowledged (log 62). -/
def SendsSegs (now : Nat) (b c : Block) : Prop :=
  let k := segMax b.hdr
  let n := min (b.acked + 8 - b.sent) ((b.words.length + k - 1) / k - b.sent)
  let flags := match b.owner with | .session _ => 0xA0 | .master => 0xA0 | _ => 0x80
  let data (i : Nat) := numOcts ((b.sent + i) % 65536) 2 ++ segOctets ((b.words.drop (k * (b.sent + i))).take k)
  let head (i : Nat) := zopHead 9 flags b.hdr.node b.hdr.rqid b.hdr.index b.hdr.sub (data i).length
  c = { b with sent := b.sent + n, next := if n = 0 then b.next else BitVec.ofNat 16 (b.sent + n), out := c.out, last := if n = 0 then b.last else now } ∧
    c.out.length = b.out.length + n ∧ c.out.take b.out.length = b.out ∧
    ∀ i, i < n → ∃ o, c.out[b.out.length + i]? = some o ∧ (head i ++ data i) <+: o ∧ (b.owner = .openReq b.hdr.medium b.hdr.peer → o = head i ++ data i)

/-- Whatever waits for a boost switch is a valve of that bank whose activation is queued, or queued anew while its decay runs (R200, R204). -/
def State.ValvesLined (s : State) : Prop :=
  ∀ b m, m ∈ (bget s.vb b).queue → bankOf m = b ∧ ((bget s.vd m).stage = .queued ∨ ∃ z, (bget s.vd m).stage = .decay z)

/-! Power states -/

/-- A refusal of an entry or a round is recorded: `how` 0 local, 1 daisy, 2 commit (R432). -/
def Refuses (s t : State) (reason refuser how : Nat) : Prop :=
  let w := refuser * 65536 + reason
  t.pwr.lastref = wd w ∧ (∀ i : Fin 8, bget t.pwr.refcnt i = if i.val = 0 ∨ i.val = reason then satInc (bget s.pwr.refcnt i) else bget s.pwr.refcnt i) ∧
    t.pwr.reflog = ([wd (w + how * 256), t.stamp] ++ s.pwr.reflog).take 32 ∧ ({ src := 0x02 * 32, stamp := t.stamp, wrapped := none } : Report) ∈ t.flt.inflight

/-- An entry is refused: the device stays in RUN, REQ is cleared and a latched wake is discarded (R429, R431 to R433). -/
def RefusesEntry (s t : State) (reason blk : Nat) (how : Byte) : Prop :=
  Refuses s t reason blk how.toNat ∧ t.pwr.mode = .run ∧ t.pwr.req = 0 ∧ t.pwr.latched = none ∧ t.pwr.storing = false

/-- A daisy message leaves on media; on the ring it waits as a DAISY frame of its octet image (R413, R440). -/
def Sends (s t : State) (type : Byte) (m : DaisyMsg) (media : List DaisyMed) : Prop :=
  let image : List Byte := [type, m.gen, m.orig, m.nxt, BitVec.ofNat 8 (b1 m.ovr * 128 + m.excl.length), BitVec.ofNat 8 m.entries.length] ++ m.excl ++
    m.entries.flatMap fun e => [e.1, e.2]
  let frame : RingTx := { cls := 3, bc := true, dst := 0, words := packFrame image }
  t.pwr.sent = media.map (fun d => (type, d, m)) ∧
    t.ring = if DaisyMed.ring ∈ media ∧ s.up 5 = true then { s.ring with txq := s.ring.txq ++ [frame] } else s.ring

/-! The ring -/

/-- The frames that a window takes, in order: each that fits whole in what remains (R411, R412). -/
def ringTaken : Nat → List (Option (Fin 256) × RingTx) → List (Option (Fin 256) × RingTx)
  | _, [] => []
  | left, x :: r =>
    let c := 4 + 9 * (1 + (x.2.words.length + 2) / 2)
    if c ≤ left then x :: ringTaken (left - c) r else ringTaken left r

/-- What waits for the node's window: STATE frames, OBJ frames of admitted flows, DAISY, ZOP (R413). -/
def State.ringWaits (s : State) : List (Option (Fin 256) × RingTx) :=
  let of (c : BitVec 4) : List (Option (Fin 256) × RingTx) := (s.ring.txq.filter (·.cls == c)).map fun x => (none, x)
  of 2 ++ s.objFrames.map (fun x => (some x.1, x.2)) ++ of 3 ++ of 4

/-- The node's window of a train (R411 to R413, R417): the frames sent, and what is left of the queues. -/
def Window (s t : State) (win : Nat) : Prop :=
  let l := ringTaken win s.ringWaits
  let q (u : State) (n : Fin 256) := u.ring.objq.filter (·.1 == n)
  t.ring.sent.map (fun f => (f.cls, f.bc, f.dst, f.words)) = l.map (fun x => (x.2.cls, x.2.bc, x.2.dst, x.2.words)) ∧
  (∀ (i : Nat) (f : RingFrame), t.ring.sent[i]? = some f → f.src = s.duo.casc ∧ f.stamp = t.stamp ∧ f.lap = false ∧ f.eer = false ∧ f.crcOk = true ∧
    f.seq = bget s.ring.seqs (Fin.ofNat 16 f.cls.toNat) + BitVec.ofNat 11 ((t.ring.sent.take i).countP fun g => g.cls == f.cls)) ∧
  (∀ (i : Nat) (n : Fin 256) (x : RingTx), l[i]? = some (some n, x) → q t n = (q s n).drop x.words.length ∧
    ∀ f : RingFrame, t.ring.sent[i]? = some f → f.chan = Fin.ofNat 16 (epQueue (s.cfg (ctIdx n) 2))) ∧
  (∀ n, (∀ x, (some n, x) ∉ l) → q t n = q s n) ∧ ∀ x, t.ring.txq.count x = s.ring.txq.count x - l.count (none, x)

/-- Of the ring nothing changes by a window but what it sent, its queues and SEQ. -/
def Ring.windowed (r r' : Ring) : Ring := { r with sent := r'.sent, seqs := r'.seqs, objq := r'.objq, txq := r'.txq }

/-! Resets -/

/-- The device runs with every domain powered. -/
def State.Powered (s : State) : Prop := s.pwr.mode = .run ∧ ∀ d, (bget s.dom d).powered = true

/-- A reset source asserts (R512, R515 to R517, R520): the domains of its reach are held and their blocks stop, shadows open with its reference, other
domains and sources and memory stay, and a release sequence in progress starts afresh. -/
def Asserts (s t : State) (i : Fin 12) (reach : BitVec 7) (ref : BitVec 12) : Prop :=
  let fresh (d : Fin 7) : Prop := reach.getLsbD d.val = true ∧ s.inReset d = false
  (t.srcOf i).since = some t.now ∧ (t.srcOf i).reach = reach ∧ (t.srcOf i).ref = ref ∧ (∀ j, j ≠ i → t.srcOf j = s.srcOf j) ∧
  bget t.rst.srcCnt i = satInc (bget s.rst.srcCnt i) ∧ t.rst.relAt = none ∧ t.mem = s.mem ∧
  (∀ d : Fin 7, (reach.getLsbD d.val = true → t.inReset d = true ∧ (bget t.rst.domSrc d).getLsbD i.val = true) ∧ (reach.getLsbD d.val = false → bget t.dom d = bget s.dom d)) ∧
  (reach.getLsbD 1 = false → s.up 1 = true →
    (∀ b d, blockDom b = some d → reach.getLsbD d.val = true → ∃ x ∈ t.flt.shadows, x.blk = b ∧ x.ends = none) ∧ ∀ x ∈ t.flt.shadows, x ∈ s.flt.shadows ∨ x.ref = ref) ∧
  (fresh 2 → t.srv.staged = [] ∧ (∀ k, bget t.srv.sess k = none) ∧ t.fab.subq = [] ∧ ∀ k, (bget t.fab.tags k).tx = none) ∧
  (fresh 3 → ∀ n, (t.seq n).act = none) ∧ (fresh 5 → t.ring.byp = true) ∧ (fresh 6 → ∀ p, (bget t.cores p).run = .reset) ∧
  (fresh 4 → ∀ ch : Fin 72, s.cfg (hsIdx ch) 0x13 = 0 → bget s.adm.level (tgtFin ch.val) = none → (bget s.hs ch).lcause = 0 →
    (bget t.hs ch).act = .off ∧ (bget t.hs ch).out = false) ∧
  (fresh 1 → ∀ ch, bget t.hs ch = HsChannel.reset)

/-- A reset source releases (R512, R516): the release sequence begins when no source of a domain is left asserted. -/
def Releases (s t : State) (i : Fin 12) : Prop :=
  (t.srcOf i).since = none ∧ (∀ j, j ≠ i → t.srcOf j = s.srcOf j) ∧ t.dom = s.dom ∧ t.mem = s.mem ∧ t.cores = s.cores ∧ t.srv = s.srv ∧ t.hs = s.hs ∧
  ((∀ j : Fin 12, j.val < 10 → j ≠ i → s.asserted j = false) → s.heldMask ≠ 0 → s.rst.relAt = none → t.rst.relAt = some t.now) ∧
  ((∃ j : Fin 12, j.val < 10 ∧ j ≠ i ∧ s.asserted j = true) → t.rst.relAt = s.rst.relAt)

/-- A report of block blk is on its way with the stamp of the state reached. -/
def Raised (t : State) (blk kind : Nat) : Prop := ({ src := blk * 32 + kind, stamp := t.stamp, wrapped := none } : Report) ∈ t.flt.inflight

end Sys2Proof.Machine
end

