-- ==== Sys2Proof/Certificates/Slice0/Obligations.lean ====
section
/-!
DEFINITION. Statements for the provers.
-/
open Sys2Proof Sys2Proof.Machine

/-- One step runs the command at the front of the queue on the state with the queue's rest. -/
def Obligations.StepRunsFront : Prop :=
  ∀ (c : Instr) (r : List Instr) (s : State), s.pending = c :: r → step s = exec c { s with pending := r }

/-- R313: additions and subtractions with their flags (R301, R303).  R303, R313: compares write no register. -/
def Obligations.AddSubCompare : Prop :=
  (∀ (p : Fin 2) (d a b : DReg) (imm : BitVec 22) (s : State), s.Ready p →
     let x := (bget s.cores p).dreg a
     let y := (bget s.cores p).dreg b
     let w : Word := imm.signExtend 36
     Gives (.mov p d a) p s d x NoFlags ∧
     Gives (.movi p d imm) p s d w NoFlags ∧
     Gives (.add p d a b) p s d (x + y) (FlagsZNCV (x + y) (decide (2 ^ 36 ≤ x.toNat + y.toNat)) (decide (x.toInt + y.toInt ≠ (x + y).toInt))) ∧
     Gives (.addi p d a imm) p s d (x + w) (FlagsZNCV (x + w) (decide (2 ^ 36 ≤ x.toNat + w.toNat)) (decide (x.toInt + w.toInt ≠ (x + w).toInt))) ∧
     Gives (.sub p d a b) p s d (x - y) (FlagsZNCV (x - y) (decide (x < y)) (decide (x.toInt - y.toInt ≠ (x - y).toInt))) ∧
     Gives (.neg p d a) p s d (-x) (FlagsZNCV (-x) (decide (x ≠ 0)) (decide (x = 0x800000000)))) ∧
  (∀ (p : Fin 2) (a b : DReg) (imm : BitVec 22) (aa ab : AFld) (s : State), s.Ready p →
     let c := bget s.cores p
     let x := c.dreg a
     let y := c.dreg b
     let w : Word := imm.signExtend 36
     Keeps (.cmp p a b) p s (FlagsZNCV (x - y) (decide (x < y)) (decide (x.toInt - y.toInt ≠ (x - y).toInt))) ∧
     Keeps (.cmpi p a imm) p s (FlagsZNCV (x - w) (decide (x < w)) (decide (x.toInt - w.toInt ≠ (x - w).toInt))) ∧
     (aa.val ≤ 8 → ab.val ≤ 8 →
       Keeps (.cmpa p aa ab) p s fun k k' =>
         k'.psw.getLsbD 0 = (c.areg aa == c.areg ab) ∧ k'.psw.getLsbD 1 = false ∧ k'.psw.getLsbD 2 = decide (c.areg aa < c.areg ab) ∧
           k'.psw.getLsbD 3 = false ∧ PswFrom 4 k k'))

/-- The S36 range: the nearest word to an exact value. -/
def nearest36 (x : Int) : Int := max (-(2 ^ 35)) (min x (2 ^ 35 - 1))

/-- R303, R313: saturating sums, minimum, maximum and leading zeros; CLZ by R303 also sets N (log 73).  R312, R313: a field of WID bits at POS is inserted or extracted; lane L, from the left, of BPERM is lane SEL [7 − 2L : 6 − 2L]. -/
def Obligations.MinMaxAndFields : Prop :=
  (∀ (p : Fin 2) (d a b : DReg) (s : State), s.Ready p →
     let x := (bget s.cores p).dreg a
     let y := (bget s.cores p).dreg b
     let sum := x.toInt + y.toInt
     let dif := x.toInt - y.toInt
     let small := if x.toInt ≤ y.toInt then x else y
     let large := if x.toInt ≤ y.toInt then y else x
     (∃ r : Word, r.toInt = nearest36 sum ∧ Gives (.adds p d a b) p s d r (FlagsSat r (decide (nearest36 sum ≠ sum)))) ∧
     (∃ r : Word, r.toInt = nearest36 dif ∧ Gives (.subs p d a b) p s d r (FlagsSat r (decide (nearest36 dif ≠ dif)))) ∧
     Gives (.min p d a b) p s d small (FlagsZN small) ∧
     Gives (.max p d a b) p s d large (FlagsZN large) ∧
     (∀ n, n ≤ 36 → (∀ i, 36 - n ≤ i → x.getLsbD i = false) → (n < 36 → x.getLsbD (35 - n) = true) →
       Gives (.clz p d a) p s d (BitVec.ofNat 36 n) (FlagsZN (BitVec.ofNat 36 n)))) ∧
  (∀ (p : Fin 2) (d a : DReg) (pos wid : Fin 64) (sg : Bool) (sel : Byte) (s : State), s.Ready p →
     let x := (bget s.cores p).dreg a
     let old := (bget s.cores p).dreg d
     (1 ≤ wid.val → pos.val + wid.val ≤ 36 →
       (∃ r : Word, (∀ i, i < 36 → r.getLsbD i = if pos.val ≤ i ∧ i < pos.val + wid.val then x.getLsbD (i - pos.val) else old.getLsbD i) ∧
         Gives (.bfi p d a pos wid) p s d r NoFlags) ∧
       (∃ r : Word, (∀ i, i < 36 → r.getLsbD i = if i < wid.val then x.getLsbD (pos.val + i) else sg && x.getLsbD (pos.val + wid.val - 1)) ∧
         Gives (.bfx p d a pos wid sg) p s d r NoFlags)) ∧
     (∃ r : Word, (∀ l, l < 4 → r.extractLsb' (27 - 9 * l) 9 = x.extractLsb' (27 - 9 * (sel.extractLsb' (6 - 2 * l) 2).toNat) 9) ∧
       Gives (.bperm p d a sel) p s d r NoFlags))

/-- R303, R313: logic sets Z and N; MOVHI keeps bits 17 to 0 and every flag.  R313: shifts by Db [5:0] or IMM [5:0]; at 36 or more SHL and SHR give 0 and SAR gives copies of bit 35. -/
def Obligations.LogicAndShift : Prop :=
  (∀ (p : Fin 2) (d a b : DReg) (imm : BitVec 22) (hi : BitVec 18) (s : State), s.Ready p →
     let x := (bget s.cores p).dreg a
     let y := (bget s.cores p).dreg b
     let w : Word := imm.zeroExtend 36
     Gives (.and p d a b) p s d (x &&& y) (FlagsZN (x &&& y)) ∧
     Gives (.or p d a b) p s d (x ||| y) (FlagsZN (x ||| y)) ∧
     Gives (.xor p d a b) p s d (x ^^^ y) (FlagsZN (x ^^^ y)) ∧
     Gives (.andn p d a b) p s d (x &&& ~~~y) (FlagsZN (x &&& ~~~y)) ∧
     Gives (.andi p d a imm) p s d (x &&& w) (FlagsZN (x &&& w)) ∧
     Gives (.ori p d a imm) p s d (x ||| w) (FlagsZN (x ||| w)) ∧
     Gives (.xori p d a imm) p s d (x ^^^ w) (FlagsZN (x ^^^ w)) ∧
     (∃ r : Word, r.extractLsb' 18 18 = hi ∧ r.extractLsb' 0 18 = ((bget s.cores p).dreg d).extractLsb' 0 18 ∧ Gives (.movhi p d hi) p s d r NoFlags)) ∧
  (∀ (p : Fin 2) (d a b : DReg) (sh : Fin 64) (s : State), s.Ready p →
     let x := (bget s.cores p).dreg a
     let n := ((bget s.cores p).dreg b).toNat % 64
     let left (k : Nat) : Word := BitVec.ofNat 36 (x.toNat * 2 ^ k)
     let right (k : Nat) : Word := BitVec.ofNat 36 (x.toNat / 2 ^ k)
     let arith (k : Nat) : Word := BitVec.ofInt 36 (x.toInt / 2 ^ k)
     Gives (.shl p d a b) p s d (left n) (FlagsZN (left n)) ∧
     Gives (.shr p d a b) p s d (right n) (FlagsZN (right n)) ∧
     Gives (.sar p d a b) p s d (arith n) (FlagsZN (arith n)) ∧
     Gives (.shli p d a sh) p s d (left sh.val) (FlagsZN (left sh.val)) ∧
     Gives (.shri p d a sh) p s d (right sh.val) (FlagsZN (right sh.val)) ∧
     Gives (.sari p d a sh) p s d (arith sh.val) (FlagsZN (arith sh.val)) ∧
     left 36 = 0 ∧ right 36 = 0 ∧ arith 36 = (if x.getLsbD 35 then BitVec.allOnes 36 else 0))

/-- R300, R311: address arithmetic is modulo 2^24; a field of 8 names SP; MOVA takes bits 23 to 0, MOVD extends with zeros. -/
def Obligations.AddressRegisters : Prop :=
  ∀ (p : Fin 2) (n m : AFld) (ab : ABase) (off : BitVec 23) (d b : DReg) (s : State), s.Ready p → n.val ≤ 8 → m.val ≤ 8 →
    let c := bget s.cores p
    GivesA (.lea p n ab off) p s n (BitVec.ofInt 24 ((bget c.a ab).toNat + off.toInt)) ∧
    GivesA (.addar p n m b) p s n (BitVec.ofNat 24 ((c.areg m).toNat + (c.dreg b).toNat)) ∧
    GivesA (.mova p n b) p s n ((c.dreg b).extractLsb' 0 24) ∧
    Gives (.movd p d m) p s d (BitVec.ofNat 36 (c.areg m).toNat) NoFlags

/-- R308, R310: a product lands at the end of the second cycle after its issue; an accumulator takes the product that has landed at its issue,
saturated to 80 bits; ACR rounds, ACW shifts left. -/
def Obligations.Multiply : Prop :=
  ∀ (p : Fin 2) (d a b : DReg) (n : Fin 2) (sh : Fin 64) (s : State), s.Ready p →
    let c := bget s.cores p
    let x := c.dreg a
    let y := c.dreg b
    let acc := (bget c.ac n).toInt
    let clamp (v : Int) : Int := max (-(2 ^ 79)) (min v (2 ^ 79 - 1))
    let adds (i : Instr) (v : Int) : Prop := Runs i s fun t =>
      let c' := bget t.cores p
      (bget c'.ac n).toInt = clamp v ∧ (∀ m, m ≠ n → bget c'.ac m = bget c.ac m) ∧ FlagsSV (decide (clamp v ≠ v)) c c' ∧ c'.pc = c.pc + 1 ∧
        OnlyAc c c' ∧ OnlyCore p s t
    let starts (i : Instr) (v : BitVec 72) : Prop := Runs i s fun t =>
      let c' := bget t.cores p
      c'.prods.getLast? = some { value := v, lands := c'.cyc + 1 } ∧ c'.psw = c.psw ∧ c'.pc = c.pc + 1 ∧ OnlyAc c c' ∧ c'.ac = c.ac ∧ OnlyCore p s t
    let rounded (k : Nat) : Int := (acc + if k = 0 then 0 else 2 ^ (k - 1)) / 2 ^ k
    starts (.mul p a b) (BitVec.ofInt 72 (x.toInt * y.toInt)) ∧
    starts (.mulu p a b) (BitVec.ofNat 72 (x.toNat * y.toNat)) ∧
    (∀ v l, c.prods = [{ value := v, lands := l }] →
      let seen : BitVec 72 := if l < s.cycleOf p then v else c.mh ++ c.ml
      adds (.mac p n) (acc + seen.toInt) ∧ adds (.msu p n) (acc - seen.toInt) ∧
      Runs (.productLands p) s fun t =>
        let c' := bget t.cores p
        c'.mh ++ c'.ml = v ∧ c'.prods = [] ∧ c' = { c with mh := c'.mh, ml := c'.ml, prods := [], cyc := c'.cyc } ∧ OnlyCore p s t) ∧
    adds (.acclr p n) 0 ∧
    adds (.acw p n a sh) (x.toInt * 2 ^ sh.val) ∧
    (∃ r : Word, r.toInt = nearest36 (rounded sh.val) ∧ Gives (.acr p d n sh) p s d r (FlagsSV (decide (nearest36 (rounded sh.val) ≠ rounded sh.val))))

/-- A word of the data cache is written: its line is dirty, the other words of it stay, memory does not see it (R296). -/
def StoresInCache (p : Fin 2) (s t : State) (a : Addr) (x : CacheLine) (w : Word) : Prop :=
  (∃ y, (bget t.cores p).dline a.toNat = some y ∧ y.dirty = true ∧ y.words[a.toNat % 8]? = some w ∧
    ∀ i, i ≠ a.toNat % 8 → y.words[i]? = x.words[i]?) ∧ OnlyCore p s t

/-- R296, R299, R304, R313: loads and stores of main SRAM that hit the data cache.  The result of a load is usable two cycles after issue.  R29, R296: LED frame memory is uncached; a load reads memory, a store writes its word and no other.  R297, R313: CWB writes a dirty line back and keeps it, CINV drops a line with its dirty words, CINVI empties the instruction cache. -/
def Obligations.DataAccess : Prop :=
  ((∀ (p : Fin 2) (d : DReg) (n : AFld) (ab : ABase) (off : BitVec 23) (x : CacheLine) (s : State), s.Ready p → s.up 2 = true → n.val ≤ 8 →
      let c := bget s.cores p
      let hit (a : Addr) : Prop := s.guarded a = false ∧ 0x800000 ≤ a.toNat ∧ a.toNat < 0x860000 ∧ c.dline a.toNat = some x
      let a := c.place ab off
      let word (a : Addr) : Word := x.words.toList.getD (a.toNat % 8) 0
      (hit a →
        Gives (.ld p d ab off .good) p s d (word a) NoFlags ∧
        (Runs (.ld p d ab off .good) s fun t => bget (bget t.cores p).readyD d = (bget t.cores p).cyc + 1) ∧
        GivesA (.lda p n ab off .good) p s n ((word a).extractLsb' 0 24) ∧
        (Runs (.st p d ab off .good) s fun t => StoresInCache p s t a x (c.dreg d) ∧ (bget t.cores p).pc = c.pc + 1 ∧ (bget t.cores p).sp = c.sp) ∧
        (Runs (.sta p n ab off .good) s fun t =>
          StoresInCache p s t a x ((c.areg n).zeroExtend 36) ∧ (bget t.cores p).pc = c.pc + 1 ∧ (bget t.cores p).sp = c.sp)) ∧
      (hit c.sp → Runs (.push p d .good) s fun t =>
        StoresInCache p s t c.sp x (c.dreg d) ∧ (bget t.cores p).sp = c.sp + 1 ∧ (bget t.cores p).pc = c.pc + 1) ∧
      (hit (c.sp - 1) → Runs (.pop p d .good) s fun t =>
        (bget t.cores p).dreg d = word (c.sp - 1) ∧ (bget t.cores p).sp = c.sp - 1 ∧ (bget t.cores p).pc = c.pc + 1 ∧
          (∀ k, k ≠ d → (bget t.cores p).dreg k = c.dreg k) ∧ OnlyCore p s t)) ∧
   (∀ (p : Fin 2) (d : DReg) (ab : ABase) (off : BitVec 23) (s : State), s.Ready p → s.up 2 = true → s.closed 0x41 = false → Memory.wf s.mem = true →
      let c := bget s.cores p
      let a := c.place ab off
      s.guarded a = false → 0x870000 ≤ a.toNat → a.toNat < 0x878000 →
        Gives (.ld p d ab off .good) p s d (memRead s.mem a.toNat) NoFlags ∧
        (Runs (.st p d ab off .good) s fun t =>
          memRead t.mem a.toNat = c.dreg d ∧ (∀ b, b ≠ a.toNat → memRead t.mem b = memRead s.mem b) ∧
            t = { s with cores := t.cores, mem := t.mem } ∧ (∀ q, q ≠ p → bget t.cores q = bget s.cores q) ∧ OnlyD c (bget t.cores p) ∧
            (∀ k, (bget t.cores p).dreg k = c.dreg k) ∧ (bget t.cores p).psw = c.psw ∧ (bget t.cores p).pc = c.pc + 1))) ∧
  (∀ (p : Fin 2) (ab : ABase) (off : BitVec 23) (x : CacheLine) (s : State), s.Ready p → s.closed 0x08 = false → Memory.wf s.mem = true →
     let c := bget s.cores p
     let a := c.place ab off
     let base := a.toNat / 8 * 8
     (s.guarded a = false → 0x800000 ≤ a.toNat → a.toNat < 0x860000 → c.dline a.toNat = some x →
       (x.dirty = true → Runs (.cwb p ab off .good) s fun t =>
         (∀ i, i < 8 → memRead t.mem (base + i) = x.words.toList.getD i 0) ∧
           (∀ b, (b < base ∨ base + 8 ≤ b) → memRead t.mem b = memRead s.mem b) ∧
           (bget t.cores p).dline a.toNat = some { x with dirty := false } ∧ t = { s with cores := t.cores, mem := t.mem } ∧
           (bget t.cores p).pc = c.pc + 1) ∧
       (Runs (.cinv p ab off .good) s fun t => (bget t.cores p).dline a.toNat = none ∧ (bget t.cores p).pc = c.pc + 1 ∧ OnlyCore p s t)) ∧
     (Runs (.cinvi p) s fun t => (bget t.cores p).icache = [] ∧ (bget t.cores p).pc = c.pc + 1 ∧
       s.cycleOf p + 520 ≤ (bget t.cores p).cyc ∧ OnlyCore p s t))

/-- R305, R312, R313: branches, calls and returns within the 32 entries that a pair holds. -/
def Obligations.Flow : Prop :=
  ∀ (p : Fin 2) (cond : Fin 16) (rel : BitVec 24) (ab : ABase) (s : State), s.Ready p →
    let c := bget s.cores p
    let z := c.psw.getLsbD 0
    let n := c.psw.getLsbD 1
    let cy := c.psw.getLsbD 2
    let v := c.psw.getLsbD 3
    let sv := c.psw.getLsbD 4
    let taken := [true, z, !z, n != v, n == v, !z && n == v, z || n != v, cy, !cy, !cy && !z, cy || z, n, !n, v, !v, sv].getD cond.val false
    let goes (i : Instr) (a : Addr) (post : Core → Prop) : Prop := Runs i s fun t =>
      (bget t.cores p).pc = a ∧ post (bget t.cores p) ∧ OnlyFlow c (bget t.cores p) ∧ OnlyCore p s t
    let same (c' : Core) : Prop := c'.psw = c.psw ∧ c'.rs = c.rs ∧ c'.run = c.run
    let pushed (c' : Core) : Prop := c'.psw = c.psw ∧ c'.run = c.run ∧ ∃ e, c'.rs = e :: c.rs ∧ IsEntry e false c.psw (c.pc + 1)
    goes (.b p cond rel) (if taken then c.pc + rel else c.pc + 1) same ∧
    goes (.nop p) (c.pc + 1) same ∧
    goes (.jmpr p ab) (bget c.a ab) same ∧
    (c.rs.length < 32 →
      goes (.call p rel) (c.pc + rel) pushed ∧ goes (.callr p ab) (bget c.a ab) pushed) ∧
    (∀ w r, c.rs = w :: r →
      goes (.ret p) (w.extractLsb' 0 24) (fun c' => c'.psw = c.psw ∧ c'.rs = r ∧ c'.run = c.run) ∧
      goes (.rti p) (w.extractLsb' 0 24) (fun c' => c'.psw = w.extractLsb' 24 11 ∧ c'.rs = r ∧ c'.run = c.run)) ∧
    goes (.ei p) (c.pc + 1) (fun c' => (∀ i, c'.psw.getLsbD i = if i = 5 then true else c.psw.getLsbD i) ∧ c'.rs = c.rs ∧ c'.run = c.run) ∧
    goes (.di p) (c.pc + 1) (fun c' => (∀ i, c'.psw.getLsbD i = if i = 5 then false else c.psw.getLsbD i) ∧ c'.rs = c.rs ∧ c'.run = c.run) ∧
    goes (.wait p) (c.pc + 1) (fun c' => c'.psw = c.psw ∧ c'.rs = c.rs ∧ c'.run = .waiting)

/-- R305, R307: a push that finds 32 entries writes the eight oldest to the spill region at SSP, the oldest lowest (log 63), and adds 8 to SSP.  R306: a data access inside a spill region is not issued; exception 2 is raised with the address in EADDR, and kind 4. -/
def Obligations.Spill : Prop :=
  (∀ (p : Fin 2) (rel : BitVec 24) (s : State), s.Ready p → s.closed 0x08 = false → Memory.wf s.mem = true →
     let c := bget s.cores p
     c.rs.length = 32 → 0x800000 ≤ c.ssp.toNat → c.ssp.toNat % 8 = 0 → c.ssp.toNat + 24 ≤ c.rshi.toNat + 1 → c.rshi.toNat < 0x860000 →
       Runs (.call p rel) s fun t =>
         let c' := bget t.cores p
         c'.pc = c.pc + rel ∧ c'.ssp = c.ssp + 8 ∧ (∃ e, c'.rs = e :: c.rs.take 24 ∧ IsEntry e false c.psw (c.pc + 1)) ∧
           (∀ i, i < 8 → memRead t.mem (c.ssp.toNat + i) = c.rs.getD (31 - i) 0) ∧
           (∀ b, (b < c.ssp.toNat ∨ c.ssp.toNat + 8 ≤ b) → memRead t.mem b = memRead s.mem b)) ∧
  (∀ (p : Fin 2) (d : DReg) (ab : ABase) (off : BitVec 23) (e : Ecc) (w : Word) (s : State), s.Ready p →
     let c := bget s.cores p
     let a := c.place ab off
     c.rs.length < 32 → s.HasVector p 2 w →
       let stopped (i : Instr) (a : Addr) : Prop := Runs i s fun t =>
         Excepts c (bget t.cores p) w 2 0 c.pc a ∧ Reports s t (0x0B + p.val) 4 ∧ t = { s with cores := t.cores, flt := t.flt }
       (s.guarded a = true →
         stopped (.ld p d ab off e) a ∧ stopped (.st p d ab off e) a ∧ stopped (.cwb p ab off e) a ∧ stopped (.cinv p ab off e) a) ∧
       (s.guarded c.sp = true → stopped (.push p d e) c.sp) ∧ (s.guarded (c.sp - 1) = true → stopped (.pop p d e) (c.sp - 1)))

/-- R320: TRAP, BKPT with no debug attached and illegal instructions take their exceptions; R312: fields that make an instruction illegal. -/
def Obligations.Exceptions : Prop :=
  ∀ (p : Fin 2) (n : Byte) (w : Word) (s : State), s.Ready p →
    let c := bget s.cores p
    c.rs.length < 32 →
      (s.HasVector p 8 w → Runs (.trap p n) s fun t => Excepts c (bget t.cores p) w 8 n.toNat (c.pc + 1) c.eaddr ∧ OnlyCore p s t) ∧
      (s.HasVector p 9 w → s.dbgAttached = false →
        Runs (.bkpt p) s fun t => Excepts c (bget t.cores p) w 9 0 (c.pc + 1) c.eaddr ∧ OnlyCore p s t) ∧
      (s.dbgAttached = true → Runs (.bkpt p) s fun t => (bget t.cores p).run = .halted ∧ (bget t.cores p).pc = c.pc + 1) ∧
      (s.HasVector p 1 w →
        let illegal (i : Instr) : Prop := Runs i s fun t =>
          Excepts c (bget t.cores p) w 1 0 c.pc c.eaddr ∧ Reports s t (0x0B + p.val) 6 ∧ t = { s with cores := t.cores, flt := t.flt }
        (∀ x : Word, fld x 35 30 ∈ [0x0B, 0x0F, 0x12, 0x13, 0x1A, 0x1B, 0x1F, 0x23, 0x25, 0x27, 0x2B, 0x30, 0x3F] → illegal (.illegalInstruction p x)) ∧
        (∀ (k m : AFld) (ab : ABase) (off : BitVec 23) (b : DReg) (e : Ecc), 9 ≤ k.val →
          illegal (.lea p k ab off) ∧ illegal (.addar p k m b) ∧ illegal (.addar p m k b) ∧ illegal (.mova p k b) ∧ illegal (.movd p b k) ∧
            illegal (.cmpa p k m) ∧ illegal (.cmpa p m k) ∧ illegal (.lda p k ab off e) ∧ illegal (.sta p k ab off e)) ∧
        (∀ (d a : DReg) (pos wid : Fin 64) (sg : Bool), (wid.val = 0 ∨ 36 < pos.val + wid.val) →
          illegal (.bfi p d a pos wid) ∧ illegal (.bfx p d a pos wid sg)) ∧
        (∀ (d : DReg) (sr : Fin 64), sr.val ∈ [0x0E, 0x0F, 0x18, 0x3F] → illegal (.mfs p d sr)) ∧
        (∀ (d : DReg) (sr : Fin 64), sr.val ∈ [0x03, 0x07, 0x08, 0x09, 0x0C, 0x0D, 0x18] → illegal (.mts p sr d)) ∧
        (∀ (d : DReg) (sr : Fin 64), sr.val = 0x04 ∨ sr.val = 0x05 → c.rslock = true → illegal (.mts p sr d)))

/-- R319: the takeable source of the highest level, the lowest number among equals, is entered; an edge source is cleared.  R302, R317: TMR makes source 16 pending when TIME [35:0] reaches it; R295: a lockstep mismatch raises kind 0 and resets the pair. -/
def Obligations.Interrupts : Prop :=
  (∀ (p : Fin 2) (n : Fin 544) (w : Word) (s : State),
     let c := bget s.cores p
     let takes (m : Fin 544) : Prop := s.takeable p m = true
     let level (m : Fin 544) : Nat := (bget c.irq m).level.toNat
     (c.run = .running ∨ c.run = .waiting) → s.served_ p = false → s.pwr.mode = .run → c.rs.length < 32 → s.HasVector p n.val w → takes n →
     (∀ m, takes m → level m < level n ∨ level m = level n ∧ n.val ≤ m.val) →
       Runs (.interruptEntry p) s fun t =>
         let c' := bget t.cores p
         EntersAt c c' w c.pc ∧ c'.run = .running ∧ (∀ i, i < 6 → c'.psw.getLsbD i = c.psw.getLsbD i) ∧ c'.psw.getLsbD 6 = true ∧
           c'.psw.extractLsb' 7 4 = (bget c.irq n).level ∧ (n.val ≤ 25 → (bget c'.irq n).pend = false) ∧
           (∀ m, m ≠ n → bget c'.irq m = bget c.irq m) ∧ c'.d = c.d ∧ c'.a = c.a ∧ c'.sp = c.sp ∧ c'.ac = c.ac ∧ OnlyCore p s t) ∧
  (∀ (p : Fin 2) (s : State), (bget s.cores p).run ≠ .reset →
     (Runs (.timerCompareMatch p) s fun t =>
       (bget (bget t.cores p).irq 16).pend = true ∧ (∀ n, n ≠ 16 → bget (bget t.cores p).irq n = bget (bget s.cores p).irq n) ∧
         (s.now < 2 ^ 72 - 2 ^ 36 → s.now ≤ t.now ∧ t.now % 2 ^ 36 = (bget s.cores p).tmr.toNat) ∧ t.mem = s.mem ∧ (bget t.cores p).pc = (bget s.cores p).pc) ∧
     (s.up 6 = true → s.rst.blocks.any (·.blk == 0x0B + p.val) = false →
       Runs (.lockstepMismatch p) s fun t =>
         (bget t.cores p).run = .reset ∧ (bget t.cores p).lkcnt = satInc (bget s.cores p).lkcnt ∧ Reports s t (0x0B + p.val) 0 ∧
           (∀ q, q ≠ p → bget t.cores q = bget s.cores q) ∧ t.mem = s.mem))

/-- R302, R309, R310, R318: MFS reads, MTS writes a special register and no other. -/
def Obligations.SpecialRegisters : Prop :=
  ∀ (p : Fin 2) (d : DReg) (s : State), s.Ready p →
    let c := bget s.cores p
    let w := c.dreg d
    let reads (sr : Fin 64) (v : Word) : Prop := Gives (.mfs p d sr) p s d v NoFlags
    let writes (sr : Fin 64) (post : Core → Prop) : Prop := Runs (.mts p sr d) s fun t =>
      post (bget t.cores p) ∧ (bget t.cores p).pc = c.pc + 1 ∧ (bget t.cores p).d = c.d ∧ (bget t.cores p).a = c.a ∧ (bget t.cores p).sp = c.sp ∧
        (bget t.cores p).rs = c.rs ∧ OnlyCore p s t
    c.prods = [] →
      reads 0x00 (BitVec.ofNat 36 c.psw.toNat) ∧ reads 0x01 c.mh ∧ reads 0x02 c.ml ∧
      reads 0x03 (BitVec.ofNat 36 (c.rs.length * 2 ^ 24 + c.ssp.toNat)) ∧ reads 0x04 (BitVec.ofNat 36 c.rslo.toNat) ∧
      reads 0x05 (BitVec.ofNat 36 c.rshi.toNat) ∧ reads 0x06 (BitVec.ofNat 36 c.vbase.toNat) ∧ reads 0x07 (BitVec.ofNat 36 c.ecause.toNat) ∧
      reads 0x08 (BitVec.ofNat 36 c.eaddr.toNat) ∧ reads 0x09 (BitVec.ofNat 36 c.oref.toNat) ∧ reads 0x0A (BitVec.ofNat 36 c.isel.toNat) ∧
      reads 0x0D (BitVec.ofNat 36 p.val) ∧ reads 0x10 ((bget c.ac 0).extractLsb' 0 36) ∧ reads 0x11 ((bget c.ac 0).extractLsb' 36 36) ∧
      reads 0x12 (BitVec.ofNat 36 ((bget c.ac 0).toNat / 2 ^ 72)) ∧ reads 0x13 ((bget c.ac 1).extractLsb' 0 36) ∧
      reads 0x14 ((bget c.ac 1).extractLsb' 36 36) ∧ reads 0x15 (BitVec.ofNat 36 ((bget c.ac 1).toNat / 2 ^ 72)) ∧ reads 0x16 c.tmr ∧
      writes 0x00 (fun c' => c'.psw = w.extractLsb' 0 11) ∧ writes 0x01 (fun c' => c'.mh = w ∧ c'.ml = c.ml) ∧
      writes 0x02 (fun c' => c'.ml = w ∧ c'.mh = c.mh) ∧ writes 0x06 (fun c' => c'.vbase = w.extractLsb' 0 24) ∧
      writes 0x16 (fun c' => c'.tmr = w) ∧
      (16 ≤ w.toNat → w.toNat ≤ 543 → writes 0x0A (fun c' => c'.isel.toNat = w.toNat)) ∧
      writes 0x10 (fun c' => (bget c'.ac 0).extractLsb' 0 36 = w ∧ (bget c'.ac 0).extractLsb' 36 44 = (bget c.ac 0).extractLsb' 36 44 ∧ bget c'.ac 1 = bget c.ac 1) ∧
      (c.rslock = false → c.ssp = c.rslo →
        writes 0x04 (fun c' => c'.rslo = w.extractLsb' 0 24) ∧ writes 0x05 (fun c' => c'.rshi = w.extractLsb' 0 24 ∧ c'.rslock = true)) ∧
      writes 0x0B (fun c' => ∀ n : Fin 544, n.val = c.isel.toNat →
        (bget c'.irq n).en = w.getLsbD 7 ∧ (bget c'.irq n).level = w.extractLsb' 3 4 ∧ (n.val ≤ 25 → w.getLsbD 2 = false → (bget c'.irq n).pend = false) ∧
          ∀ m, m ≠ n → bget c'.irq m = bget c.irq m)

/-- R55, R69, R315: LDO and STO wait for the server; its answer clears C, or sets C and OREF; the half of a U72 write is given up after 1 ms. -/
def Obligations.ObjectAccess : Prop :=
  ∀ (p : Fin 2) (d : DReg) (idx : BitVec 16) (sub : Byte) (s : State),
    let c := bget s.cores p
    let asks (i : Instr) (q : CoreReq) : Prop :=
      (s.srvBusy = false → Runs i s fun t => t.srv.queue = s.srv.queue ++ [.core q] ∧ (bget t.cores p).pc = c.pc ∧ (bget t.cores p).d = c.d ∧ t.srv.objs = s.srv.objs) ∧
      (s.srvBusy = true → Runs i s fun t => (bget t.cores p).oref = 0x000010 ∧ (bget t.cores p).psw.getLsbD 2 = true ∧ (bget t.cores p).pc = c.pc + 1 ∧
        (bget t.cores p).d = c.d ∧ t.srv = s.srv)
    (s.Ready p →
      asks (.ldo p d idx sub) { pair := p, write := false, reg := d, index := idx, sub := sub, value := 0 } ∧
      asks (.sto p d idx sub) { pair := p, write := true, reg := d, index := idx, sub := sub, value := c.dreg d }) ∧
    (∀ code v s', s.up 2 = true → bget s.srv.ldo p = none → bget s.srv.half p = none → s.waits (.pair p) = false →
      s.srv.queue = [.core { pair := p, write := false, reg := d, index := idx, sub := sub, value := 0 }] →
      State.serveRead { s with srv := { s.srv with queue := [], ldo := bset s.srv.ldo p none, half := bset s.srv.half p none } } (.pair p) none idx.toNat
        sub.toNat false = (some (code, v), s') →
        Runs .objectServerAnswer s fun t =>
          let c' := bget t.cores p
          let k := bget s'.cores p
          c'.pc = k.pc + 1 ∧ (if code.1 = 0 then c'.psw.getLsbD 2 = false ∧ c'.dreg d = v.headD 0 else c'.psw.getLsbD 2 = true ∧ c'.oref = code.2 ++ code.1 ∧
            c'.dreg d = k.dreg d) ∧ (∀ r, r ≠ d → c'.dreg r = k.dreg r)) ∧
    (∀ key w since, bget s.srv.half p = some (key, w, since) → s.now ≤ since + 100000 → since + 100000 < 2 ^ 72 →
      Runs (.u72HalfTimeout p) s fun t => bget t.srv.half p = none ∧ t.now = since + 100000 ∧ t.cores = s.cores ∧ t.srv.objs = s.srv.objs)

/-- R316: STF to a contract that is not an admitted flow of the pair sets C and OREF and discards the word; a word that fits joins its
transaction, which leaves at TXN words, after 8 cycles, or at SYNC. -/
def Obligations.StreamToFlow : Prop :=
  ∀ (p : Fin 2) (d : DReg) (n : Byte) (s : State),
    let c := bget s.cores p
    let k : Fin 256 := n.toFin
    (s.Ready p → ¬((s.ct k).state = 1 ∧ s.cfg (ctIdx k) 1 = 0x0B00 + 0x100 * p.val) →
      Runs (.stf p d n) s fun t => (bget t.cores p).psw.getLsbD 2 = true ∧ (bget t.cores p).oref = 0x000D12 ∧ (bget t.cores p).pc = c.pc + 1 ∧
        (bget t.cores p).stf = c.stf ∧ t.fab = s.fab ∧ OnlyCore p s t) ∧
    (s.Ready p → (s.ct k).state = 1 → s.cfg (ctIdx k) 1 = 0x0B00 + 0x100 * p.val → c.stf = [] → 2 ≤ s.cfg (ctIdx k) 7 → 1 ≤ s.cfg (ctIdx k) 5 →
      100000000 ≤ (s.ct k).tok →
      Runs (.stf p d n) s fun t => (bget t.cores p).psw.getLsbD 2 = false ∧ (bget t.cores p).stf = [{ contract := k, words := [c.dreg d], last := s.now }] ∧
        t.fab = s.fab ∧ (bget t.cores p).pc = c.pc + 1) ∧
    (∀ ws l, c.stf = [{ contract := k, words := ws, last := l }] → (s.ct k).inForce = true →
      (Runs (.stfFlushTimeout p n) s fun t => (bget t.cores p).stf = [] ∧ t.fab.srcq = s.fab.srcq ++ ws.map fun w => { ct := k.val, born := t.now, word := w }) ∧
      (s.Ready p → Runs (.sync p) s fun t => (bget t.cores p).stf = [] ∧ t.fab.srcq = s.fab.srcq ++ ws.map (fun w => { ct := k.val, born := s.now, word := w }) ∧
        (bget t.cores p).pc = c.pc + 1 ∧ t.mem = s.mem))

/-- R338: Lyssouf-18 moves, sums, differences and compares, modulo 2^18.  R338: Lyssouf-18 logic, shifts by Sb [4:0], signed minimum and maximum. -/
def Obligations.LysAlu : Prop :=
  (∀ (n : Fin 16) (a : SeqAct) (d x y : SReg) (imm : BitVec 10) (u : Byte) (s : State), s.LysReady n a 1 →
     let r (k : SReg) : Half := bget (s.seq n).regs k
     let i : Half := imm.signExtend 18
     let sumF (b c : Half) := LysZNCV (b + c) (decide (2 ^ 18 ≤ b.toNat + c.toNat)) (decide (b.toInt + c.toInt ≠ (b + c).toInt))
     let difF (b c : Half) := LysZNCV (b - c) (decide (b < c)) (decide (b.toInt - c.toInt ≠ (b - c).toInt))
     LysGives (.lysMov n d x) n a s d (r x) LysNoFlags ∧
     LysGives (.lysMovi n d imm) n a s d i LysNoFlags ∧
     LysGives (.lysLui n d u) n a s d (BitVec.ofNat 18 (u.toNat * 1024)) LysNoFlags ∧
     LysGives (.lysAdd n d x y) n a s d (r x + r y) (sumF (r x) (r y)) ∧
     LysGives (.lysAddi n d imm) n a s d (r d + i) (sumF (r d) i) ∧
     LysGives (.lysSub n d x y) n a s d (r x - r y) (difF (r x) (r y)) ∧
     LysKeeps (.lysCmp n x y) n a s (difF (r x) (r y)) ∧
     LysKeeps (.lysCmpi n d imm) n a s (difF (r d) i)) ∧
  (∀ (n : Fin 16) (a : SeqAct) (d x y : SReg) (imm : BitVec 10) (s : State), s.LysReady n a 1 →
     let r (k : SReg) : Half := bget (s.seq n).regs k
     let i : Half := imm.zeroExtend 18
     let k := (r y).toNat % 32
     let gives (c : Instr) (v : Half) : Prop := LysGives c n a s d v (LysZN v)
     gives (.lysAnd n d x y) (r x &&& r y) ∧ gives (.lysOr n d x y) (r x ||| r y) ∧ gives (.lysXor n d x y) (r x ^^^ r y) ∧
     gives (.lysAndi n d imm) (r d &&& i) ∧ gives (.lysOri n d imm) (r d ||| i) ∧
     gives (.lysShl n d x y) (BitVec.ofNat 18 ((r x).toNat * 2 ^ k)) ∧
     gives (.lysShr n d x y) (BitVec.ofNat 18 ((r x).toNat / 2 ^ k)) ∧
     gives (.lysSar n d x y) (BitVec.ofInt 18 ((r x).toInt / 2 ^ k)) ∧
     gives (.lysMin n d x y) (if (r x).toInt ≤ (r y).toInt then r x else r y) ∧
     gives (.lysMax n d x y) (if (r x).toInt ≤ (r y).toInt then r y else r x))

/-- R325, R333, R338: halves of a sequencer's memory, GET, SIG, and the thresholds, EVT and TMR of a binding.  A word holds its even half in bits
35 to 18. -/
def Obligations.LysMemoryPorts : Prop :=
  ∀ (n : Fin 16) (a : SeqAct) (d x : SReg) (off : BitVec 7) (imm : Byte) (b : Fin 8) (blk ch : Nat) (s : State), s.LysReady n a 3 →
    (s.seq n).src = .user → Memory.wf s.mem = true →
    let r (k : SReg) : Half := bget (s.seq n).regs k
    let h := ((r x).toNat + off.toNat) % 4096
    let place := 0x890000 + n.val * 0x800 + h / 2
    let halfAt (w : Word) : Half := if h % 2 = 0 then w.extractLsb' 18 18 else w.extractLsb' 0 18
    let otherAt (w : Word) : Half := if h % 2 = 0 then w.extractLsb' 0 18 else w.extractLsb' 18 18
    let port (k : Nat) (hk : k < 8) : Fin 64 := ⟨8 * b.val + k, by omega⟩
    LysGives (.lysLdh n d x off) n a s d (halfAt (memRead s.mem place)) LysNoFlags ∧
    (s.codeEnd n ≤ h / 2 → Runs (.lysSth n d x off) s fun t =>
      halfAt (memRead t.mem place) = r d ∧ otherAt (memRead t.mem place) = otherAt (memRead s.mem place) ∧
        (∀ m, m ≠ place → memRead t.mem m = memRead s.mem m) ∧ Steps a 1 (s.seq n) (t.seq n) ∧ t = { s with seqs := t.seqs, mem := t.mem }) ∧
    LysGives (.lysGet n d 0) n a s d a.s0 LysNoFlags ∧
    LysGives (.lysGet n d 1) n a s d (BitVec.ofNat 18 (s.now / 100)) LysNoFlags ∧
    LysGives (.lysGet n d 2) n a s d (BitVec.ofNat 18 a.cycles) LysNoFlags ∧
    LysGives (.lysGet n d 3) n a s d (BitVec.ofNat 18 n.val) LysNoFlags ∧
    (Runs (.lysSig n imm) s fun t => (t.seq n).signal = (s.seq n).signal ||| imm ∧ (t.seq n).regs = (s.seq n).regs ∧ Steps a 1 (s.seq n) (t.seq n) ∧
      OnlySeq n s t) ∧
    (s.binding n b = some (blk, ch) →
      let k := bget (s.seq n).binds b
      (Runs (.lysIn n d (port 4 (by omega))) s fun t => bget (t.seq n).regs d = BitVec.ofNat 18 k.cmph.toNat ∧ Steps a 3 (s.seq n) (t.seq n) ∧ OnlySeq n s t) ∧
      (Runs (.lysIn n d (port 6 (by omega))) s fun t => bget (t.seq n).regs d = BitVec.ofNat 18 k.evt.toNat ∧ (bget (t.seq n).binds b).evt = 0 ∧
        Steps a 3 (s.seq n) (t.seq n) ∧ OnlySeq n s t) ∧
      (0x30 ≤ blk → blk ≤ 0x3B → Runs (.lysOut n d (port 4 (by omega))) s fun t =>
        (bget (t.seq n).binds b).cmph = (r d).extractLsb' 0 12 ∧ (t.seq n).regs = (s.seq n).regs ∧ Steps a 1 (s.seq n) (t.seq n) ∧ OnlySeq n s t) ∧
      ((r d).toNat % 2 ^ 17 ≠ 0 → (r d).getLsbD 17 = false → s.bindQuiet blk = false → Runs (.lysOut n d (port 3 (by omega))) s fun t =>
        (bget (t.seq n).binds b).tmr = some (s.now + 100 * ((r d).toNat % 2 ^ 17)) ∧ Steps a 1 (s.seq n) (t.seq n) ∧ OnlySeq n s t))

/-- R332, R338, R339: the half after a branch runs before its target; an instruction that passes C aborts with kind 0; an illegal one, a store to the
protected region, an unbound port, an unlisted GET code and a branch in a delay slot abort with kind 2, LASTPC set. -/
def Obligations.LysFlow : Prop :=
  ∀ (n : Fin 16) (a : SeqAct) (d x y : SReg) (cond : Fin 8) (rel : BitVec 10) (tgt : BitVec 12) (s : State), s.LysReady n a 1 →
    let q := s.seq n
    let r (k : SReg) : Half := bget q.regs k
    let holds := [true, q.z, !q.z, q.n != q.v, q.n == q.v, q.c, !q.c, q.n].getD cond.val false
    let branches (i : Instr) (to_ : BitVec 12) (link : Seq → Prop) : Prop := Runs i s fun t =>
      (t.seq n).pc = q.pc + 1 ∧ (t.seq n).act = some { a with cycles := a.cycles + 1, branch := some to_ } ∧ link (t.seq n) ∧ OnlySeq n s t
    let aborts (i : Instr) : Prop := Runs i s fun t =>
      (t.seq n).act = none ∧ (t.seq n).lastpc = q.pc ∧ (t.seq n).regs = q.regs ∧ Reports s t (0x10 + n.val) 2 ∧ t.mem = s.mem
    branches (.lysB n cond rel) (if holds then q.pc + rel.signExtend 12 else q.pc + 2) (fun q' => q'.regs = q.regs) ∧
    branches (.lysJ n tgt) tgt (fun q' => q'.regs = q.regs) ∧
    branches (.lysCall n tgt) tgt (fun q' => bget q'.regs 7 = BitVec.ofNat 18 (q.pc + 2).toNat ∧ ∀ k, k ≠ 7 → bget q'.regs k = r k) ∧
    branches (.lysJr n x) ((r x).extractLsb' 0 12) (fun q' => q'.regs = q.regs) ∧
    branches (.lysDbnz n d rel) (if r d - 1 ≠ 0 then q.pc + rel.signExtend 12 else q.pc + 2)
      (fun q' => bget q'.regs d = r d - 1 ∧ ∀ k, k ≠ d → bget q'.regs k = r k) ∧
    (Runs (.lysEnd n) s fun t => (t.seq n).act = none ∧ (t.seq n).acts = satInc q.acts ∧ bget (t.seq n).aborts a.slot = 0 ∧ OnlySeq n s t) ∧
    (∀ b : BitVec 12, ∀ s' : State, s' = s.onSeq n (fun q => { q with act := some { a with branch := some b } }) →
      (Runs (.lysMov n d x) s' fun t => (t.seq n).pc = b ∧ bget (t.seq n).regs d = r x ∧ (t.seq n).act = some { a with cycles := a.cycles + 1 }) ∧
      (bget q.aborts a.slot ≠ 2 → Runs (.lysJ n tgt) s' fun t => (t.seq n).act = none ∧ (t.seq n).lastpc = q.pc ∧ Reports s t (0x10 + n.val) 2)) ∧
    (bget q.aborts a.slot ≠ 2 →
      (∀ w : Half, w.extractLsb' 13 5 ∈ [0x07#5, 0x0A#5, 0x0B#5, 0x0E#5, 0x15#5, 0x17#5, 0x1A#5, 0x1F#5] → aborts (.lysIllegal n w)) ∧
      (∀ off : BitVec 7, ((r x).toNat + off.toNat) % 4096 / 2 < s.codeEnd n → aborts (.lysSth n d x off)) ∧
      (∀ g : Fin 16, 4 ≤ g.val → aborts (.lysGet n d g)) ∧
      (∀ p : Fin 64, s.binding n ⟨p.val / 8, by omega⟩ = none → aborts (.lysOut n d p)))

/-- R327, R329, R331, R332, R336, R345: slots become eligible, start with S0 and cleared registers, and abort; timers expire; held accesses are served;
SIGNAL is cleared by its read.  R341 to R343: a user image that waited for its bank's verification is loaded, its data area zero; a failed check leaves the sequencer idle with
kind 7. -/
def Obligations.LysSlots : Prop :=
  (∀ (n : Fin 16) (p b : Fin 8) (bits : BitVec 7) (s : State),
     let q := s.seq n
     (s.up 3 = true → q.elig = [(p, bits)] → q.waitT = [] → q.act = none → q.held = [] → s.slotRuns n p = true → s.pwr.mode = .run →
       Runs (.activationStart n) s fun t =>
         let q' := t.seq n
         (∃ a, q'.act = some a ∧ a.slot = p ∧ a.cycles = 0 ∧ a.branch = none ∧ a.s0 = BitVec.ofNat 18 (p.val + 8 * bits.toNat)) ∧
           bget q'.regs 0 = BitVec.ofNat 18 (p.val + 8 * bits.toNat) ∧ (∀ k, k ≠ 0 → bget q'.regs k = 0) ∧ q'.z = false ∧ q'.n = false ∧ q'.c = false ∧
           q'.v = false ∧ q'.pc = (s.slot n p).entry ∧ q'.elig = [] ∧ bget q'.lastGo p = some s.now ∧ OnlySeq n s t) ∧
     (∀ a, q.act = some a → s.up 3 = true → bget q.aborts a.slot ≠ 2 →
       Runs (.activationAbort n) s fun t =>
         (t.seq n).act = none ∧ (t.seq n).lastpc = q.pc ∧ bget (t.seq n).aborts a.slot = bget q.aborts a.slot + 1 ∧ (t.seq n).stopped = q.stopped ∧
           Reports s t (0x10 + n.val) 0) ∧
     (∀ a, q.act = some a → s.up 3 = true → bget q.aborts a.slot = 2 →
       Runs (.activationAbort n) s fun t => (t.seq n).act = none ∧ (t.seq n).stopped.getLsbD a.slot.val = true ∧
         t.flt.inflight = s.flt.inflight ++ [{ src := (0x10 + n.val) * 32, stamp := s.stamp, wrapped := none },
           { src := (0x10 + n.val) * 32 + 1, stamp := s.stamp, wrapped := none }]) ∧
     (s.slotRuns n p = true → (s.slot n p).event = false → q.elig = [] → 1 ≤ (s.slot n p).t → s.now + 2 ^ 30 < 2 ^ 72 → bget q.perAt p = none →
       Runs (.slotPeriodicEligible n p) s fun t =>
         (t.seq n).elig = [(p, 0)] ∧ s.now ≤ t.now ∧ t.now % (10 * (s.slot n p).t) = 0 ∧ t.now < s.now + 10 * (s.slot n p).t ∧ t.mem = s.mem) ∧
     (s.up 3 = true → q.started = true → (s.binding n b).isSome = true → (∀ p, (s.slot n p).event = false) → q.waitT = [] →
       Runs (.bindingEvent n b bits) s fun t => (bget (t.seq n).binds b).evt = (bget q.binds b).evt ||| bits ∧ OnlySeq n s t) ∧
     (∀ x, (bget q.binds b).tmr = some x → (bget q.binds b).aon = false → s.up 3 = true → (s.binding n b).isSome = true → x ≤ s.now → q.waitT = [] →
       (∀ p, (s.slot n p).event = false) →
       Runs (.seqTmrExpire n b) s fun t => (bget (t.seq n).binds b).tmr = none ∧ (bget (t.seq n).binds b).evt.getLsbD 5 = true ∧ OnlySeq n s t) ∧
     (∀ (r : List SubEntry) (tag : Fin 64) (ini : Fin 10) (o born : Nat), q.act = none → (ini = 0 ∨ ini = 1 ∨ ini = 9) → o < 0x800 →
       s.closed (0x10 + n.val) = false →
       q.held = { egress := 3, tag := some tag, tx := { ini := ini, cls := 0, write := false, posted := false, addr := BitVec.ofNat 24 (0x890000 + n.val * 0x800 + o), len := 0, data := [], flow := none }, born := born } :: r →
       Runs (.seqHeldAccess n) s fun t => (t.seq n).held = r ∧
         (bget t.fab.tags tag).resp = some { error := false, wrapped := none, data := [memRead s.mem (0x890000 + n.val * 0x800 + o)] } ∧ t.mem = s.mem) ∧
     (s.closed (0x10 + n.val) = false → s.up 2 = true → ∀ port : Fin 10,
       Runs (.signalRead port n) s fun t => (t.seq n).signal = 0 ∧
         (bget t.fab.resps port) = some { error := false, wrapped := none, data := [BitVec.ofNat 36 q.signal.toNat] } ∧ t.mem = s.mem)) ∧
  (∀ (n : Fin 16) (off : Nat) (s : State), s.up 2 = true → s.up 3 = true → s.upd.checked = true → s.seqEntry n = (.user, off) →
     (s.seq n).src = .user → (s.seq n).started = false → (∀ m, m ≠ n → (s.seq m).src ≠ .user) →
     let image := s.userImage off
     let base := 0x890000 + n.val * 0x800
     let loaded := (s.onMem fun m => seqMemory m n image).onSeq n fun _ => { Seq.reset with src := .user }
     Memory.wf s.mem = true →
       (loaded.imageOk n = true → loaded.seqUse n ≤ 17 / 20 → loaded.grantsLost n = 0 →
         Runs .userImageLoad s fun t => (t.seq n).src = .user ∧ (t.seq n).started = true ∧ (t.seq n).admitted = true ∧
           (∀ o, o < 0x800 → memRead t.mem (base + o) = (image.take 0x800).getD o 0) ∧
           (∀ a, (a < base ∨ base + 0x800 ≤ a) → memRead t.mem a = memRead s.mem a) ∧ ∀ m, m ≠ n → t.seq m = s.seq m) ∧
       (loaded.imageOk n = false → Runs .userImageLoad s fun t => (t.seq n).src = .idle ∧ (t.seq n).started = false ∧ Reports s t (0x10 + n.val) 7))

/-- R13, R15, R16, R18: a background read of a core pair draws a shared tag, which is issued with the next generation, spends its credits and waits
in its sub-queue; one that crosses an aligned 8-word boundary does not occur (log 3).  R17, R18, R19, R29: service of a read at an egress and its response where the next hop has credits (log 21), a timeout after 20 µs, a stale response, credits that come back. -/
def Obligations.Fabric : Prop :=
  (∀ (x : FabTx) (tag : Fin 64) (e : Fin 10) (blk : Nat) (s : State), s.up 2 = true → s.fab.waiting = [] →
     let n := x.len.val + 1
     (x.ini = 0 ∨ x.ini = 1) → x.flow = none → x.write = false → x.data = [] →
       (x.addr.toNat % 8 + n ≤ 8 → s.drawTag x = some tag → s.txTarget x = some (e, blk) → n ≤ bget s.fab.credits (subHop e x.ini x.cls) →
         Runs (.fabricTransaction x) s fun t =>
           32 ≤ tag.val ∧ (bget s.fab.tags tag).tx = none ∧ (bget t.fab.tags tag).tx = some x ∧ (bget t.fab.tags tag).gen = (bget s.fab.tags tag).gen + 1 ∧
             (bget t.fab.tags tag).issued = s.now ∧ (bget t.fab.tags tag).resp = none ∧ (∀ k, k ≠ tag → bget t.fab.tags k = bget s.fab.tags k) ∧
             t.fab.subq = s.fab.subq ++ [{ egress := e, tx := x, tag := some tag, born := s.now }] ∧ t.fab.waiting = [] ∧
             bget t.fab.credits (subHop e x.ini x.cls) + n = bget s.fab.credits (subHop e x.ini x.cls) ∧ t = { s with fab := t.fab }) ∧
       (x.addr.toNat % 8 + n ≤ 8 → s.drawTag x = none → (s.txTarget x).isSome = true →
         Runs (.fabricTransaction x) s fun t => t.fab.waiting = [{ tx := x, inCluster := false, born := s.now }] ∧ t.fab.subq = s.fab.subq ∧ t.fab.tags = s.fab.tags) ∧
       (8 < x.addr.toNat % 8 + n → Runs (.fabricTransaction x) s fun t => t = s)) ∧
  (∀ (x : FabTx) (tag : Fin 64) (e : Fin 10) (r : Resp) (born : Nat) (s : State), s.up 2 = true → s.fab.waiting = [] → x.flow = none →
     let n := x.len.val + 1
     (s.fab.subq = [{ egress := e, tx := x, tag := some tag, born := born }] → s.downFits e x = true → x.write = false → 0x800000 ≤ x.addr.toNat → x.addr.toNat + n ≤ 0x860000 →
       s.closed 0x08 = false →
       Runs (.egressGrant e .good) s fun t =>
         t.fab.subq = [] ∧
           t.fab.back = s.fab.back ++ { hop := subHop e x.ini x.cls, n := n } :: (if hasCluster e = true then [{ hop := downHop e, n := n }] else []) ∧
           (∀ h, bget t.fab.credits h + (if hasCluster e = true ∧ h = downHop e then n else 0) = bget s.fab.credits h) ∧
           bget t.fab.rr (Fin.ofNat 40 (4 * e.val + x.cls.val)) = x.ini ∧
           (bget t.fab.tags tag).resp = some { error := false, wrapped := none, data := (List.range n).map fun i => memRead s.mem (x.addr.toNat + i) } ∧
           t = { s with fab := t.fab }) ∧
     ((bget s.fab.tags tag).tx = some x → (bget s.fab.tags tag).resp = some r → max 1 r.data.length ≤ bget s.fab.credits (respHop x.ini) →
       Runs (.fabricResponse tag) s fun t =>
         t.fab.back = s.fab.back ++ [{ hop := respHop x.ini, n := max 1 r.data.length }] ∧
           bget t.fab.credits (respHop x.ini) + max 1 r.data.length = bget s.fab.credits (respHop x.ini) ∧
         (bget t.fab.tags tag).tx = none ∧ (bget t.fab.tags tag).resp = none ∧ bget t.fab.resps x.ini = some r ∧
           (∀ k, k ≠ tag → bget t.fab.tags k = bget s.fab.tags k) ∧ t = { s with fab := t.fab }) ∧
     ((bget s.fab.tags tag).tx = some x → (bget s.fab.tags tag).resp = none → s.now = (bget s.fab.tags tag).issued + 2000 →
       Runs (.responseTimeout tag) s fun t =>
         (bget t.fab.tags tag).tx = none ∧ (bget t.fab.tags tag).late = (bget s.fab.tags tag).late + 1 ∧
           bget t.fab.resps x.ini = some { error := true, wrapped := none, data := [] } ∧ Reports s t 0x07 1 ∧ t = { s with fab := t.fab, flt := t.flt }) ∧
     (0 < (bget s.fab.tags tag).late →
       Runs (.staleResponse tag) s fun t => t.fab.stale = satInc s.fab.stale ∧ (bget t.fab.tags tag).late + 1 = (bget s.fab.tags tag).late ∧
         (bget t.fab.tags tag).tx = (bget s.fab.tags tag).tx ∧ t = { s with fab := t.fab }) ∧
     (∀ c l, s.fab.back = c :: l →
       Runs .creditReturn s fun t => t.fab.back = l ∧ bget t.fab.credits c.hop = bget s.fab.credits c.hop + c.n ∧
         (∀ h, h ≠ c.hop → bget t.fab.credits h = bget s.fab.credits h) ∧ t = { s with fab := t.fab }) ∧
     (Runs (.sramScrub .good) s fun t => t = s) ∧
     (Runs (.sramScrub .corrected) s fun t => Reports s t 0x08 0 ∧ t = { s with flt := t.flt }) ∧
     (Runs (.sramScrub .uncorrectable) s fun t => Reports s t 0x08 1 ∧ t = { s with flt := t.flt }))

/-- R36, R37, R39, R40, R108: TIME_LO latches TIME_HI for its port, TIME_ST clears STEPD, a queue gives its words in order and 0 when empty, and the wrap
of TIME [35:0] places a marker. -/
def Obligations.TimeAndQueues : Prop :=
  ∀ (port : Fin 10) (q : EvQueue) (s : State),
    let answers (t : State) (w : Word) : Prop := bget t.fab.resps port = some { error := false, wrapped := none, data := [w] }
    (s.up 2 = true → s.closed 0x01 = false →
      (Runs (.timeLoRead port) s fun t => answers t (s.time.time.extractLsb' 0 36) ∧ bget t.time.hi port = s.time.time.extractLsb' 36 36 ∧
        (∀ k, k ≠ port → bget t.time.hi k = bget s.time.hi k) ∧ t.now = s.now ∧ t = { s with time := t.time, fab := t.fab }) ∧
      (Runs (.timeStRead port) s fun t => answers t s.timeSt ∧ t.time.stepd = false ∧ t = { s with time := { s.time with stepd := false }, fab := t.fab })) ∧
    (s.up 2 = true → s.closed (evPlace q).1 = false →
      (∀ m w l r, (s.evq q).items = { marker := m, words := w :: l } :: r →
        Runs (.eventQueueRead port q) s fun t => answers t w ∧
          (t.evq q).items = (if l = [] then r else { marker := m, words := l } :: r) ∧ t.mem = s.mem) ∧
      ((s.evq q).items = [] → Runs (.eventQueueRead port q) s fun t => answers t 0 ∧ (t.evq q).items = [])) ∧
    (s.now < 2 ^ 72 - 2 ^ 36 → Runs .timeWrap s fun t =>
      t.now % 2 ^ 36 = 0 ∧ s.now < t.now ∧ t.now ≤ s.now + 2 ^ 36 ∧
        ((s.evq q).items = [] → (t.evq q).items = [{ marker := true, words := [0xF00000000, BitVec.ofNat 36 (t.now / 2 ^ 36)] }]) ∧ t.mem = s.mem ∧
        t.cores = s.cores)

/-- R122 to R124, R126, R132: high-side commands.  A word acts on the channels it names in ascending order. -/
def Obligations.HighSideCommands : Prop :=
  ∀ (g : Fin 9) (c : Fin 8) (d : BitVec 16) (s : State), s.iop = true →
    let ch := hsOf g c
    let h := bget s.hs ch
    let one : BitVec 8 := BitVec.ofNat 8 (2 ^ c.val)
    let tj := bget s.sup.tj (grpTh g)
    let sets (i : Instr) (post : HsChannel → State → Prop) : Prop := Runs i s fun t => post (bget t.hs ch) t ∧ OnlyHs ch s t
    let ready : Prop := s.Unruled ch.val ∧ h.base = none ∧ h.lcause = 0 ∧ h.act = .off ∧ h.next = none ∧ h.out = false ∧ h.paused = false ∧
      (bget s.th (grpTh g)).hot = false
    let waits (i : Instr) (k : HsCmd) : Prop := ready → s.Fits (s.hsCharge ch k) → sets i fun h' t =>
      h'.cmd = k ∧ h'.next = some k ∧ h'.act = .off ∧ h'.out = false ∧ t.adm.charges = setCharge s.adm.charges (s.hsCharge ch k)
    (∀ m, Runs (.hsNop g m) s fun t => t = s) ∧
    (bget s.adm.level (tgtFin ch.val) = none → s.safeOf ch.val = none → h.base = none →
      sets (.hsOff .word g one) fun h' t => h'.cmd = .off ∧ h'.act = .off ∧ h'.next = none ∧ h'.out = false ∧ h'.win = none ∧ h'.lcause = h.lcause ∧
        h'.offEnds = none ∧ (h.out = true → h'.offAt = some s.now) ∧ ∀ x ∈ t.adm.charges, x.code ≠ ch.val) ∧
    (ready → s.Fits (s.hsCharge ch .on) → sets (.hsOn .word g one) fun h' t =>
      h'.cmd = .on ∧ h'.act = .on ∧ h'.out = true ∧ h'.oncount = satInc h.oncount ∧ t.adm.charges = setCharge s.adm.charges (s.hsCharge ch .on) ∧
        (h.offAt = none → s.quiet g = false → s.cfg (hsIdx ch) 0x0C ≠ 0 →
          h'.win = some { retry := 0, ends := s.now + msT (s.cfg (hsIdx ch) 0x0C), frozen := none, missed := false }) ∧
        (∀ o, h.offAt = some o → s.now < o + msT 20 → h'.win = h.win)) ∧
    waits (.hsPwm .word g one) .pwm ∧ waits (.hsDuty g one d) (.duty d) ∧
    ((h.lcause = 4 → tj < 2400) →
      sets (.hsClearLatch .word g one) fun h' t => h'.lcause = 0 ∧ h'.cmd = .off ∧ h'.act = .off ∧ h'.next = none ∧ h'.out = false ∧ h'.policy = .none ∧
        (h.lcause ≠ 0 → h'.offAt = none) ∧ (∀ x ∈ t.adm.charges, x.code ≠ ch.val) ∧ bget t.adm.edge (tgtFin ch.val) = none ∧
        ∀ b, h'.base = some b → b.cmd = .off ∧ b.edge = none) ∧
    (h.lcause = 4 → 2400 ≤ tj → Runs (.hsClearLatch .word g one) s fun t => t = s) ∧
    (∀ v, Ascending (.hsOff v g) s ∧ Ascending (.hsOn v g) s ∧ Ascending (.hsPwm v g) s ∧ Ascending (.hsClearLatch v g) s) ∧
    Ascending (fun m => .hsDuty g m d) s ∧
    AsObject (fun v => .hsOff v g one) (hsIdx ch) 2 [0] s ∧ AsObject (fun v => .hsOn v g one) (hsIdx ch) 2 [1] s ∧
    AsObject (fun v => .hsPwm v g one) (hsIdx ch) 2 [2] s ∧ AsObject (fun v => .hsClearLatch v g one) (hsIdx ch) 3 [1] s

/-- R119, R120: an on-phase begins at TIME ≡ PHASE modulo PERIOD and lasts the on-time in force; R127, R131, R134, R136: trips, the inrush ladder,
quiet windows and the low-current detection. -/
def Obligations.HighSideEvents : Prop :=
  ∀ (ch : Fin 72) (w : Inrush) (e : Nat) (s : State), s.Ahead e →
    let h := bget s.hs ch
    let g := hsGroup ch
    let blk := 0x30 + ch.val / 8
    let unit := h.period * 1000
    let onT := s.hsOnTime ch .pwm
    let sets (i : Instr) (post : HsChannel → State → Prop) : Prop := Runs i s fun t =>
      post (bget t.hs ch) t ∧ Apart s t ∧ ∀ k, k ≠ ch → hsGroup k ≠ g → bget t.hs k = bget s.hs k
    let latches (i : Instr) (cause : BitVec 3) (kind : Nat) : Prop := sets i fun h' t =>
      h'.out = false ∧ h'.act = .off ∧ h'.win = none ∧ h'.offEnds = none ∧ h'.lcause = (if h.lcause = 0 then cause else h.lcause) ∧ h'.trips = satInc h.trips ∧
        Reports s t blk kind ∧ (bget t.th (grpTh g)).quiet = some (s.now + usT 200) ∧ (∀ x ∈ t.adm.charges, x.code ≠ ch.val)
    (h.act = .pwm → h.lcause = 0 → h.supp = false → s.heldOff = false → s.safeOff ch.val = false → h.paused = false → h.next = none → h.trans = none →
      h.lastBnd = none → (bget s.th (grpTh g)).hot = false → s.srv.commits = [] → h.period = s.cfg (hsIdx ch) 7 → h.phase = s.cfg (hsIdx ch) 9 →
      h.phase < h.period → s.now + unit < 2 ^ 72 →
      sets (.hsPeriodBoundary ch) fun h' t => s.now ≤ t.now ∧ t.now < s.now + unit ∧ t.now % unit = h.phase * 1000 ∧ h'.lastBnd = some t.now ∧
        h'.act = .pwm ∧ (onT = 0 → h'.out = false) ∧ (onT ≠ 0 → h'.out = true ∧ h'.onEnds = if onT < h.period then some (t.now + onT * 1000) else none)) ∧
    (h.onEnds = some e → sets (.hsOntimeEnd ch) fun h' t =>
      t.now = e ∧ h'.out = false ∧ h'.onEnds = none ∧ h'.act = h.act ∧ h'.win = h.win ∧ (h.out = true → h'.offAt = some e)) ∧
    (h.win = some w → h.out = true → w.frozen = none →
      (s.ladderRuns g = true → w.retry < s.cfg (hsIdx ch) 0x0E → sets (.hsInrushTrip ch) fun h' t =>
        h'.out = false ∧ h'.trips = satInc h.trips ∧ h'.act = h.act ∧
          h'.win = some { w with retry := w.retry + 1 } ∧ h'.offEnds = some (s.now + s.cfg (hsIdx ch) 0x0D * usT 50) ∧ t = { s with hs := t.hs }) ∧
      (s.ladderRuns g = true → s.cfg (hsIdx ch) 0x0E ≤ w.retry → latches (.hsInrushTrip ch) 2 (8 + ch.val % 8)) ∧
      (s.ladderRuns g = false → latches (.hsInrushTrip ch) 3 (8 + ch.val % 8))) ∧
    (h.offEnds = some e → h.win.any (fun w => w.frozen.isSome || w.missed) = false → h.act = .on → h.out = false →
      (bget s.th (grpTh g)).hot = false →
      sets (.hsLadderOfftimeEnd ch) fun h' t => t.now = e ∧ h'.out = true ∧ h'.offEnds = none ∧ h'.oncount = satInc h.oncount ∧
        ∀ o, h.offAt = some o → e < o + msT 20 → h'.win = h.win) ∧
    (h.win = some w → w.frozen = none → w.ends = e → sets (.hsInrushWindowClose ch) fun h' t =>
      t.now = e ∧ h'.win = none ∧ h'.lastry = BitVec.ofNat 8 (min w.retry 255) ∧ h'.out = h.out ∧ h'.offEnds = h.offEnds) ∧
    (∀ a, h.lowAt = some a → e = a + msT 20 → h.out = true → s.cfg (hsIdx ch) 0x11 ≠ 0 → h.lowi = false → sets (.lowCurrentDetect ch) fun h' t =>
      t.now = e ∧ h'.lowi = true ∧ h'.out = true ∧ ReportsNow s t blk (16 + ch.val % 8)) ∧
    ((bget s.th (grpTh g)).quiet = some e → (∀ k, hsGroup k = g → k ≠ ch → (bget s.hs k).win.any (·.frozen.isSome) = false) →
      (h.win.any (·.frozen.isSome) = false → Runs (.quietWindowEnd g) s fun t => t.now = e ∧ (bget t.th (grpTh g)).quiet = none ∧ t.hs = s.hs) ∧
      (∀ f, h.win = some { w with frozen := some f } → w.missed = false → f ≤ e → s.Fits (s.hsCharge ch h.act) → Runs (.quietWindowEnd g) s fun t =>
        t.now = e ∧ (bget t.th (grpTh g)).quiet = none ∧
          (bget t.hs ch).win = some { w with frozen := none, ends := w.ends + (e - f) } ∧ (bget t.hs ch).offEnds = h.offEnds.map (· + (e - f)) ∧
          ∀ k, k ≠ ch → bget t.hs k = bget s.hs k))

/-- R133, R135, R139, R140, R142, R149, R367, R370: samples, conversions, SENSEOUT, off-state tests, HOLD timers and junction thresholds. -/
def Obligations.LoadDiagnostics : Prop :=
  ∀ (ch : Fin 72) (code : BitVec 12) (ok : Bool) (m : TestPhase) (tj : Int) (j : ThermGrp) (e : Nat) (s : State), s.Ahead e →
    let h := bget s.hs ch
    let th := bget s.th j
    let sets (i : Instr) (post : HsChannel → State → Prop) : Prop := Runs i s fun t =>
      post (bget t.hs ch) t ∧ Apart s t ∧ ∀ k, k ≠ ch → bget t.hs k = bget s.hs k
    (s.iop = true → s.isPlaced (.hs ch) = true → h.out = true → h.act = .on → sets (.senseSample (.hs ch) code ok) fun h' _ =>
      h'.code.toNat = min code.toNat 0xBFF ∧ h'.samples = h.samples + 1 ∧ h'.out = true ∧ (h'.lowi = true → h.lowi = true) ∧
        h'.chkBad = if (h.samples + 1) % 256 = 0 then !ok else h.chkBad) ∧
    (∀ (a : Fin 8) (slot : Nat), s.iop = true → 34 ≤ slot → slot < 40 → Runs (.adcConversion a slot code ok) s fun t =>
      (∀ k, k < 8 → t.adc.bad.getLsbD k = if k = a.val then !ok else s.adc.bad.getLsbD k) ∧
        (ok = true ∨ s.adc.bad.getLsbD a.val = true → t.flt = s.flt) ∧
        (ok = false → s.adc.bad.getLsbD a.val = false → a.val ≠ 6 → Reports s t 0x3F 0) ∧
        (ok = false → s.adc.bad.getLsbD a.val = false → a.val = 6 → ∃ m, Reports s m 0x3F 0 ∧ Reports m t 0x03 4 ∧ m.now = s.now) ∧
        t = { s with adc := t.adc, flt := t.flt }) ∧
    (∀ (a : Fin 8) (slot : Fin 34) (p : AdcPlace) (it : SenseItem), s.iop = true → s.adc.places = [p] → p.adc = a.val → p.slot = slot.val →
      p.req = .load it → bget s.adc.last ⟨40 * a.val + slot.val, by omega⟩ ≤ s.now → p.nextEnd s.now = e →
      ∃ u, u.now = e ∧ u.hs = s.hs ∧ bget u.adc.last ⟨40 * a.val + slot.val, by omega⟩ = e + 1 ∧ Apart s u ∧
        ((∀ k, it ≠ .leg (legA k) ∨ s.motor k = false) →
          exec (.adcConversion a slot.val code ok) s = exec (.senseSample it code ok) u ∧ ∃ t, exec (.senseSample it code ok) u = .next t) ∧
        (∀ k, it = .leg (legA k) → s.motor k = true → ∃ v t, exec (.senseSample it code ok) u = .next v ∧
          exec (.adcConversion a slot.val code ok) s = exec (.senseSample (.pair k) code ok) v ∧ exec (.senseSample (.pair k) code ok) v = .next t)) ∧
    (∀ (r : Requester) (it : SenseItem), s.Takes r (soutKey it).1 (soutKey it).2 [1] →
      Runs (.soutSelect r it) s fun t => t.sout = some it ∧ t.srv.objs = s.srv.objs ∧ t.hs = s.hs ∧ t.legs = s.legs ∧ t.vd = s.vd) ∧
    (∀ was, h.policy = .hold was e → bget s.adm.level (tgtFin ch.val) = none → bget s.adm.edge (tgtFin ch.val) = none → h.lcause = 0 →
      sets (.holdTimerExpire (.hs ch)) fun h' t => t.now = e ∧ h'.policy = .off ∧ h'.out = false ∧ h'.act = .off) ∧
    (s.iop = true → s.cfg (hsIdx ch) 0x0F % 4 = 1 → h.act = .off → h.next = none → h.out = false → s.duoHeld ch.val = false → h.test = .idle → e = h.testAt + msT (s.cfg (hsIdx ch) 0x10) →
      sets (.offstateTestDue (.hs ch)) fun h' t => t.now = e ∧ h'.test = .phaseA (e + usT 100) ∧ h'.testAt = e) ∧
    (s.iop = true → s.cfg (hsIdx ch) 0x0F % 4 ≠ 0 → s.duoHeld ch.val = false →
      (h.test = .phaseA e → sets (.offstateTestPhaseEnd (.hs ch) m) fun h' t =>
        t.now = e ∧ h' = { h with test := .phaseB (e + usT 100) (decide (m.vbat < 2 * m.v)) } ∧ t.flt.inflight = s.flt.inflight) ∧
      (∀ a, h.test = .phaseB e a → sets (.offstateTestPhaseEnd (.hs ch) m) fun h' t =>
        t.now = e ∧ h' = { h with test := .idle, scb := a, ol := decide (3000 < m.v) && !a } ∧
          if h'.scb && !h.scb || h'.ol && !h.ol then ReportsNow s t (0x30 + ch.val / 8) (16 + ch.val % 8) else t.flt.inflight = s.flt.inflight)) ∧
    (2560 ≤ tj → th.twarn = false → th.sensf = false → Runs (.junctionWarning j tj) s fun t =>
      bget t.th j = { th with twarn := true } ∧ bget t.sup.tj j = tj ∧ Reports s t (0x30 + j.val) (thKinds j).1 ∧ t.hs = s.hs ∧ Apart s t) ∧
    (2640 ≤ tj → th.hot = false → th.sensf = false → j.val < 9 → Runs (.thermalShutdown j tj) s fun t =>
      (bget t.th j).hot = true ∧ (bget t.th j).tsd = true ∧ Reports s t (0x30 + j.val) 25 ∧ Apart s t ∧
        (ch.val / 8 = j.val → h.lcause = 0 → (h.act ≠ .off ∨ h.out = true ∨ s.hsWant ch ≠ .off) →
          (bget t.hs ch).lcause = 4 ∧ (bget t.hs ch).out = false ∧ (bget t.hs ch).act = .off) ∧
        (ch.val / 8 ≠ j.val → bget t.hs ch = h)) ∧
    (th.sensf = false → Runs (.junctionCooled j tj) s fun t =>
      bget t.th j = { th with twarn := th.twarn && decide (2480 ≤ tj), tsd := th.tsd && decide (2400 ≤ tj), hot := th.hot && decide (2640 ≤ tj) } ∧
        bget t.sup.tj j = tj ∧ t = { s with sup := t.sup, th := t.th }) ∧
    (th.sensf = false → s.estTj j < 2400 → Runs (.junctionSensorFail j) s fun t =>
      bget t.th j = { th with sensf := true, twarn := false, tsd := false, hot := false } ∧ bget t.sup.tj j = s.estTj j ∧ (if j.val = 12 then t.flt = s.flt else Reports s t (0x30 + j.val) (if j.val = 11 then 30 else 26)) ∧ t = { s with sup := t.sup, th := t.th, flt := t.flt })

/-- R153, R158, R159, R161, R174, R177: commands of a pair in MODE 1 and of a leg in MODE 0. -/
def Obligations.BridgeCommands : Prop :=
  ∀ (g : Fin 2) (j : Fin 4) (dir : Bool) (duty ms : BitVec 16) (target : BitVec 24) (s : State), s.iop = true →
    let k := pairIn g j
    let p := bget s.pairs k
    let code := pairCode k
    let one : BitVec 4 := BitVec.ofNat 4 (2 ^ j.val)
    let a := bget s.legs (legA k)
    let b := bget s.legs (legB k)
    let hot : Prop := (a.lcause = 4 ∨ b.lcause = 4) ∧ 2400 ≤ bget s.sup.tj (pairTh k)
    let sets (i : Instr) (post : Pair → State → Prop) : Prop := Runs i s fun t => post (bget t.pairs k) t ∧ OnlyPair k s t
    let commanded : Prop := s.motor k = true ∧ s.pairLevel k = none ∧ s.safeOf code = none ∧ p.base = none
    let rest : Prop := commanded ∧ s.Unruled code ∧ s.pairLatched k = false ∧ s.pairInh k = false ∧ p.rev = none ∧ p.stage = .free ∧
      s.pairHot k = false ∧ p.dwellAt ≤ s.now ∧ (s.pairCharge k).risesOver (s.charged code) = true ∧ s.Fits (s.pairCharge k)
    let starts (i : Instr) (c : PairCmd) (u ustar : Int) (post : Pair → Prop) : Prop := rest → sets i fun p' t =>
      p'.cmd = c ∧ p'.act = c ∧ p'.stage = .drive ∧ p'.u = u ∧ p'.ustar = ustar ∧ p'.dir = decide (ustar < 0) ∧ p'.startAt = s.now ∧
        p'.runs = satInc p.runs ∧ t.adm.charges = setCharge s.adm.charges (s.pairCharge k) ∧ post p'
    let pd := (if dir then -1 else 1) * (1000 * s.cfg (pairIdx k) 0x1E : Int)
    (∀ m : BitVec 4, (∀ i : Fin 4, m.getLsbD i.val = true → s.motor (pairIn g i) = true) → Runs (.hbNop g m) s fun t => t = s) ∧
    (∀ (m : BitVec 4) (i : Fin 4), m.getLsbD i.val = true → s.motor (pairIn g i) = false → Runs (.hbNop g m) s fun t =>
      Reports s t (0x39 + g.val) 28 ∧ t = { s with flt := t.flt }) ∧
    (commanded → sets (.hbFree .word g one) fun p' t => p'.cmd = .free ∧ p'.act = .free ∧ p'.stage = .free ∧ p'.u = 0 ∧ ∀ x ∈ t.adm.charges, x.code ≠ code) ∧
    (commanded → s.pairHot k = false → sets (.hbStop .word g one) fun p' t => p'.cmd = .stop ∧ p'.act = .stop ∧ p'.ustar = 0 ∧ p'.u = p.u ∧ t.adm.charges = s.adm.charges ∧
      (p.u ≠ 0 → p'.stage = p.stage) ∧ (p.u = 0 → p.stage = .drive → p'.stage = .braking)) ∧
    starts (.hbRun .word g one dir duty) (.run dir duty) 0 ((if dir then -1 else 1) * (1000 * duty.toNat : Int)) (fun _ => True) ∧
    (p.posok = true → starts (.hbMove .word g one target) (.move target.toInt) 0
      (if target.toInt = s.pos k then 0 else (if target.toInt < s.pos k then -1 else 1) * (1000 * s.cfg (pairIdx k) 0x1E : Int)) (fun _ => True)) ∧
    (1 ≤ ms.toNat → ms.toNat ≤ 5000 →
      starts (.hbPulse .word g one dir ms) (.pulse dir ms.toNat) pd pd (fun p' => p'.pulse = some (s.now + msT ms.toNat))) ∧
    (s.operandIn (s.cfg (pairIdx k) 0x1C) = false →
      starts (.hbPark .word g one dir) (.park dir) 0 pd (fun p' => p'.park = some (s.now + msT (s.cfg (pairIdx k) 0x1D)))) ∧
    (s.motor k = true → ¬hot → sets (.hbClearLatch .word g one) fun p' t =>
      p'.cmd = .free ∧ p'.act = .free ∧ p'.stage = .free ∧ p'.policy = .none ∧ (bget t.legs (legA k)).lcause = 0 ∧ (bget t.legs (legB k)).lcause = 0 ∧
        t.pairEdge k = none ∧ (∀ x ∈ t.adm.charges, x.code ≠ code) ∧ ∀ b, p'.base = some b → b.cmd.1 = .free ∧ b.edge = none) ∧
    (s.motor k = true → hot → Runs (.hbClearLatch .word g one) s fun t => t = s) ∧
    (∀ w : Word, (8 ≤ fld w 35 32 ∨ fld w 26 24 ≠ 0 ∨ fld w 35 32 = 5 ∧ (fld w 15 0 = 0 ∨ 5000 < fld w 15 0) ∨ ∃ i : Fin 4, w.getLsbD (28 + i.val) = true ∧
        (s.motor (pairIn g i) = false ∨ fld w 35 32 = 4 ∧ (bget s.pairs (pairIn g i)).posok = false)) →
      Runs (.hbMalformedWord g w) s fun t => Reports s t (0x39 + g.val) 28 ∧ t = { s with flt := t.flt }) ∧
    ((∀ i : Fin 4, s.motor (pairIn g i) = true) → Ascending (.hbFree .word g) s ∧ Ascending (.hbStop .word g) s ∧
      Ascending (fun m => .hbRun .word g m dir duty) s ∧ Ascending (fun m => .hbPark .word g m dir) s ∧ Ascending (.hbClearLatch .word g) s ∧
      (1 ≤ ms.toNat → ms.toNat ≤ 5000 → Ascending (fun m => .hbPulse .word g m dir ms) s) ∧
      ((∀ i : Fin 4, (bget s.pairs (pairIn g i)).posok = true) → Ascending (fun m => .hbMove .word g m target) s)) ∧
    (s.motor k = true → AsObject (fun v => .hbRun v g one dir duty) (pairIdx k) 2 [pairWord 3 dir duty.toNat] s ∧
      AsObject (fun v => .hbPark v g one dir) (pairIdx k) 2 [pairWord 6 dir 0] s ∧
      (1 ≤ ms.toNat → ms.toNat ≤ 5000 → AsObject (fun v => .hbPulse v g one dir ms) (pairIdx k) 2 [pairWord 5 dir ms.toNat] s) ∧
      (p.posok = true → AsObject (fun v => .hbMove v g one target) (pairIdx k) 2 [pairWord 4 false target.toNat] s) ∧ AsObject (fun v => .hbFree v g one) (pairIdx k) 2 [0x100000000] s ∧ AsObject (fun v => .hbStop v g one) (pairIdx k) 2 [0x200000000] s ∧
      AsObject (fun v => .hbClearLatch v g one) (pairIdx k) 2 [0x700000000] s)

/-- R152, R161, obj 0x2100 + n.01: a leg in MODE 0 takes its commands as energisations; in MODE 1 they are refused with 0x07. -/
def Obligations.LegCommands : Prop :=
  ∀ (n : Fin 16) (r : Requester) (s : State),
    let l := bget s.legs n
    let code := legCode n
    let sets (i : Instr) (post : Leg → State → Prop) : Prop := Runs i s fun t =>
      post (bget t.legs n) t ∧ t = { s with legs := t.legs, adm := t.adm, srv := t.srv } ∧ ∀ m, m ≠ n → bget t.legs m = bget s.legs m
    let turnsOn (i : Instr) (c : LegCmd) : Prop :=
      s.motor (pairOf n) = false → s.Unruled code → l.base = none → l.lcause = 0 → l.act = .off → s.pairHot (pairOf n) = false → s.Fits (s.legCharge n c) →
        sets i fun l' t => l'.cmd = c ∧ l'.act = c ∧ l'.brake = false ∧ t.adm.charges = setCharge s.adm.charges (s.legCharge n c)
    (s.Takes r (legIdx n) 1 [0] →
      (s.motor (pairOf n) = false → s.Unruled code → l.base = none → sets (.legOff r n) fun l' t =>
        l'.cmd = .off ∧ l'.act = .off ∧ l'.brake = false ∧ ∀ x ∈ t.adm.charges, x.code ≠ code) ∧
      (s.motor (pairOf n) = true → Runs (.legOff r n) s fun t => t = (s.noteAccess r).tell r (0x07, 0) [])) ∧
    (s.Takes r (legIdx n) 1 [1] → turnsOn (.legHighOn r n) .highOn) ∧
    (s.Takes r (legIdx n) 1 [2] → turnsOn (.legLowOn r n) .lowOn) ∧
    (s.Takes r (legIdx n) 1 [3] → turnsOn (.legPwm r n) .pwm)

/-- R156, R160, R163 to R169, R171, R172, R174, R176, R155: what a pair's motion generator, position, kinks, pinches and protection do. -/
def Obligations.PairEvents : Prop :=
  ∀ (k : Fin 8) (e : Nat) (s : State), s.Ahead e → s.motor k = true →
    let p := bget s.pairs k
    let ob (sub : Nat) : Nat := s.cfg (pairIdx k) sub
    let blk := 0x39 + k.val / 4
    let sets (i : Instr) (post : Pair → State → Prop) : Prop := Runs i s fun t =>
      post (bget t.pairs k) t ∧ t.mem = s.mem ∧ t.cores = s.cores ∧ t.dom = s.dom ∧ ∀ j, j ≠ k → bget t.pairs j = bget s.pairs j
    let brakes (p' : Pair) : Prop := p'.act = .stop ∧ p'.u = 0 ∧ p'.ustar = 0 ∧ p'.stage = .braking
    let stalls (p' : Pair) (t : State) : Prop := brakes p' ∧ p'.stall = true ∧ p'.stalls = satInc p.stalls ∧ ReportsNow s t blk (8 + k.val % 4)
    let near (end_ : Int) : Prop := (s.pos k - end_).natAbs ≤ s.endZ k
    let midway : Prop := (p.dir = true → ¬near (s.endN k)) ∧ (p.dir = false → ¬near (s.endP k))
    let waits (p' : Pair) (t : State) (at_ : Nat) : Prop :=
      if p.rev.isSome || p.ustar != 0 then p'.stage = .dwell (at_ + msT (ob 0x0C)) ∧ t.adm.charges = s.adm.charges
      else p'.stage = .held ∧ ∀ x ∈ t.adm.charges, x.code ≠ pairCode k
    (∀ d v, p.stage = .drive → e = p.stepAt + usT 100 → p.act = .run d v →
      (0 ≤ p.u → p.u ≤ p.ustar → p.ustar ≤ 1000 * s.ceiling k →
        sets (.limiterStep k) fun p' t => t.now = e ∧ p'.stepAt = e ∧ p'.ustar = p.ustar ∧ p'.u = min (p.u + (6553500 / ob 0x0A : Nat)) p.ustar) ∧
      (0 < p.u → p.ustar < 0 → 0 < s.ceiling k →
        sets (.limiterStep k) fun p' t => t.now = e ∧ p'.stepAt = e ∧ p'.ustar = p.ustar ∧ p'.u = max (p.u - (6553500 / ob 0x0B : Nat)) 0 ∧
          p'.stage = (if p.u ≤ (6553500 / ob 0x0B : Nat) then .braking else .drive))) ∧
    (p.stage = .braking → ob 0x0D = 0 → sets (.zeroSpeedDetect k) fun p' t => t.now = s.now ∧ waits p' t s.now) ∧
    (p.stage = .braking → e = p.brakeAt + msT 500 → sets (.zeroSpeedTimeout k) fun p' t =>
      t.now = e ∧ p'.zto = true ∧ ReportsNow s t blk (20 + k.val % 4) ∧ waits p' t e) ∧
    (∀ d v, p.stage = .dwell e → p.rev = none → p.act = .run d v → p.ustar ≠ 0 → s.pairInh k = false → sets (.dwellEnd k) fun p' t =>
      t.now = e ∧ p'.stage = .drive ∧ p'.u = 0 ∧ p'.ustar = p.ustar ∧ p'.startAt = e ∧ p'.dir = decide (p.ustar < 0) ∧ p'.runs = satInc p.runs) ∧
    (∀ d v, ob 0x0D = 2 → s.iop = true → p.rev = none → p.act = .run d v → -(2 ^ 30) < s.pos k → s.pos k < 2 ^ 30 →
      sets (.positionCount k .hall) fun p' t => t.pos k = s.pos k + (if p.dir then -1 else 1) ∧ p'.countAt = some s.now ∧ p'.u = p.u ∧ p'.stage = p.stage) ∧
    (ob 0x0D = 3 → s.iop = true → sets (.positionCount k .phaseError) fun p' t =>
      p' = { p with posok := false } ∧ t.pos k = s.pos k ∧ Reports s t blk (20 + k.val % 4)) ∧
    (∀ r v, s.Takes r (pairIdx k) 6 [v] →
      (p.u = 0 → sets (.posWrite r k v) fun p' t => t.pos k = v.toInt ∧ p' = { p with posok := true }) ∧
      (p.u ≠ 0 → Runs (.posWrite r k v) s fun t => t = (s.noteAccess r).tell r (0x07, 0) [])) ∧
    (s.moving k = true → s.programRuns k = true →
      (midway → sets (.kinkDetect k) fun p' t => stalls p' t ∧ t.pos k = s.pos k ∧ t.now = s.now) ∧
      (p.dir = false → near (s.endP k) → sets (.kinkDetect k) fun p' t =>
        brakes p' ∧ p'.posok = true ∧ p'.endp = true ∧ t.pos k = s.endP k ∧ t.flt = s.flt) ∧
      (p.dir = true → near (s.endN k) → sets (.kinkDetect k) fun p' t =>
        brakes p' ∧ p'.posok = true ∧ p'.endn = true ∧ t.pos k = s.endN k ∧ t.flt = s.flt)) ∧
    (s.moving k = true → e = p.countAt.getD p.startAt + msT (ob 0x13) → midway → sets (.stallTimeout k) fun p' t => t.now = e ∧ stalls p' t) ∧
    (∀ f, p.fAt = some f → e = f + msT (ob 0x18) → (s.at e).pinchZone k = true → sets (.pinchDetect k) fun p' t =>
      t.now = e ∧ brakes p' ∧ p'.pinch = true ∧ p'.pinches = satInc p.pinches ∧
        p'.rev = some { dir := !p.dir, duty := p.u.natAbs / 1000, left := ob 0x1A } ∧ ReportsNow s t blk (12 + k.val % 4)) ∧
    (∀ d, p.act = .park d → p.stage = .drive → s.operandIn (ob 0x1C) = true → sets (.parkInputActive k) fun p' t =>
      brakes p' ∧ p'.parked = true ∧ t = { s with pairs := t.pairs }) ∧
    (p.park = some e → p.stage = .drive → sets (.parkTimeout k) fun p' t => t.now = e ∧ brakes p' ∧ ReportsNow s t blk (8 + k.val % 4)) ∧
    (p.pulse = some e → p.stage = .drive → sets (.pulseEnd k) fun p' t => t.now = e ∧ brakes p' ∧ t.flt.inflight = s.flt.inflight) ∧
    (ob 9 ≠ 0 → p.stage = .drive → sets (.currentLimitAct k) fun p' t => p' = { p with clim := true, dirty := true } ∧ t = { s with pairs := t.pairs }) ∧
    (s.srv.commits = [] → sets (.pairPwmPeriodBoundary k) fun p' t => p' = { p with clim := false } ∧ t = { s with pairs := t.pairs, adm := t.adm }) ∧
    (∀ (n : Fin 16) (high : Bool), n.val / 2 = k.val →
      let first (l : Leg) (cause : BitVec 3) : BitVec 3 := if l.lcause = 0 then cause else l.lcause
      (sets (.hbOvercurrentTrip n high) fun p' t =>
        p'.stage = .free ∧ p'.u = 0 ∧ (∀ m : Fin 16, m.val / 2 = k.val → (bget t.legs m).lcause = first (bget s.legs m) (if high then 1 else 2)) ∧
          (bget t.legs n).trips = satInc (bget s.legs n).trips ∧ Reports s t (0x39 + n.val / 8) (n.val % 8) ∧ ∀ x ∈ t.adm.charges, x.code ≠ pairCode k) ∧
      (sets (.crossConduction n) fun p' t =>
        p'.stage = .free ∧ (bget t.legs n).lcause = first (bget s.legs n) 3 ∧ Reports s t (0x39 + n.val / 8) 30))

/-- R200, R202, R204, R212 to R215: commands of the valve block. -/
def Obligations.ValveCommands : Prop :=
  ∀ (n : Fin 12) (ms : BitVec 16) (s : State), s.iop = true →
    let v := bget s.vd n
    let b := bankOf n
    let code := valveCode n
    let one : BitVec 12 := BitVec.ofNat 12 (2 ^ n.val)
    let sets (i : Instr) (post : Valve → State → Prop) : Prop := Runs i s fun t => post (bget t.vd n) t ∧ Apart s t ∧
      ∀ m : Fin 12, m.val / 3 ≠ n.val / 3 → bget t.vd m = bget s.vd m
    let commanded : Prop := bget s.adm.level (tgtFin code) = none ∧ s.safeOf code = none ∧ v.base = none
    let ready : Prop := commanded ∧ s.Unruled code ∧ v.lcause = 0 ∧ (bget s.vb b).latch = false ∧ s.bankOn b = true ∧ v.stage = .off ∧ v.again = none ∧
      (bget s.th 11).hot = false ∧ s.Fits (s.valveCharge n) ∧ (s.cfg (valveIdx n) 0x0A = 0 ∨ s.startDelay b ≤ msT (s.cfg (valveIdx n) 0x0A))
    let starts (i : Instr) (ms : Nat) : Prop := ready → s.bankOwner b = none → sets i fun v' t =>
      v'.cmd = true ∧ v'.stage = .peak s.now ∧ v'.acts = satInc v.acts ∧ v'.onFrom = some s.now ∧
        v'.pulse = (if ms = 0 then none else some (s.now + msT ms)) ∧ (bget t.vb b).peaks = satInc (bget s.vb b).peaks ∧
        t.adm.charges = setCharge s.adm.charges (s.valveCharge n) ∧
        (if s.boost.vout < 100 * s.cfg boostIdx 3 then v'.bat = true ∧ Reports s t 0x3C 3 else v'.bat = false ∧ t.flt = s.flt)
    let queues (i : Instr) : Prop := ready → (s.bankOwner b).isSome = true → sets i fun v' t =>
      v'.cmd = true ∧ v'.stage = .queued ∧ v'.acts = v.acts ∧ (bget t.vb b).queue = (bget s.vb b).queue ++ [n] ∧ t.flt = s.flt
    let hot : Prop := v.lcause = 3 ∧ 2400 ≤ bget s.sup.tj 11
    (∀ m, Runs (.valveNop m) s fun t => t = s) ∧
    (commanded →
      (v.stage = .hold → sets (.valveOff .word one) fun v' t =>
        v'.cmd = false ∧ v'.stage = .decay none ∧ v'.offAt = s.now ∧ v'.pulse = none ∧ ∀ x ∈ t.adm.charges, x.code ≠ code) ∧
      (v.stage = .queued → v.again = none → sets (.valveOff .word one) fun v' t =>
        v'.cmd = false ∧ v'.stage = .off ∧ n ∉ (bget t.vb b).queue ∧ t.vq = s.vq ∧ ∀ x ∈ t.adm.charges, x.code ≠ code) ∧
      (∀ t0 m, v.stage = .peak t0 → (bget s.vb b).queue = [m] → m ≠ n → bankOf m = b → s.mayPeak m = true → sets (.valveOff .word one) fun v' t =>
        v'.cmd = false ∧ v'.stage = .decay none ∧ (bget t.vd m).stage = .peak s.now ∧ (bget t.vb b).queue = [])) ∧
    starts (.valveOn .word one) 0 ∧ queues (.valveOn .word one) ∧
    (1 ≤ ms.toNat → ms.toNat ≤ 60000 → starts (.valvePulse one ms) ms.toNat ∧ queues (.valvePulse one ms)) ∧
    (v.lcause ≠ 0 → ¬hot → sets (.valveClearLatch .word one) fun v' t =>
      v'.lcause = 0 ∧ v'.cmd = false ∧ v'.stage = v.stage ∧ t = { s with vd := t.vd, adm := t.adm }) ∧
    (hot → Runs (.valveClearLatch .word one) s fun t => t = s) ∧
    (∀ w : Word, (5 ≤ fld w 35 32 ∨ fld w 19 16 ≠ 0 ∨ (if fld w 35 32 = 3 then fld w 15 0 = 0 ∨ 60000 < fld w 15 0 else fld w 15 0 ≠ 0)) →
      Runs (.valveMalformedWord w) s fun t => Reports s t 0x3B 31 ∧ t = { s with flt := t.flt }) ∧
    (∀ x, Ascending (.valveOff x) s ∧ Ascending (.valveOn x) s ∧ Ascending (.valveClearLatch x) s) ∧
    (1 ≤ ms.toNat → ms.toNat ≤ 60000 → Ascending (fun m => .valvePulse m ms) s) ∧
    AsObject (fun x => .valveOff x one) (valveIdx n) 1 [0] s ∧ AsObject (fun x => .valveOn x one) (valveIdx n) 1 [1] s ∧
    AsObject (fun x => .valveClearLatch x one) (valveIdx n) 2 [1] s

/-- R194 to R198, R200, R210, R211, R213, R215: the stages of an activation, its limits and its latches. -/
def Obligations.ValveEvents : Prop :=
  ∀ (n : Fin 12) (t0 e z energy : Nat) (s : State), s.Ahead e →
    let v := bget s.vd n
    let b := bankOf n
    let set := s.valveSet n
    let last := t0 + hundredUs set.pkmax
    let first (c : BitVec 3) : BitVec 3 := if v.lcause = 0 then c else v.lcause
    let sets (i : Instr) (post : Valve → State → Prop) : Prop := Runs i s fun t => post (bget t.vd n) t ∧ Apart s t
    let seen : Prop := s.iop = true ∧ v.unseen = false
    (∀ dip, v.stage = .peak t0 → v.pulled = none → s.peakHold b = true → e = t0 + usT (10 * dip) → e ≤ last → dip < 2 ^ 16 →
      sets (.pullInDetect n dip) fun v' t => t.now = e ∧ v'.pulled = some e ∧ v'.tpi.toNat = dip ∧ v'.stage = v.stage) ∧
    (v.stage = .peak t0 → (bget s.vb b).queue = [] → seen →
      (e = last → set.pidet = false → energy ≤ set.epk → sets (.valvePeakEnd n .pkMax energy) fun v' t =>
        t.now = e ∧ v'.stage = .fall ∧ v'.epk = energy ∧ v'.nopull = false ∧ v'.elim = false ∧ t.flt.inflight = s.flt.inflight) ∧
      (e = last → set.pidet = true → s.peakHold b = true → v.fb = false → v.pulled = none → energy ≤ set.epk → sets (.valvePeakEnd n .pkMax energy) fun v' t =>
        t.now = e ∧ v'.stage = .fall ∧ v'.nopull = true ∧ v'.nopulls = satInc v.nopulls ∧ ReportsNow s t 0x3B (12 + n.val)) ∧
      (∀ p0, set.pidet = true → s.peakHold b = true → v.pulled = some p0 → e = p0 + hundredUs set.pkext → e ≤ last → energy ≤ set.epk →
        sets (.valvePeakEnd n .pullIn energy) fun v' t => t.now = e ∧ v'.stage = .fall ∧ v'.epk = energy ∧ v'.nopull = false) ∧
      (set.epk ≤ energy → sets (.valvePeakEnd n .energy energy) fun v' t =>
        t.now = s.now ∧ v'.stage = .fall ∧ v'.elim = true ∧ Reports s t 0x3B (12 + n.val))) ∧
    (∀ m, v.stage = .peak t0 → (bget s.vb b).queue = [m] → m ≠ n → bankOf m = b → s.mayPeak m = true → e = last → set.pidet = false →
      energy ≤ set.epk → sets (.valvePeakEnd n .pkMax energy) fun v' t => v'.stage = .fall ∧ (bget t.vd m).stage = .peak e ∧ (bget t.vb b).queue = []) ∧
    (v.stage = .fall → sets (.valveHoldStart n) fun v' t => v' = { v with stage := .hold } ∧ t = { s with vd := t.vd }) ∧
    (v.stage = .decay none → seen → v.again = none → v.bat = false → v.epk < 2 ^ 16 → energy < 2 ^ 16 →
      let ratio := if v.epk = 0 then 0 else min 1000 (energy * 1000 / v.epk)
      sets (.valveDecayEnd n energy) fun v' t =>
        v'.epkl.toNat = v.epk ∧ v'.erecl.toNat = energy ∧ v'.rfrac.toNat = ratio ∧
          (if set.relt = 0 || !s.peakHold b then v'.stage = .off ∧ v'.trel = 0xFFFF else v'.stage = .decay (some s.now) ∧ t.vq = s.vq)) ∧
    (v.stage = .decay (some z) → s.peakHold b = true → v.again = none →
      (s.now ≤ z + msT set.relt → v.offAt ≤ s.now → sets (.releaseDetect n) fun v' t =>
        v'.stage = .off ∧ v'.norel = false ∧ v'.trel.toNat = min 0xFFFE ((s.now - v.offAt) / 1000) ∧ t.flt = s.flt) ∧
      (e = z + msT set.relt → sets (.releaseTimeout n) fun v' t =>
        t.now = e ∧ v'.stage = .off ∧ v'.norel = true ∧ v'.trel = 0xFFFF ∧ ReportsNow s t 0x3B (12 + n.val))) ∧
    (v.stage = .hold →
      (v.pulse = some e → sets (.valvePulseEnd n) fun v' t =>
        t.now = e ∧ v'.cmd = false ∧ v'.stage = .decay none ∧ v'.offAt = e ∧ v'.pulse = none ∧ v'.lcause = v.lcause) ∧
      (v.onFrom.isSome = true → set.dlim ≠ 100 → dutyReach v set.dwin set.dutyLimit 6002 s.now = some e →
        sets (.dutyLimitReached n) fun v' t => t.now = e ∧ v'.stage = .decay none ∧ v'.lcause = first 4 ∧ ReportsNow s t 0x3B (12 + n.val)) ∧
      (sets (.valveOvercurrentTrip n) fun v' t =>
        v'.stage = .decay none ∧ v'.lcause = first 1 ∧ v'.trips = satInc v.trips ∧ Reports s t 0x3B n.val ∧ ∀ x ∈ t.adm.charges, x.code ≠ valveCode n)) ∧
    (v.lcause = 4 → dutyCool v set.dwin set.dutyLimit 6002 s.now = some e → sets (.dutyLatchSelfClear n) fun v' t =>
      t.now = e ∧ v'.lcause = 0 ∧ v'.cmd = false ∧ v'.stage = v.stage)

/-- R205 to R209, R215, R222: bank switches, their clear, and the boost converter. -/
def Obligations.BanksAndBoost : Prop :=
  ∀ (b : Fin 4) (vout e : Nat) (r : Requester) (s : State), s.Ahead e →
    let u := s.boost
    let vset := s.cfg boostIdx 2
    let vbmin := s.cfg boostIdx 3
    let bcht := msT (s.cfg boostIdx 6)
    (s.bankOn b = true → (bget s.vb b).latch = false → s.ValvesLined →
      Runs (.bankSwitchTrip b) s fun t =>
        (bget t.vb b).latch = true ∧ (bget t.vb b).queue = [] ∧ Reports s t 0x3B (24 + b.val) ∧ Apart s t ∧
          (∀ c, let v := bget s.vd (valveIn b c)
            (bget t.vd (valveIn b c)).lcause = (if v.lcause = 0 then 2 else v.lcause) ∧ (bget t.vd (valveIn b c)).stage.conducts = false) ∧
          ∀ m, bankOf m ≠ b → bget t.vd m = bget s.vd m) ∧
    (s.Takes r (bankIdx b) 3 [1] → Runs (.bankClear r b) s fun t =>
      (bget t.vb b).latch = false ∧ (∀ c, let v := bget s.vd (valveIn b c)
        (bget t.vd (valveIn b c)).lcause = (if v.lcause = 2 then 0 else v.lcause) ∧ (bget t.vd (valveIn b c)).stage = v.stage) ∧
        ∀ m, bankOf m ≠ b → bget t.vd m = bget s.vd m) ∧
    (u.run = true → u.reached = false → 98 * vset ≤ vout → 100 * vbmin ≤ vout → Runs (.boostSetpointReached vout) s fun t =>
      t.boost = { u with vout := vout, reached := true, chEnds := none, cest := t.boost.cest } ∧
        (let low := t.boost.cest.toNat * 100 < 70 * s.cfg boostIdx 4
         let high := 130 * s.cfg boostIdx 4 < t.boost.cest.toNat * 100
         if low ∨ high then Reports s t 0x3C 6 else t.flt = s.flt) ∧ Apart s t) ∧
    (u.run = true → u.chEnds = some e → Runs .boostChargeTimeout s fun t =>
      t.now = e ∧ t.boost = { u with run := false, reached := false, chEnds := none, latched := true } ∧ ReportsNow s t 0x3C 1 ∧
        (∀ x ∈ t.adm.charges, x.code ≠ 0xAB) ∧ Apart s t) ∧
    (s.Takes r boostIdx 0x0A [1] → u.latched = true → u.run = false → s.cfgB boostIdx 1 = true → s.heldOff = false → s.sup.crank = false → s.asleep = false →
      (bget s.th 12).hot = false → s.isShed 0xAB = false → s.isDeferred 0xAB = false → s.Fits s.boostCharge → Runs (.boostClear r) s fun t =>
        t.boost = { u with latched := false, run := true, halted := false, reached := false, chFrom := s.now, chVout := u.vout, chEnds := some (s.now + bcht) } ∧
          t.adm.charges = setCharge s.adm.charges s.boostCharge) ∧
    (100 * (vset + 3) < vout → 100 * vbmin ≤ vout → Runs (.boostOvervoltage vout) s fun t =>
      t.boost = { u with vout := vout } ∧ (if 6800 < vout then Reports s t 0x3C 0 else t.flt = s.flt) ∧ t = { s with boost := t.boost, flt := t.flt }) ∧
    (s.boostSink = true → 500 ≤ u.vout → Runs .boostDischarged s fun t =>
      t.boost.vout < 500 ∧ t = { s with boost := { u with vout := t.boost.vout }, free := t.free }) ∧
    (vout < 100 * vbmin → Runs (.boostRailTooLow b vout) s fun t =>
      (∀ a n, s.bankOwner a = some n → (bget t.vd n).bat = true ∧ (bget t.vd n).stage = (bget s.vd n).stage ∧
        ((bget s.vd n).bat = false → (bget t.vd n).batpk = true ∧ (bget t.vb a).batpks = satInc (bget s.vb a).batpks)) ∧
      (∀ n, s.bankOwner b = some n → (∀ a, a ≠ b → s.bankOwner a = none) → (bget s.vd n).bat = false → Reports s t 0x3C 3) ∧
        (u.run = true ∧ 100 * vbmin ≤ u.vout →
          t.boost = { u with vout := vout, reached := false, chFrom := s.now, chVout := vout, chEnds := some (s.now + bcht) }) ∧
        (u.run = false ∨ u.vout < 100 * vbmin → t.boost = { u with vout := vout })) ∧
    (u.run = true → Runs .boostSwitchOvercurrent s fun t => Reports s t 0x3C 2 ∧ t = { s with flt := t.flt })

/-- R228 to R235: LED sinks: levels and fades, on-times with their carried remainder, latches, sheds. -/
def Obligations.LedSinks : Prop :=
  ∀ (n : Fin 24) (x fade : BitVec 16) (r : Requester) (e : Nat) (s : State), s.Ahead e →
    let k := bget s.sinks n
    let freq := s.cfg (sinkIdx n) 7
    let period := s.sinkPeriod n
    let l (x : Nat) : Nat := s.sinkL n x
    let first (c : BitVec 2) : BitVec 2 := if k.lcause = 0 then c else k.lcause
    let sets (i : Instr) (post : Sink → State → Prop) : Prop := Runs i s fun t =>
      post (bget t.sinks n) t ∧ t.mem = s.mem ∧ t.cores = s.cores ∧ t.fab = s.fab ∧ t.dom = s.dom ∧ ∀ m, m ≠ n → bget t.sinks m = bget s.sinks m
    let fades (k' : Sink) (ms : Nat) : Prop :=
      k' = { k with last := x.toNat, x0 := k.x, goal := x.toNat, k := 0, steps := max 1 ((ms * freq + 999) / 1000) }
    let latches (i : Instr) (c : BitVec 2) : Prop := sets i fun k' t =>
      k'.lcause = first c ∧ k'.x = 0 ∧ k'.onTicks = 0 ∧ Reports s t 0x40 n.val ∧ ∀ y ∈ t.adm.charges, y.code ≠ sinkCode n
    (Runs (.ledNop n) s fun t => t = s) ∧
    (s.safeOf (sinkCode n) = none → l x.toNat ≤ s.sinkDuty n →
      (s.iop = true → fade.toNat < 2048 → sets (.ledLevel .word n x fade) fun k' t => fades k' (10 * fade.toNat) ∧ t.flt = s.flt ∧ t.srv = s.srv) ∧
      (s.Takes r (sinkIdx n) 1 [wd x.toNat] → sets (.ledLevel (.object r) n x fade) fun k' t => fades k' (s.cfg (sinkIdx n) 2) ∧ t.flt = s.flt)) ∧
    (s.Unruled (sinkCode n) → s.sinkDuty n < l x.toNat → s.sup.ov = false → k.lcause = 0 → s.Fits (s.sinkCharge n (l x.toNat)) → s.iop = true →
      fade.toNat < 2048 → sets (.ledLevel .word n x fade) fun k' t =>
        fades k' (10 * fade.toNat) ∧ t.adm.charges = setCharge s.adm.charges (s.sinkCharge n (l x.toNat)) ∧ t.flt = s.flt) ∧
    (s.iop = true → (k.lcause = 2 → k.hot = false) → sets (.ledClearLatch .word n) fun k' t =>
      k'.lcause = 0 ∧ k'.x = 0 ∧ k'.goal = 0 ∧ k'.last = 0 ∧ t.flt = s.flt ∧ ∀ y ∈ t.adm.charges, y.code ≠ sinkCode n) ∧
    (k.lcause = 2 → k.hot = true → Runs (.ledClearLatch .word n) s fun t => t = s) ∧
    AsObject (fun v => .ledClearLatch v n) (sinkIdx n) 3 [1] s ∧
    (∀ w : Word, s.iop = true → (3 ≤ fld w 35 32 ∨ 24 ≤ fld w 31 27 ∨ fld w 35 32 ≠ 1 ∧ (fld w 26 16 ≠ 0 ∨ fld w 15 0 ≠ 0)) →
      Runs (.ledMalformedWord w) s fun t => Reports s t 0x40 25 ∧ t = { s with flt := t.flt }) ∧
    (∀ reached, s.iop = true → k.lastBnd = none → s.srv.commits = [] → 0 < period → s.now + period < 2 ^ 72 → sets (.ledPeriodBoundary n reached) fun k' t =>
      let on := period * t.sinkDuty n + k.rem
      s.now ≤ t.now ∧ t.now < s.now + period ∧ t.now % period = n.val * period / 24 % period ∧ k'.lastBnd = some t.now ∧
        k'.onTicks = on / 65535 ∧ k'.rem = on % 65535 ∧
        k'.ol = (k.ol && !(reached && decide (k.lcause = 0) && !s.sinkHeld n && k.onTicks != 0)) ∧
        k'.x = (if k.steps = 0 then k.x else if k.k + 1 = k.steps then k.goal else fadeLevel k.x0 k.goal (k.k + 1) k.steps)) ∧
    (s.sinkLit n = true →
      (sets (.ledOpenString n) fun k' t => k' = { k with ol := true } ∧ if k.ol then t.flt = s.flt else Reports s t 0x40 n.val) ∧
      (usT 50 ≤ k.onTicks → latches (.ledStringShort n) 1) ∧ latches (.ledThermalShutdown n) 2) ∧
    (∀ a, k.shedAt = some a → k.shoff = false → e = a + secT (s.cfg (sinkIdx n) 0x0C) → (∀ m, m ≠ n → (bget s.sinks m).shedAt = none) →
      sets (.shedOffTimeout (.sinks (s.classOf (sinkCode n)))) fun k' t =>
        t.now = e ∧ k'.shoff = true ∧ k'.goal = 0 ∧ k'.x0 = k.x ∧ k'.steps = max 1 ((500 * freq + 999) / 1000)) ∧
    (∀ a, s.chain.shedAt = some a → s.chain.shoff = false → e = a + secT (s.cfg chainIdx 8) → Runs (.shedOffTimeout .chain) s fun t =>
      t.now = e ∧ t.chain = { s.chain with shoff := true } ∧ t.sinks = s.sinks) ∧
    (∀ a, s.matrix.shedAt = some a → s.matrix.shoff = false → e = a + secT (s.cfg matrixIdx 0x0E) → Runs (.shedOffTimeout .matrix) s fun t =>
      t.now = e ∧ t.matrix = { s.matrix with shoff := true } ∧ t.sinks = s.sinks)

/-- R239 to R242, R245, R247, R248: refreshes of the driver chain, frames of the matrix and their synchronisation. -/
def Obligations.ChainAndMatrix : Prop :=
  ∀ (buf : Byte) (bad : List Nat) (e : Nat) (s : State), s.Ahead e → s.iop = true → s.srv.commits = [] →
    let c := s.chain
    let m := s.matrix
    let cper := msT (s.cfg chainIdx 4)
    let image := (memReadN s.mem (s.cfg chainIdx 5) (16 * s.cfg chainIdx 2)).map fun w => w.truncate 16
    let shown := m.pend.getD m.shown
    let rows := bad.filter (· < s.cfg matrixIdx 2)
    let apart (t : State) : Prop := Apart s t ∧ t.sinks = s.sinks
    (Runs .chainNop s fun t => t = s) ∧
    (Runs (.chainSetCgo .word) s fun t => t = { s with chain := { c with cgo := true } }) ∧
    AsObject .chainSetCgo chainIdx 9 [1] s ∧
    (s.cfgB chainIdx 1 = true → c.lastAt = none → 0 < cper → s.now + cper < 2 ^ 72 → c.cgo = true → s.safeOf 0x98 = none →
      (Runs (.chainRefresh true) s fun t => s.now ≤ t.now ∧ t.now < s.now + cper ∧ t.now % cper = 0 ∧ t.matrix = m ∧ apart t ∧
        t.chain = { c with cgo := false, cerr := false, store := some image, sent := image.map s.chainOut, refresh := satInc c.refresh,
                           lastAt := some t.now, shiftEnds := t.now + s.chainTicks }) ∧
      (Runs (.chainRefresh false) s fun t => t.now % cper = 0 ∧ t.chain.cgo = true ∧ t.chain.cerr = true ∧ t.chain.store = c.store ∧
        ReportsNow s t 0x41 3 ∧ apart t)) ∧
    (∀ w : Word, (3 ≤ fld w 35 32 ∨ fld w 31 1 ≠ 0 ∨ fld w 35 32 ≠ 2 ∧ fld w 0 0 ≠ 0) → Runs (.chainMalformedWord w) s fun t =>
      Reports s t 0x41 4 ∧ t = { s with flt := t.flt }) ∧
    (Runs (.matrixShow .word buf) s fun t =>
      t.matrix = { m with pend := if buf.getLsbD 0 = m.shown then none else some (buf.getLsbD 0) } ∧ t.chain = c ∧
        t.cfg matrixIdx 0x0F = (if buf.getLsbD 0 then 1 else 0)) ∧
    AsObject (fun v => .matrixShow v buf) matrixIdx 0x0F [wd buf.toNat] s ∧
    (s.cfgB matrixIdx 1 = true → s.srv.per = [] → s.safeOf 0x99 = none →
      (s.fsync = false → m.start = none → 0 < s.mfp → s.now + s.mfp < 2 ^ 72 → Runs (.matrixFrameStart bad) s fun t =>
        s.now ≤ t.now ∧ t.now < s.now + s.mfp ∧ t.now % s.mfp = 0 ∧
          t.matrix = { m with shown := shown, pend := none, start := some t.now, ends := t.now + s.mtimes.frame, blank := rows,
                              perr := m.perr || !rows.isEmpty, mdim := s.cfg matrixIdx 0x0C, frames := satInc m.frames } ∧
          (if rows = [] then t.flt.inflight = s.flt.inflight else ReportsNow s t 0x41 2) ∧ t.chain = c ∧ apart t) ∧
      (s.fsync = true →
        (∀ b, m.start = some b → b + usT 1 ≤ s.now → m.ends ≤ s.now → Runs (.fsyncEdge bad) s fun t =>
          t.now = s.now ∧ t.matrix.edge = some s.now ∧ t.matrix.start = some s.now ∧ t.matrix.shown = shown ∧ t.matrix.fslost = false ∧
            t.matrix.frames = satInc m.frames ∧ t.matrix.slips = m.slips ∧ t.matrix.blank = rows ∧
            (if rows = [] then t.flt = s.flt else Reports s t 0x41 2) ∧ apart t) ∧
        (∀ b, m.start = some b → b + usT 1 ≤ s.now → s.now < m.ends → e = rowEnd s.mtimes b s.now → Runs (.fsyncEdge bad) s fun t =>
          t.now = e ∧ t.matrix.edge = some s.now ∧ t.matrix.start = some e ∧ t.matrix.shown = shown ∧ t.matrix.slips = satInc m.slips ∧
            t.matrix.blank = rows ∧ (rows = [] → ReportsNow s t 0x41 1) ∧ apart t) ∧
        (m.fslost = false → e = m.watch + msT (s.cfg matrixIdx 0x0B) → Runs .fsyncLost s fun t =>
          t.now = e ∧ t.matrix = { m with fslost := true } ∧ ReportsNow s t 0x41 0 ∧ apart t)))

/-- R254, R257, R266, R268, R273, R277, R278: releases, steps of law 0, missed samples, stream frames and MODE.  R281, R283, R284: a tile that fails holds its loops' outputs; the spare takes its place and loads them from their checkpoints. -/
def Obligations.Loops : Prop :=
  (∀ (m : Fin 360) (t0 : Fin 16) (j : Fin 24) (e : Nat) (s : State), s.Ahead e → s.up 3 = true → (s.loop m).place = some (t0, j) →
     (s.tile t0).role = .scheduled → (s.loop m).held = false →
     let l := s.loop m
     let ob (sub : Nat) : Nat := s.cfg (loopIdx m) sub
     let ts := ob 5
     let sets (i : Instr) (post : Loop → State → Prop) : Prop := Runs i s fun t =>
       post (t.loop m) t ∧ t.mem = s.mem ∧ t.cores = s.cores ∧ t.dom = s.dom ∧ ∀ n, n ≠ m → t.loop n = s.loop n
     let missed (l' : Loop) : Prop := l'.ovrs = satInc l.ovrs ∧ l'.rel = none ∧ l'.y = l.y ∧ l'.sent = l.sent ∧ l'.core.i = l.core.i ∧ l'.steps = l.steps
     (s.pwr.mode = .run → s.srv.commits = [] → l.out = none → l.rel = none → l.safe = none → l.modeReq = false → l.lastRel = none → l.from_ ≤ s.now →
       ob 6 < ts → ob 0x1D = 0 → s.now + ts < 2 ^ 72 →
       (l.mode ≠ 0 → sets (.loopRelease m) fun l' t =>
         s.now ≤ t.now ∧ t.now < s.now + ts ∧ t.now % ts = ob 6 ∧ l'.lastRel = some t.now ∧ l'.core = l.core ∧ l'.y = l.y ∧
           ∃ i, l'.rel = some { at_ := t.now, deadline := t.now + ts, inputs := some i }) ∧
       (l.mode = 0 → sets (.loopRelease m) fun l' t => t.now % ts = ob 6 ∧ l' = { l with lastRel := some t.now })) ∧
     (∀ (r : LoopRel) (inp : LoopInputs) (y sp w : Int), s.nextStep t0 = some (m, r, inp) → inp.y = some y → inp.sp = some sp → inp.w = some w →
       (s.tile t0).again = none →
       (let g := s.loopCfg m
        let err := sp - y
        let u := rndSig (accSum [g.c 0 0 * err, l.core.i])
        let v := clipI g.ymin g.ymax u
        l.mode = 2 → g.law = 0 → g.nreg = 1 → l.core.region = 0 → g.sprate = 0 → g.rth = 0 → l.remap = false → l.entry = false → l.restart = false →
          l.vref = none → l.fresh = false → s.holdsBack m = 0 → ob 0x18 = 0 → ob 0x1B = 0 →
          sets (.loopStep t0 false) fun l' t =>
            l'.y = v ∧ l'.sent = v ∧ l'.core.i = satState (accSum [l.core.i, g.c 0 1 * err, g.c 0 2 * (v - u)]) ∧ l'.steps = satInc l.steps ∧
              l'.rel = none ∧ l'.lastOk = some r.at_ ∧ l'.core.missc = 0 ∧ t = { s with eng := t.eng }) ∧
       ((s.tile t0).retry < 10 → sets (.loopStep t0 true) fun l' t =>
         l' = l ∧ t.tile t0 = { s.tile t0 with retry := (s.tile t0).retry + 1, again := some m } ∧ t = { s with eng := t.eng })) ∧
     (∀ a d, l.rel = some { at_ := a, deadline := d, inputs := none } → e = a + ob 0x1D →
       (l.core.missc < 2 → sets (.loopWaitExpire m) fun l' t =>
         t.now = e ∧ missed l' ∧ l'.core.missc = l.core.missc + 1 ∧ l'.safe = l.safe ∧ ReportsNow s t (0x20 + t0.val) 3) ∧
       (2 ≤ l.core.missc → ob 0x1E = 0 → sets (.loopWaitExpire m) fun l' t =>
         t.now = e ∧ missed l' ∧ l'.safe = some 0 ∧ ∃ x y, t.flt.inflight = s.flt.inflight ++ [x, y] ∧ x.src = (0x20 + t0.val) * 32 + 3 ∧
           y.src = (0x20 + t0.val) * 32 + 4)) ∧
     (∀ r i, l.out = none → l.rel = some r → r.inputs = some i → r.deadline = e → l.core.missc < 2 → sets (.loopDeadline m) fun l' t =>
       t.now = e ∧ missed l' ∧ l'.core.missc = l.core.missc + 1) ∧
     (∀ v, l.out = some (v, e) → l.rel = none → ob 0x18 = 0 → sets (.loopDeadline m) fun l' t => t.now = e ∧ l' = { l with out := none, sent := v }) ∧
     (∀ (ep : BitVec 16) (ws : List Word), (∀ n, (s.loop n).rel.any (·.inputs.isNone) = false) → Runs (.loopStreamArrival ep ws) s fun t =>
       t.newest ep.toNat = some { serial := ((s.newest ep.toNat).map (·.serial)).getD 0 + 1,
                                  octets := if (unpackFrame ws).2 then (unpackFrame ws).1 else plainOcts ws } ∧
         (∀ k, k ≠ ep.toNat → t.newest k = s.newest k) ∧ t.eng.loops = s.eng.loops ∧ t = { s with eng := t.eng }) ∧
     (∀ (req : Requester) (i : Instr) (v : Nat), (i, v) ∈ [(.loopModeOff req m, 0), (.loopModeManual req m, 1), (.loopModeAuto req m, 2)] →
       s.Takes req (loopIdx m) 1 [wd v] → sets i fun l' t =>
         t.cfg (loopIdx m) 1 = v ∧ l' = { l with modeReq := true, rsm := false, cold := false })) ∧
  (∀ (t0 sp : Fin 16) (m : Fin 360) (j : Fin 24) (e : Nat) (s : State), s.Ahead e → s.up 3 = true → s.eng.remap = none →
     let l := s.loop m
     let fails (i : Instr) : Prop := Runs i s fun t =>
       (t.tile t0).role = .failed ∧ (∃ x r, t.flt.inflight = s.flt.inflight ++ x :: r ∧ x.src = (0x20 + t0.val) * 32) ∧ t.now = s.now ∧ t.mem = s.mem ∧
         (l.place = some (t0, j) → l.safe = none → t.loop m = { l with rel := none, out := none, held := true }) ∧
         t.eng.remap = some { tile := t0, spare := sp, failed := s.now, strobe := none }
     ((s.tile t0).role = .scheduled → s.loopsOn t0 ≠ [] → sp ≠ t0 → (s.tile sp).role = .spare → (∀ x, x ≠ sp → (s.tile x).role ≠ .spare) →
       fails (.tileFailure t0) ∧
       (∀ x, s.stepNow t0 = some x → ((s.tile t0).again = some x.1 ∨ 10 ≤ (s.tile t0).retry) → fails (.loopStep t0 true))) ∧
     (∀ b f c s', e = b + usT 20 → l.place = some (sp, j) → l.held = true → l.ckpt = some c →
       s' = s.onEng (fun g => { g with remap := some { tile := t0, spare := sp, failed := f, strobe := some b } }) →
       Runs .remapLoadDone s' fun t =>
         t.now = e ∧ t.eng.remap = none ∧ (t.loop m).held = false ∧ (t.loop m).remap = true ∧ (t.loop m).from_ = e ∧ (t.loop m).sent = l.sent ∧
           (c.valid = true → (t.loop m).core = c.core ∧ (t.loop m).cold = l.cold) ∧
           (c.valid = false → (t.loop m).core = LoopCore.zero ∧ (t.loop m).cold = true ∧
             (l.mode = 2 → (t.loop m).vref = some l.sent)) ∧ Apart s t))

/-- R349, R350, R352 to R354, R357, R358, R363, R366: classes, debounce, chatter, the integrating filter and their queue entries; the low end of the
open band; output pins; AREF.  A pin's heat is that found at the strobe, or set by its thermal event (log 35). -/
def Obligations.InputsAndPins : Prop :=
  ∀ (i : Fin 80) (n : Fin 16) (mV : Nat) (r : Requester) (e : Nat) (s : State), s.Ahead e →
    let u := bget s.inputs i
    let four := s.cfgB (inIdx i) 2
    let deb := s.cfg (inIdx i) 4
    let chatt := msT (s.cfg (inIdx i) 5)
    let tact := s.cfg (inIdx i) 6
    let topen := s.cfg (inIdx i) 7
    let blk := if i.val < 64 then 0x3D else 0x3E
    let cls : InClass := if mV < 500 ∧ four = true then .short else if mV < 500 ∨ mV < tact then .active
      else if topen ≤ mV ∧ four = true then .open_ else .inactive
    let onlyIn (t : State) : Prop := t.mem = s.mem ∧ t.cores = s.cores ∧ t.srv = s.srv ∧ t.dom = s.dom ∧ t.ios = s.ios ∧
      ∀ j, j ≠ i → bget t.inputs j = bget s.inputs j
    let queued : Prop := s.iop = true ∧ s.inEven i = true ∧ s.flowFrom 0x3D00 = none
    let entry (t : State) (type : Nat) (state prev : InClass) (flt : Nat) : Prop := ∃ w, t.inq.items.getLast? = some { marker := false, words := [w, t.stamp] } ∧
      fld w 35 32 = type ∧ fld w 31 25 = i.val ∧ fld w 24 23 = state.code ∧ fld w 22 21 = prev.code ∧ fld w 20 20 = flt ∧ fld w 19 19 = b1 s.inLoss ∧
      fld w 18 0 = 0 ∧ t.inLoss = false
    let report (t : State) : Prop := (∀ k, k < 80 → t.adm.swRep.getLsbD k = if k = i.val then decide (u.cls = .active) else s.adm.swRep.getLsbD k) ∧
      if u.cls = .open_ ∨ u.cls = .short then ReportsNow s t blk (if i.val < 64 then 4 else 17) else t.flt.inflight = s.flt.inflight
    let p := bget s.ios n
    let code := ioCode n
    let onlyIo (t : State) : Prop := (∀ m, m ≠ n → bget t.ios m = bget s.ios m) ∧ t.mem = s.mem ∧ t.inputs = s.inputs ∧ t.hs = s.hs ∧ t.dom = s.dom
    let off (t : State) : Prop := (bget t.ios n).on = false ∧ (∀ x ∈ t.adm.charges, x.code ≠ code) ∧ ∀ x ∈ t.adm.defer, x.charge.code ≠ code
    (Runs (.inputClassChange i mV) s fun t => t = { s with inputs := t.inputs } ∧ (∀ j, j ≠ i → bget t.inputs j = bget s.inputs j) ∧
      if s.inRuns i = false ∨ u.cls = cls then t = s
      else
        let gone := s.now / 100 - u.kAt / 100
        bget t.inputs i = { u with
          cls := cls, since := s.now, kAt := s.now, k := if u.cls = u.rep then u.k - gone else min deb (u.k + gone),
          chat := if s.now < u.since + usT deb then some (u.chat.getD u.since) else none }) ∧
    (s.inRuns i = true → u.fb = false → u.cls ≠ u.rep → e = u.since + usT deb →
      (queued → s.inq.items.length + 2 < 512 → Runs (.debounceAccept i) s fun t =>
        t.now = e ∧ bget t.inputs i = { u with rep := u.cls, changes := satInc u.changes } ∧ entry t 1 u.cls u.rep 0 ∧ report t ∧ t.fab = s.fab ∧ onlyIn t) ∧
      (queued → 512 ≤ s.inq.items.length → Runs (.debounceAccept i) s fun t =>
        t.now = e ∧ (bget t.inputs i).rep = u.cls ∧ t.inq.lost = satInc s.inq.lost ∧ t.inLoss = true ∧
          ({ src := 0x7A0, stamp := t.stamp, wrapped := none } : Report) ∈ t.flt.inflight ∧ onlyIn t)) ∧
    (∀ c, s.inRuns i = true → u.fb = false → u.chat = some c → chatt ≠ 0 → e = c + chatt → e < u.since + usT deb → queued →
      s.inq.items.length + 2 < 512 → Runs (.chatterFallback i) s fun t =>
        t.now = e ∧ bget t.inputs i = { u with fb := true, k := 0, kAt := e, fallbks := satInc u.fallbks } ∧ entry t 2 u.rep u.rep 1 ∧
          ReportsNow s t blk (if i.val < 64 then 1 else 16) ∧ onlyIn t) ∧
    (s.inRuns i = true → u.fb = true → queued → s.inq.items.length + 2 < 512 →
      (u.cls ≠ u.rep → e = (u.kAt / 100 + (deb - u.k)) * 100 → Runs (.filterAccept i) s fun t =>
        t.now = e ∧ bget t.inputs i = { u with rep := u.cls, k := 0, kAt := e, changes := satInc u.changes } ∧ entry t 1 u.cls u.rep 1 ∧ report t ∧
          onlyIn t) ∧
      (e = u.since + chatt → Runs (.filterExit i) s fun t =>
        t.now = e ∧ bget t.inputs i = { u with fb := false, chat := none, k := 0, kAt := e, since := e } ∧ entry t 3 u.rep u.rep 0 ∧
          t.flt.inflight = s.flt.inflight ∧ onlyIn t)) ∧
    (s.inUse i = true → four = true → u.lowv = false → Runs (.openBandLost i) s fun t =>
      bget t.inputs i = { u with lowv := true } ∧ (if i.val < 64 then Reports s t 0x3D 2 else t.flt = s.flt) ∧ onlyIn t) ∧
    (Runs (.openBandRestored i) s fun t => bget t.inputs i = { u with lowv := false } ∧ t = { s with inputs := t.inputs } ∧ onlyIn t) ∧
    (s.Takes r (ioIdx n) 9 [1] → s.ioOut n = true → p.on = false → p.lcause = 0 → s.safeOf code = none → s.duoHeld code = false →
      s.isShed code = false → s.heldOff = false → s.isDeferred code = false → s.Fits (s.ioCharge n) → Runs (.ioCmdOn r n) s fun t =>
        bget t.ios n = { p with cmd := true, on := true } ∧ t.adm.charges = setCharge s.adm.charges (s.ioCharge n) ∧ t.flt = s.flt ∧ onlyIo t) ∧
    (s.Takes r (ioIdx n) 9 [0] → s.ioOut n = true → s.safeOf code = none → Runs (.ioCmdOff r n) s fun t =>
      bget t.ios n = { p with cmd := false, on := false } ∧ off t ∧ t.flt = s.flt ∧ onlyIo t) ∧
    (s.ioOut n = false → (s.Takes r (ioIdx n) 9 [1] → Runs (.ioCmdOn r n) s fun t => t = (s.noteAccess r).tell r (0x07, 0) []) ∧
      (s.Takes r (ioIdx n) 9 [0] → Runs (.ioCmdOff r n) s fun t => t = (s.noteAccess r).tell r (0x07, 0) [])) ∧
    (s.Takes r (ioIdx n) 0x0A [1] → Runs (.ioClear r n) s fun t =>
      bget t.ios n = (if p.lcause = 2 ∧ p.hot = true then p else { p with lcause := 0, cmd := false, on := false }) ∧ t.flt = s.flt ∧ onlyIo t) ∧
    (s.ioOut n = true → p.on = true →
      let latches (c : BitVec 2) (t : State) : Prop :=
        bget t.ios n = { p with on := false, lcause := if p.lcause = 0 then c else p.lcause, trips := satInc p.trips, hot := p.hot || decide (c = 2) } ∧
          off t ∧
          Reports s t 0x3E n.val ∧ onlyIo t ∧ t = { s with ios := t.ios, adm := t.adm, flt := t.flt }
      Runs (.ioOvercurrent n) s (latches 1) ∧ Runs (.ioThermal n) s (latches 2)) ∧
    (s.iop = true → s.adc.lowref = false → Runs .arefLow s fun t =>
      t = { s with adc := { s.adc with lowref := true }, flt := t.flt } ∧ Reports s t 0x3F 1) ∧
    (Runs .arefRestored s fun t => t = { s with adc := { s.adc with lowref := false } })

/-- R35, R45, R47, R48: what carries TIME on.  That a step on an empty queue is one period of that clock is the model's choice (log 1).  R43, R46, R56, R61, R63: the strobe of a boundary, a multiple of 100 000, is sent once and takes a pending step; accepted CYC values and checked
commits apply. -/
def Obligations.IdleAndStrobe : Prop :=
  (∀ (s : State), s.pending = [] → s.now + 3053 < 2 ^ 72 →
     let c := s.time
     let ticks (n : Nat) (post : TimeState → Prop) : Prop := ∃ t, step s = .next t ∧ t.now = s.now + n ∧ post t.time ∧ t.pending = [] ∧ t.srv = s.srv ∧
       t.hs = s.hs ∧ Apart s t
     let running : Prop := s.pwr.mode ≠ .off ∧ s.pwr.mode ≠ .park ∧ s.pwr.mode ≠ .deep
     (s.pwr.mode = .off → step s = .next s) ∧
     (s.pwr.mode = .park ∨ s.pwr.mode = .deep → c.aonAcc < 128 → ∃ n, (n = 3051 ∨ n = 3052) ∧ ticks n fun c' =>
       128 * n + c'.aonAcc = 390625 + c.aonAcc ∧ c'.aonAcc < 128) ∧
     (running → s.rst.bkup = true → c.bkAcc < 4 → ∃ n, (n = 6 ∨ n = 7) ∧ ticks n fun c' => 4 * n + c'.bkAcc = 25 + c.bkAcc ∧ c'.bkAcc < 4) ∧
     (running → s.rst.bkup = false →
       (c.offset = 0 ∨ c.since < 1999 → ticks 1 fun c' => c'.offset = c.offset ∧ c'.since = c.since + 1) ∧
       (1999 ≤ c.since → (0 < c.offset → ticks 2 fun c' => c'.offset = c.offset - 1 ∧ c'.since = 0) ∧
         (c.offset < 0 → ticks 0 fun c' => c'.offset = c.offset + 1 ∧ c'.since = 0)))) ∧
  (∀ (env : StrobeEnv) (s : State),
     let parked : Prop := s.pwr.mode = .park ∨ s.pwr.mode = .deep ∨ s.pwr.mode = .off
     let boundary := if s.time.strobed then (s.now / 100000 + 1) * 100000 else s.now / 100000 * 100000
     let moves : Prop := s.time.step ≠ 0 ∧ s.duo.role ≠ .active
     let lands (e : Nat) : Prop := boundary < 2 ^ 72 ∧ e < 2 ^ 72 ∧
       (¬moves → e = max s.now boundary) ∧ (moves → (e : Int) = max (s.now : Int) boundary + 100000 * s.time.step)
     (parked → Runs (.baseCycleStrobe env) s fun t => t = s) ∧
     (∀ e, ¬parked → lands e → Runs (.baseCycleStrobe env) s fun t =>
       t.now = e ∧ t.time.strobed = true ∧ t.ring.dirty = false ∧ t.cores = s.cores ∧ t.dom = s.dom ∧
         (moves → t.time.stepd = true ∧ t.time.step = 0) ∧ (s.up 2 = true → t.srv.cyc = [])) ∧
     (∀ e idx sub f n row r v, ¬parked → lands e → s.up 2 = true → s.srv.commits = [] → s.srv.cyc = [(okey idx sub, r, v)] → sub < 256 →
       famOf idx = some (f, n) → findRow f sub = some row → row.sub = sub → row.apply = .cyc → Runs (.baseCycleStrobe env) s fun t => t.obj idx sub = v) ∧
     (∀ e (k : Fin 64) sub r v, ¬parked → lands e → s.up 2 = true → s.srv.cyc = [] → 1 ≤ sub → sub ≤ 9 →
       s.srv.staged = [(okey (0x2300 + k.val) sub, v)] →
       s.srv.commits = [{ owner := r, indices := [0x2300 + k.val], started := s.now, hdr := none, checked := true, strobed := false }] →
       Runs (.baseCycleStrobe env) s fun t => t.obj (0x2300 + k.val) sub = v ∧ t.srv.commits = [] ∧ t.srv.staged = [] ∧
         ∀ i, instOf r = some i → bget t.srv.insts i = { bget s.srv.insts i with status := 3, gen := satInc (bget s.srv.insts i).gen }))

/-- R109 to R114: a pass takes every rule's condition from the operands at its start; the lowest true level rule of a target acts, INHIBIT stands
over it, and an edge acts once. -/
def Obligations.SpeedwellPass : Prop :=
  ∀ (s : State), s.up 1 = true →
    let rule (n : Nat) : Word × Word := s.rule n
    let runs (n : Nat) : Prop := n < 256 ∧ ruleOn (rule n) = true ∧ ruleValid (rule n) = true
    let cond (n : Nat) : Bool := s.ruleTrue (rule n)
    let act (n : Nat) : Byte × Byte := (BitVec.ofNat 8 (fld (rule n).2 19 16), BitVec.ofNat 8 (fld (rule n).2 7 0))
    let tgt (n : Nat) : Nat := fld (rule n).2 15 8
    let mode (n : Nat) : Nat := fld (rule n).1 34 33
    let level (n k : Nat) : Prop := runs n ∧ mode n = 0 ∧ tgt n = k ∧ cond n = true ∧ (act n).1 ≠ 5
    let inhibits (n k : Nat) : Prop := runs n ∧ mode n = 0 ∧ tgt n = k ∧ cond n = true ∧ (act n).1 = 5
    let fires (n : Nat) : Prop := runs n ∧ s.adm.fresh = false ∧ cond n ≠ s.adm.prev.getLsbD n ∧
      (mode n = 3 ∨ mode n = 1 ∧ cond n = true ∨ mode n = 2 ∧ cond n = false)
    let calm : Prop := (∀ n, ¬fires n) ∧ ∀ i, i < 4 → s.adm.bk.getLsbD i = s.blinkOn i
    Runs .speedwellPass s fun t =>
      t.mem = s.mem ∧ t.cores = s.cores ∧ t.srv = s.srv ∧ t.dom = s.dom ∧ t.time = s.time ∧ t.adm.fresh = false ∧
        (∀ n, n < 256 → (runs n → t.adm.prev.getLsbD n = cond n) ∧ (¬runs n → t.adm.prev.getLsbD n = s.adm.prev.getLsbD n)) ∧
        (∀ k : Fin 116,
          (∀ n, level n k.val → (∀ m, m < n → ¬level m k.val) → bget t.adm.level k = some (act n)) ∧
          ((∀ n, ¬level n k.val) → bget t.adm.level k = none) ∧
          ((∃ n, inhibits n k.val) ↔ t.adm.inh.getLsbD k.val = true)) ∧
        (∀ j : Fin 16, let k := 0x64 + j.val
          ((∀ n, fires n → tgt n ≠ k) → t.adm.flags.getLsbD j.val = s.adm.flags.getLsbD j.val) ∧
          ∀ n, fires n → tgt n = k → (∀ m, fires m → tgt m = k → m = n) → (∀ m, ¬level m k) →
            t.adm.flags.getLsbD j.val = if (act n).1 = 0 then true else if (act n).1 = 1 then false else !s.adm.flags.getLsbD j.val) ∧
        (calm → (∀ k : Fin 116, bget t.adm.level k = bget s.adm.level k) → t.adm.inh = s.adm.inh → t = { s with adm := t.adm } ∧
          t.adm.charges = s.adm.charges ∧ t.adm.fired = s.adm.fired) ∧
        ∀ (ch : Fin 72) (n : Nat), calm → level n ch.val → (∀ m, m < n → ¬level m ch.val) → (act n).1 = 0 →
          (∀ k : Fin 116, k.val ≠ ch.val → bget t.adm.level k = bget s.adm.level k) → t.adm.inh = s.adm.inh → s.Unruled ch.val →
          (bget s.hs ch).base = none → (bget s.hs ch).lcause = 0 → (bget s.hs ch).act = .off → (bget s.hs ch).next = none → (bget s.hs ch).out = false →
          (bget s.hs ch).paused = false → (bget s.th (grpTh (hsGroup ch))).hot = false → s.Fits (s.hsCharge ch .on) →
          (bget t.hs ch).act = .on ∧ (bget t.hs ch).out = true ∧ t.adm.charges = setCharge s.adm.charges (s.hsCharge ch .on) ∧ OnlyHs ch s t

/-- R50, R59, R63, R71 to R74, R76, R80, R81: screening, values, descriptors, commits and subscriptions of ZOP messages. -/
def Obligations.ZopRequests : Prop :=
  ∀ (h : ZopHdr) (r : Requester) (u s : State),
    let idx := h.index.toNat
    let sub := h.sub.toNat
    let ty := u.typeOf idx sub
    let heard (svc : Nat) (data : List Byte) : Prop := s.Hears h svc data r u
    (∀ tr (i : Fin 8) x, h.trailer = some tr → tr.sid.toNat = i.val + 1 → bget s.srv.sess i = some x → x.proven = true → x.rx ≠ BitVec.allOnes 36 →
      x.tx ≠ BitVec.allOnes 36 → s.zopMedium h = true → (s.macOk x tr h 1 [] = false ∨ tr.fresh ≤ x.rx) → Runs (.zopRead h) s fun t =>
        t.srv.answer = s.srv.answer ∧ bget t.srv.sess i = if x.fails = 15 then none else some { x with fails := x.fails + 1 }) ∧
    (heard 1 [] → isFw idx = false →
      (∀ c, u.access r idx sub false = .inr c → Runs (.zopRead h) s fun t => Replies u t r h 1 (c, 0) []) ∧
      (∀ f n row, u.access r idx sub false = .inl (f, n, row) → row.type ≠ .dom →
        (h.stg = false → u.reaches f n = true → Runs (.zopRead h) s fun t =>
          Replies (u.readMark idx sub) t r h 1 okc (netOctets ty (u.value r idx sub))) ∧
        (h.stg = true → (∃ b ∈ u.srv.bundles, b.index = idx ∧ b.owner = r) → Runs (.zopRead h) s fun t =>
          Replies u t r h 1 okc (netOctets ty (u.stagedVal idx sub))) ∧
        (h.stg = true → (∀ b ∈ u.srv.bundles, b.index = idx → b.owner ≠ r) → Runs (.zopRead h) s fun t => Replies u t r h 1 (0x0C, 0) []))) ∧
    (∀ v octets, heard 2 octets → ty ≠ .str → ty ≠ .dom → typeOk ty v = true → octets = netOctets ty v →
      Runs (.zopWrite h octets) s fun t => t = u.doWrite r (some h) idx sub v) ∧
    (heard 7 [] → isFw idx = false → ∀ f n row, famOf idx = some (f, n) → findRow f sub = some row →
      Runs (.zopDescribe h) s fun t => Replies u t r h 7 okc (numOcts (descriptor row).toNat 5)) ∧
    (∀ (go : Byte) (indices : List (BitVec 16)), heard 3 (go :: indices.flatMap fun i => numOcts i.toNat 2) → indices.length ≤ 8 →
      (u.writeCheck r bundleIdx 0x10 [wd go.toNat]).isLeft = true → (∀ i ∈ indices, i = 0 ∨ hasRwc i.toNat = true) → indices ≠ [] →
      let l := ((indices.map (·.toNat)).filter (· ≠ 0)).eraseDups
      let free : Prop := ∀ i ∈ l, u.bundleBusy r i = false
      (l = [] → Runs (.zopCommit h go indices) s fun t => ∃ w, Replies w t r h 3 (0x07, 0) [] ∧ w.srv.commits = u.srv.commits ∧ w.srv.staged = u.srv.staged) ∧
      (go = 1 → l ≠ [] → free → Runs (.zopCommit h go indices) s fun t =>
        t.srv.commits = u.srv.commits ++ [{ owner := r, indices := l, started := u.now, hdr := some h, checked := false, strobed := false }] ∧
          t.srv.answer = u.srv.answer ∧ t.srv.objs = u.srv.objs ∧ t.srv.staged = u.srv.staged ∧ t = { u with srv := t.srv }) ∧
      (go = 2 → l ≠ [] → free → Runs (.zopCommit h go indices) s fun t => ∃ w, Replies w t r h 3 okc [5] ∧
        (∀ e ∈ w.srv.staged, e.1 / 256 ∉ l) ∧ (∀ b ∈ w.srv.bundles, b.index ∉ l) ∧ w.srv.objs = u.srv.objs)) ∧
    (∀ (ms : BitVec 16) f n row, heard 4 (numOcts ms.toNat 2) → isFw idx = false → u.access r idx sub false = .inl (f, n, row) → row.subs = true →
      let mine (k : Fin 64) : Prop := ∃ y, bget u.srv.subs k = some y ∧ y.owner = r ∧ y.key = okey idx sub
      let takes (k : Fin 64) : Prop := Runs (.zopSubscribe h ms) s fun t => ∃ w, Replies w t r h 4 okc [] ∧
        bget w.srv.subs k = some { owner := r, key := okey idx sub, minMs := ms.toNat, last := none, seen := u.value r idx sub, stamp := none, force := false } ∧
          (∀ j, j ≠ k → bget w.srv.subs j = bget u.srv.subs j) ∧ w = { u with srv := { u.srv with subs := w.srv.subs } }
      (ms = 0 → Runs (.zopSubscribe h ms) s fun t => Replies u t r h 4 (0x07, 0) []) ∧
      (ms ≠ 0 →
        (∀ k, mine k → (∀ j, mine j → j = k) → takes k) ∧
        (∀ k, (∀ j, ¬mine j) → bget u.srv.subs k = none → (∀ j, j < k → (bget u.srv.subs j).isSome = true) → takes k) ∧
        ((∀ j, ¬mine j) → (∀ j, (bget u.srv.subs j).isSome = true) → Runs (.zopSubscribe h ms) s fun t => Replies u t r h 4 (0x11, 0) []))) ∧
    (heard 5 [] → Runs (.zopUnsubscribe h) s fun t => ∃ w, Replies w t r h 5 okc [] ∧ w = { u with srv := { u.srv with subs := w.srv.subs } } ∧
      ∀ k, match bget u.srv.subs k with
        | some y => bget w.srv.subs k = if y.owner = r ∧ y.key = okey idx sub then none else some y
        | none => bget w.srv.subs k = none) ∧
    (∀ (k : Fin 64) (x : Sub) (due : Nat), bget s.srv.subs k = some x → s.up 2 = true →
      (s.value x.owner (x.key / 256) (x.key % 256) ≠ x.seen ∨ x.force = true) →
      due = (match x.last with | some l => l + msT x.minMs | none => 0) → due < 2 ^ 72 →
      (∀ i : Fin 8, x.owner = .session i → (bget s.srv.sess i).isSome = true) → Runs (.notifySend k) s fun t =>
        t.now = max s.now due ∧
          bget t.srv.subs k = some { x with last := some t.now, seen := s.value x.owner (x.key / 256) (x.key % 256), stamp := none, force := false } ∧
          ∃ m, t.srv.notify = some m ∧ m.dest = x.owner ∧ m.key = x.key ∧ m.value = s.value x.owner (x.key / 256) (x.key % 256) ∧
            (∀ w, x.stamp = some w → m.stamp = w) ∧ (x.stamp = none → due ≤ s.now → m.stamp = s.stamp) ∧ t.srv.objs = s.srv.objs ∧ t.mem = s.mem ∧
              (∀ md p, x.owner = .openReq md p →
                let octs := netOctets (s.typeOf (x.key / 256) (x.key % 256)) m.value ++ numOcts m.stamp.toNat 5
                m.octets = zopHead 6 0x80 0 0 (BitVec.ofNat 16 (x.key / 256)) (BitVec.ofNat 8 (x.key % 256)) octs.length ++ octs) ∧
              (∀ i : Fin 8, x.owner = .session i → ∀ y, bget s.srv.sess i = some y → m.fresh = satInc y.tx)) ∧
    (∀ (m : Medium) (peer : Nat) (o0 o1 node rqid i1 i0 o6 len : Byte) (rest : List Byte),
      let e : ZopHdr := { medium := m, peer := peer, trailer := none, vouched := false, stg := false, node := node, rqid := rqid, index := i1 ++ i0, sub := o6 }
      let trail := if o1.getLsbD 5 then 14 else 0
      let svc := o0.toNat % 64
      let known : Prop := 1 ≤ svc ∧ svc ≤ 13 ∧ svc ≠ 6 ∧ o1.toNat % 16 = 0
      let msg : Instr := .zopMalformed m peer (o0 :: o1 :: node :: rqid :: i1 :: i0 :: o6 :: len :: rest)
      s.zopMedium e = true → s.srvFree (openOf e) = true →
      (o0.toNat / 64 ≠ 1 ∨ o1.getLsbD 7 = true → Runs msg s fun t => t = s) ∧
      (o0.toNat / 64 = 1 → o1.getLsbD 7 = false →
        (¬known → Runs msg s fun t => Replies s t (openOf e) e svc (0x14, 0) []) ∧
        (known → rest.length < len.toNat + trail → Runs msg s fun t => Replies s t (openOf e) e svc (0x06, 0) [])))

/-- R77 to R81, R563: block transfers in their segments, and sessions from their opening to their close.  How a read DOMAIN travels is the model's choice
(log 62). -/
def Obligations.TransfersAndSessions : Prop :=
  ∀ (h : ZopHdr) (r : Requester) (u s : State) (b : Block) (e : Nat), s.Ahead e →
    let idx := h.index.toNat
    let sub := h.sub.toNat
    let key := okey idx sub
    let heard (svc : Nat) (data : List Byte) : Prop := s.Hears h svc data r u
    let mine (x : Block) : Bool := x.owner == r && x.key == key
    let starts (wr : Bool) (n : Nat) (ws : List Word) : Block :=
      { owner := r, key := key, write := wr, len := n, next := 0, words := ws, crc := BitVec.allOnes 32, last := u.now, hdr := h, acked := 0, sent := 0,
        out := [] }
    let opens (t : State) (x : Block) : Prop := ∃ w, Replies w t r h 8 okc [] ∧
      w = { u with srv := { u.srv with blocks := (u.srv.blocks.filter fun y => !mine y) ++ [x] } }
    let becomes (w : State) (c : Block) : Prop := w.srv.blocks = u.srv.blocks.map fun x => if x = b then c else x
    let ended (svc : Nat) (t : State) : Prop := ∃ w, Replies w t r h svc (0x0E, 0) [] ∧ w.srv.blocks = u.srv.blocks.filter (· != b) ∧ w.mem = u.mem
    let closed (t : State) (i : Fin 8) : Prop := bget t.srv.sess i = none ∧ (∀ k y, bget t.srv.subs k = some y → y.owner ≠ .session i) ∧
      (∀ x ∈ t.srv.blocks, x.owner ≠ .session i) ∧ (∀ x ∈ t.srv.bundles, x.owner = .session i → x.phase ≠ .staging) ∧
      (∀ j, j ≠ i → bget t.srv.sess j = bget s.srv.sess j) ∧ t.srv.commits = s.srv.commits
    (∀ (len : Word) want, key ≠ imageKey →
      (heard (8) (0 :: numOcts len.toNat 5) → u.blockAccess r idx sub true = .inl want → (want = none ∨ want = some len.toNat) →
        Runs (.blockStart h 0 len) s fun t => opens t (starts true len.toNat [])) ∧
      (heard (8) (1 :: numOcts len.toNat 5) → u.blockAccess r idx sub false = .inl want → len ≠ 0 → len.toNat ≤ (u.value r idx sub).length →
        let x := starts false len.toNat ((u.value r idx sub).take len.toNat)
        Runs (.blockStart h 1 len) s fun t => ∃ m c, opens m x ∧ SendsSegs u.now x c ∧ t.srv.answer = m.srv.answer ∧
          t.srv.blocks = m.srv.blocks.map fun y => if y = x then c else y)) ∧
    (∀ (len : Word) want, key = imageKey → heard 8 (0 :: numOcts len.toNat 5) → u.blockAccess r idx sub true = .inl want → u.upd.busy = .none →
      u.bankIn .trial = none → u.bankState (otherBank u.upd.mapped) ≠ .confirmed → lenOk len.toNat = true → Runs (.blockStart h 0 len) s fun t =>
        t.upd.busy = .erasing r ∧ t.upd.written = 0 ∧ t.bankState (otherBank u.upd.mapped) = .writing ∧ t.mem = s.mem ∧
          ∃ a, t.srv.answer = some a ∧ a.dest = r ∧ a.code = 0) ∧
    (∀ rq, s.upd.busy = .erasing rq → Runs .bankEraseDone s fun t =>
      let a := bankBase (otherBank s.upd.mapped)
      t.upd = { s.upd with busy := .loading } ∧ (∀ x, memRead t.mem x = if a ≤ x ∧ x < a + 0x100000 then 0 else memRead s.mem x)) ∧
    (∀ (seg : BitVec 16) (ws : List Word), heard 9 (numOcts seg.toNat 2 ++ segOctets ws) → u.blockOf r h = some b → key ≠ imageKey → ws.length ≤ segMax h →
      let next := b.words.length + (padWords ws).length
      (b.write = true → seg = b.next → (next ≤ b.len ∨ next = b.len + 1 ∧ b.len % 2 = 1) → Runs (.blockSeg h seg ws) s fun t =>
        ∃ w, Replies w t r h 9 okc (numOcts seg.toNat 2) ∧ w = { u with srv := { u.srv with blocks := w.srv.blocks } } ∧
          becomes w { b with next := b.next + 1, crc := (segOctets ws).foldl crcOctet b.crc, last := u.now, words := (b.words ++ padWords ws).take b.len }) ∧
      (b.write = true → seg ≠ b.next → b.words ≠ [] → Runs (.blockSeg h seg ws) s fun t =>
        ∃ w, Replies w t r h 9 okc (numOcts (b.next - 1).toNat 2) ∧ becomes w { b with last := u.now }) ∧
      (b.write = false → ws = [] →
        let new := (seg + 1 - BitVec.ofNat 16 b.acked).toNat
        let x := if new = 0 then { b with sent := b.acked, out := [], last := u.now }
          else { b with acked := b.acked + new, out := b.out.drop new, last := u.now }
        (b.sent < b.acked + new → Runs (.blockSeg h seg ws) s (ended 9)) ∧
        (b.acked + new ≤ b.sent → Runs (.blockSeg h seg ws) s fun t => ∃ c, SendsSegs u.now x c ∧ becomes t c ∧ t.srv.answer = u.srv.answer))) ∧
    (∀ (crc : BitVec 32), heard 0x0A (numOcts crc.toNat 4) → u.blockOf r h = some b → key ≠ imageKey →
      (b.write = true → (crcShow b.crc ≠ crc ∨ b.words.length < b.len) → Runs (.blockEnd h crc) s (ended 0x0A)) ∧
      (b.write = true → crcShow b.crc = crc → b.len ≤ b.words.length → ∀ c w,
        ({ u with srv := { u.srv with blocks := u.srv.blocks.filter (· != b) } } : State).serveWrite r (some h) idx sub b.words = (some c, w) →
          Runs (.blockEnd h crc) s fun t => Replies w t r h 0x0A c []) ∧
      (b.write = false → crcShow ((segOctets b.words).foldl crcOctet (BitVec.allOnes 32)) = crc → Runs (.blockEnd h crc) s fun t =>
        ∃ w, Replies w t r h 0x0A okc [] ∧ w.srv.blocks = u.srv.blocks.filter (· != b))) ∧
    (s.srv.blocks = [b] → b.key ≠ imageKey → e = b.last + secT 1 → Runs .blockTimeout s fun t =>
      t.now = e ∧ t.srv.blocks = [] ∧ ∃ a, t.srv.answer = some a ∧ a.dest = b.owner ∧ a.code = 0x0E) ∧
    (∀ (slot : Fin 32) (i : Fin 8), heard 0x0B [BitVec.ofNat 8 slot.val] → (bget u.upd.keys slot).isSome = true →
      let open_ (j : Fin 8) : Prop := ∃ x, bget u.srv.sess j = some x ∧ x.proven = false
      let older (j k : Fin 8) : Prop := ∃ x y, bget u.srv.sess j = some x ∧ bget u.srv.sess k = some y ∧ x.opened < y.opened
      let gets : Prop := Runs (.sessionOpen h (BitVec.ofNat 8 slot.val)) s fun t => ∃ (w : State) (chal : Word),
        Replies w t r h 0x0B okc (BitVec.ofNat 8 (i.val + 1) :: freshOcts chal) ∧ bget w.srv.sess i = some
          { proven := false, slot := BitVec.ofNat 8 slot.val, chal := chal, peer := openOf h, rx := chal, tx := chal, opened := u.now, lastUse := u.now, fails := 0 } ∧
        ∀ j, j ≠ i → bget w.srv.sess j = bget u.srv.sess j
      (bget u.srv.sess i = none → (∀ j, j < i → (bget u.srv.sess j).isSome = true) → (∀ j k, open_ j → open_ k → j = k) → gets) ∧
      (open_ i → (∀ j, open_ j → j = i) → (∀ j, (bget u.srv.sess j).isSome = true) → gets) ∧
      (∀ j, j ≠ i → open_ i → open_ j → (∀ k, k ≠ i → open_ k → older i k) → gets) ∧
      ((∀ j, ∃ x, bget u.srv.sess j = some x ∧ x.proven = true) → Runs (.sessionOpen h (BitVec.ofNat 8 slot.val)) s fun t =>
        Replies u t r h 0x0B (0x13, 8) [])) ∧
    (∀ tr (i : Fin 8) x, h.trailer = some tr → tr.sid.toNat = i.val + 1 → bget s.srv.sess i = some x →
      (s.zopMedium h = true → x.proven = false → tr.fresh = x.chal → s.macOk x tr h 0x0C [] = true → Runs (.sessionProof h) s fun t => ∃ w,
        Replies w t (.session i) h 0x0C okc [] ∧
          w = { s with srv := { s.srv with sess := bset s.srv.sess i (some { x with proven := true, rx := x.chal, tx := x.chal, fails := 0, lastUse := s.now }) } }) ∧
      (heard 0x0D [] → r = .session i → Runs (.sessionClose h) s fun t => closed t i ∧
        ∃ a, t.srv.answer = some a ∧ a.dest = r ∧ a.code = 0 ∧ a.authed = true)) ∧
    (∀ (i : Fin 8) x, bget s.srv.sess i = some x →
      (x.proven = false → e = x.opened + secT 1 → Runs (.sessionProofTimeout i) s fun t => t.now = e ∧ closed t i) ∧
      (x.proven = true → e = x.lastUse + secT (s.cfg profIdx 5) → Runs (.sessionIdleTimeout i) s fun t => t.now = e ∧ closed t i))

/-- R56, R57, R59 to R61, R63 to R65, R70: writes at their apply points, commits and their check, the store of saved values. -/
def Obligations.WritesAndCommits : Prop :=
  ∀ (r : Requester) (index : BitVec 16) (sb : Byte) (v : Val) (f : Fam) (n e : Nat) (row : ObjRow) (s : State), s.Ahead e → s.up 2 = true →
    let idx := index.toNat
    let sub := sb.toNat
    let write : Instr := .registerWrite r index sb v
    let told (t : State) (c : Code) : Prop := ∃ a, t.srv.answer = some a ∧ a.dest = r ∧ a.code = c.1 ∧ a.detail = c.2
    let noted := s.noteAccess r
    let free : Prop := s.srvFree r = true ∧ s.fwAsked r idx sub = none
    let taken : Prop := free ∧ isFw idx = false ∧ s.checkWrite r idx sub v = .inl (f, n, row) ∧
      (row.type = .dom → s.domWords f idx sub = none ∨ s.domWords f idx sub = some v.length) ∧ (row.prot = true → s.log.queue.length < 32)
    let same (t : State) : Prop := t.mem = s.mem ∧ t.hs = s.hs ∧ t.dom = s.dom ∧ t.fab = s.fab
    (taken → row.apply = .cmt → idx ≠ 0x2700 →
      ((∀ b ∈ s.srv.bundles, b.index ≠ idx) → Runs write s fun t => told t okc ∧ same t ∧ t.srv.objs = s.srv.objs ∧ t.stagedVal idx sub = v ∧
        t.srv.bundles = s.srv.bundles ++ [{ index := idx, owner := r, since := s.now, phase := .staging }] ∧
          ∀ i, instOf r = some i → (bget t.srv.insts i).status = 1) ∧
      (∀ b, s.srv.bundles = [b] → b.index = idx →
        (b.owner = r → b.phase = .staging → Runs write s fun t => told t okc ∧ same t ∧ t.srv.objs = s.srv.objs ∧ t.stagedVal idx sub = v ∧ t.srv.bundles = [b]) ∧
        (b.owner ≠ r ∨ b.phase ≠ .staging → Runs write s fun t => t = noted.tell r (0x08, 0) []))) ∧
    (taken → row.apply = .cyc ∨ row.apply = .per → Runs write s fun t => told t okc ∧ same t ∧ t.srv.objs = s.srv.objs ∧
      t.srv.cyc = alInsert (okey idx sub) (r, v) s.srv.cyc) ∧
    (taken → row.apply = .imm → row.sub = sub → s.reaches f n = true → s.writeEffect r f n sub v = none →
      Runs write s fun t => told t okc ∧ same t ∧ t.obj idx sub = v ∧ t.srv.staged = s.srv.staged ∧
        (row.persist = .saved → s.obj idx sub ≠ v → t.srv.dirty = some s.now)) ∧
    (taken → row.apply = .imm → s.reaches f n = false → Runs write s fun t => same t ∧ t.srv.answer = s.srv.answer ∧ t.srv.objs = s.srv.objs ∧
      t.srv.heldAcc = s.srv.heldAcc ++ [{ by_ := r, hdr := none, index := idx, sub := sub, value := some v }]) ∧
    (s.srvBusy = true → s.fwAsked r idx sub = none → Runs write s fun t => t = s.tell r (0x10, 0) []) ∧
    (s.srvBusy = false → s.srvFree r = false → s.fwAsked r idx sub = none → Runs write s fun t => t = { s with srv := { s.srv with
      queue := s.srv.queue ++ [.acc { by_ := r, hdr := none, index := idx, sub := sub, value := some v }] } }) ∧
    (∀ c, c ≠ 0 → free → isFw idx = false → s.checkWrite r idx sub v = .inr c → Runs write s fun t => t = noted.tell r (c, 0) []) ∧
    (∀ q, s.fwAsked r idx sub = some q → q.hdr = none →
      (q.write = true → v = [] → Runs write s fun t => t = { s with srv := { s.srv with fw := s.srv.fw.erase q } }.tell q.by_ okc []) ∧
      (q.write = false → typeOk (s.typeOf (q.key / 256) (q.key % 256)) v = true → Runs write s fun t =>
        t = { s with srv := { s.srv with fw := s.srv.fw.erase q } }.tell q.by_ okc v)) ∧
    (∀ d, free → isFw idx = true → s.fwAccess r idx sub true = .inl d → (∀ ty, OType.ofCode (fld d 35 32) = some ty → typeOk ty v = true) →
      Runs write s fun t => t.srv.fw = s.srv.fw ++ [{ by_ := r, hdr := none, write := true, key := okey idx sub, value := v, since := s.now }] ∧
        (bget (bget t.cores (if s.cfgB profIdx 2 then 1 else 0)).irq 25).pend = true ∧ same t ∧ t.srv.answer = s.srv.answer) ∧
    (∀ q l, s.srv.fw = q :: l → q.hdr = none → e = q.since + msT 1 → Runs .fwobjHandlerTimeout s fun t =>
      t.now = e ∧ t.srv.fw = l ∧ ∃ a, t.srv.answer = some a ∧ a.dest = q.by_ ∧ a.code = 0x0D) ∧
    (∀ i, instOf r = some i →
      let l := s.clist r
      let x := bget s.srv.insts i
      let free : Prop := ∀ k ∈ l, s.bundleBusy r k = false
      let go : Prop := s.srvFree r = true ∧ (s.writeCheck r 0x10F0 0x10 [1]).isLeft = true ∧ (s.writeCheck r 0x10F0 0x10 [2]).isLeft = true
      (go → l ≠ [] → free → Runs (.bundleCommit r) s fun t => t.srv.answer = s.srv.answer ∧ t.srv.objs = s.srv.objs ∧ t.srv.staged = s.srv.staged ∧ same t ∧
        t.srv.commits = s.srv.commits ++ [{ owner := r, indices := l, started := s.now, hdr := none, checked := false, strobed := false }] ∧
          (∀ k ∈ l, ∃ b ∈ t.srv.bundles, b.index = k ∧ b.owner = r ∧ b.phase = .checking)) ∧
      (go → l = [] → (Runs (.bundleCommit r) s fun t => t = noted.tell r (0x07, 0) []) ∧ Runs (.bundleAbort r) s fun t => t = noted.tell r (0x07, 0) []) ∧
      (∀ k, go → l = [k] → s.bundleBusy r k = true → Runs (.bundleCommit r) s fun t => told t (0x08, 0) ∧
        (bget t.srv.insts i).status = 4 ∧ (bget t.srv.insts i).refusal = wd (k * 65536 + 8) ∧ t.srv.staged = s.srv.staged) ∧
      (go → l ≠ [] → free → Runs (.bundleAbort r) s fun t => told t okc ∧ same t ∧ t.srv.objs = s.srv.objs ∧ (bget t.srv.insts i).status = 5 ∧
        (∀ y ∈ t.srv.staged, y.1 / 256 ∉ l) ∧ (∀ y ∈ s.srv.staged, y.1 / 256 ∉ l → y ∈ t.srv.staged) ∧ ∀ b ∈ t.srv.bundles, b.index ∉ l) ∧
      (∀ c, c.owner = r → c.checked = false → c.hdr = none → s.srv.commits = [c] →
        ((s.checkCommit c.indices).1 = [] → Runs (.consistencyCheckDone r) s fun t => told t okc ∧ t.srv.objs = s.srv.objs ∧
          (bget t.srv.insts i).status = 2 ∧ t.srv.commits = [{ c with checked := true }]) ∧
        (∀ k rest, (s.checkCommit c.indices).1 = k :: rest → Runs (.consistencyCheckDone r) s fun t => told t (0x09, 0) ∧ t.srv.objs = s.srv.objs ∧
          t.srv.staged = s.srv.staged ∧ t.srv.commits = [] ∧ (bget t.srv.insts i).status = 4 ∧ (bget t.srv.insts i).refusal = wd (k * 65536 + 9) ∧
            t.adm.charges = s.adm.charges)) ∧
      (∀ b, s.srv.bundles = [b] → b.owner = r → b.phase = .staging → e = b.since + msT (s.cfg 0x10F0 0x14) → Runs (.stagingTimeout r) s fun t =>
        t.now = e ∧ t.srv.bundles = [] ∧ (∀ y ∈ t.srv.staged, y.1 / 256 ≠ b.index) ∧ t.srv.objs = s.srv.objs ∧ bget t.srv.insts i = { x with status := 6 })) ∧
    (s.Takes r profIdx 3 [1] → Runs (.store r) s fun t => same t ∧ t.srv.objs = s.srv.objs ∧ t.srv.saved = s.srv.saved ∧ told t okc ∧
      (s.srv.dirty.isSome = true → t.srv.storing = true ∧ t.srv.dirty = none)) ∧
    (∀ d, s.srv.dirty = some d → e = d + secT 2 → Runs .savedStoreTimer s fun t => t.now = e ∧ t.srv = { s.srv with storing := true, dirty := none }) ∧
    (s.srv.storing = true →
      (Runs (.savedStoreDone true) s fun t => t.srv.storing = false ∧ t.srv.saved = s.savedNow ∧ t = { s with srv := t.srv } ∧ t.srv.objs = s.srv.objs) ∧
      (s.pwr.storing = false → Runs (.savedStoreDone false) s fun t => t.srv = { s.srv with storing := false } ∧ Reports s t 0x09 4 ∧
        t = { s with srv := t.srv, flt := t.flt }))

/-- R379 to R381, R384 to R388, R390: CAN frames in their buffers, requests and their ends, error confinement, bit-rate detection.  With FDMODE 0 an FD
frame is a form error (log 42). -/
def Obligations.CanChannels : Prop :=
  ∀ (ch : Fin 8) (b : Fin 66) (f : CanFrame) (m : CtlBits) (r : Requester) (kind : CanErr) (tx big lost : Bool) (filt e : Nat) (s : State), s.Ahead e →
    let c := s.can ch
    let bit : BitVec 66 := BitVec.ofNat 66 (2 ^ b.val)
    let buf (i : Nat) : Nat := canBuf ch b i
    let named (j : Fin 66) : Prop := if m.hi then 36 ≤ j.val ∧ m.bits.getLsbD (j.val - 36) = true else j.val < 36 ∧ m.bits.getLsbD j.val = true
    let ready : Prop := reachesMem r = true ∧ s.up 5 = true
    let others (t : State) : Prop := (∀ k, k ≠ ch → t.can k = s.can k) ∧ t.cores = s.cores ∧ t.dom = s.dom ∧ t.srv.objs = s.srv.objs
    let only (t : State) : Prop := others t ∧ t = { s with cans := t.cans }
    let kept (t : State) (a n : Nat) : Prop := ∀ x, (x < a ∨ a + n ≤ x) → memRead t.mem x = memRead s.mem x
    let ends (t : State) (w : Nat) : Prop := memRead t.mem (buf 19) = wd w ∧ memRead t.mem (buf 2) = s.stamp ∧
      (∀ x, x ≠ buf 19 → x ≠ buf 2 → memRead t.mem x = memRead s.mem x)
    let closed (x : CanCh) : CanCh := { x with new := x.new ||| bit, req := x.req &&& ~~~bit, att := bset x.att b 0 }
    let att := min 31 (bget c.att b) * 2 ^ 29
    let os := (f.data ++ List.replicate 64 0).take (frameCount f)
    let heard : Prop := s.canLive ch = true ∧ (f.fdf = true → s.canFd ch = 1) ∧ s.abdRuns ch = false ∧ c.recnt ≤ 127
    let counted : CanCh := { c with rxok := satInc c.rxok, occ := false, noack := false, recnt := c.recnt - 1 }
    let stores (t : State) : Prop := memRead t.mem (buf 0) = frameWord0 f ∧ memRead t.mem (buf 1) = frameWord1 f filt (c.lost.getLsbD b.val) ∧
      memRead t.mem (buf 2) = s.stamp ∧ (∀ i w, (packFrame os)[i]? = some w → memRead t.mem (buf (3 + i)) = w) ∧ kept t (buf 0) (3 + (packFrame os).length)
    (heard → s.canRoute ch f = .buffer b filt → s.bufRx ch b = true → s.flowOf (canEp ch b) = none →
      (c.new.getLsbD b.val = false → Runs (.canFrameReceive ch f) s fun t => stores t ∧ others t ∧ t.flt = s.flt ∧
        t.can ch = { counted with new := c.new ||| bit, lost := c.lost &&& ~~~bit }) ∧
      (c.new.getLsbD b.val = true → Runs (.canFrameReceive ch f) s fun t => others t ∧ Reports s t (canBlk ch) 5 ∧
        t.can ch = { counted with new := c.new ||| bit, lost := c.lost ||| bit, drops := satInc c.drops } ∧
          if (s.bufcfg ch b).getLsbD 31 then stores t else t.mem = s.mem)) ∧
    (heard → (s.canRoute ch f = .nowhere ∨ s.canRoute ch f = .buffer b filt ∧ s.bufRx ch b = false) → Runs (.canFrameReceive ch f) s fun t =>
      t.can ch = { counted with unmatch := satInc c.unmatch } ∧ only t) ∧
    (heard → s.canRoute ch f = .zop → Runs (.canFrameReceive ch f) s fun t => t.can ch = counted ∧ only t) ∧
    (s.canLive ch = true → f.fdf = true → s.canFd ch = 0 → exec (.canFrameReceive ch f) s = exec (.canBusError ch .form false false) s) ∧
    (s.canLive ch = true → f.fdf = true → s.canFd ch = 2 → Runs (.canFrameReceive ch f) s fun t =>
      Reports s t (canBlk ch) 7 ∧ t = { s with flt := t.flt }) ∧
    (ready → s.pwr.mode ≠ .entering → Runs (.canTxRequest r ch m) s fun t => only t ∧ t.can ch = { c with req := (t.can ch).req, att := (t.can ch).att } ∧
      ∀ j : Fin 66, ((t.can ch).req.getLsbD j.val = true ↔ c.req.getLsbD j.val = true ∨ named j ∧ s.bufTx ch j = true) ∧
        (c.req.getLsbD j.val = true → bget (t.can ch).att j = bget c.att j)) ∧
    (ready → (∀ j, named j ↔ j = b) →
      (c.req.getLsbD b.val = false → Runs (.canTxAbort r ch m) s fun t => t = s) ∧
      (c.req.getLsbD b.val = true → c.bus = some b → Runs (.canTxAbort r ch m) s fun t => t.can ch = { c with abort := true } ∧ only t) ∧
      (c.req.getLsbD b.val = true → c.bus ≠ some b → Runs (.canTxAbort r ch m) s fun t => t.can ch = closed c ∧ others t ∧ ends t (2 ^ 34 + att))) ∧
    (ready → Runs (.canNewClear r ch m) s fun t => only t ∧ t.can ch = { c with new := (t.can ch).new } ∧
      ∀ j : Fin 66, (t.can ch).new.getLsbD j.val = true ↔ c.new.getLsbD j.val = true ∧ ¬named j) ∧
    (s.canLive ch = true → s.canMode ch = 1 → c.bus = none → c.zbus = false →
      (c.req.getLsbD b.val = true → s.bufTx ch b = true → (∀ f, s.zopDue ch = some f → (s.canFrameOf ch b).id ≤ f.id) → (∀ j, j ≠ b → c.req.getLsbD j.val = true → s.bufTx ch j = true → (s.canFrameOf ch b).id < (s.canFrameOf ch j).id ∨
        (s.canFrameOf ch b).id = (s.canFrameOf ch j).id ∧ b < j) → Runs (.canTxAttempt ch) s fun t => only t ∧
          t.can ch = { c with bus := some b, att := bset c.att b (bget c.att b + 1), noackA := false, frame := some (s.canFrameOf ch b) }) ∧
      (∀ g, s.zopDue ch = some g → (∀ j, c.req.getLsbD j.val = true → s.bufTx ch j = true → g.id < (s.canFrameOf ch j).id) →
        Runs (.canTxAttempt ch) s fun t => only t ∧ t.can ch = { c with zbus := true, noackA := false, frame := some g })) ∧
    (c.bus = none → c.zbus = true → s.srv.commits = [] →
      (Runs (.canTxDone ch) s fun t => only t ∧ t.can ch = { c with zopq := c.zopq.tail, zopAt := some s.now, zbus := false, abort := false, tecnt := c.tecnt - 1, txok := satInc c.txok, noack := false, occ := false }) ∧
      Runs (.canTxFail ch lost) s fun t => only t ∧ t.can ch = { c with zbus := false }) ∧
    (c.bus = some b → s.srv.commits = [] →
      let retry := fld (s.bufcfg ch b) 30 26
      let idle : CanCh := { c with bus := none, abort := false }
      (Runs (.canTxDone ch) s fun t => others t ∧ t.flt = s.flt ∧ ends t (2 ^ 35 + att) ∧
        t.can ch = { closed idle with zbus := false, tecnt := c.tecnt - 1, txok := satInc c.txok, noack := false, occ := false }) ∧
      (c.abort = true → Runs (.canTxFail ch lost) s fun t => others t ∧ t.flt = s.flt ∧ ends t (2 ^ 34 + att + b1 c.noackA * 2 ^ 28) ∧ t.can ch = closed idle) ∧
      (c.abort = false → (retry = 16 ∨ bget c.att b ≤ retry) → Runs (.canTxFail ch lost) s fun t => only t ∧ t.can ch = idle) ∧
      (c.abort = false → retry ≠ 16 → retry < bget c.att b → Runs (.canTxFail ch lost) s fun t => others t ∧ Reports s t (canBlk ch) 4 ∧
        ends t (2 ^ 34 + att + b1 c.noackA * 2 ^ 28) ∧ t.can ch = closed idle)) ∧
    (s.canLive ch = true → s.abdRuns ch = false →
      let quiet : Bool := tx && kind = .ack && c.passive && !big
      let tec := if tx && big then c.tecnt + 8 else c.tecnt
      let after : CanCh := { c with lec := canErrCode kind, errs := satInc c.errs, occ := true, noackA := c.noackA || (tx && kind = .ack), tecnt := tec, recnt := if tx then c.recnt else min 255 (c.recnt + if big then 8 else 1), noack := c.noack || quiet }
      let raised (t : State) (k : Nat) : Prop := ({ src := canBlk ch * 32 + k, stamp := s.stamp, wrapped := none } : Report) ∈ t.flt.inflight
      (tec < 256 → Runs (.canBusError ch kind tx big) s fun t => t.can ch = after ∧ others t ∧ t.mem = s.mem ∧ (c.occ = false → raised t 0) ∧
        (c.passive = false → after.passive = true → raised t 1) ∧ (quiet = true → c.noack = false → raised t 3) ∧
          (c.occ = true → (c.passive = true ∨ after.passive = false) → (quiet = false ∨ c.noack = true) → only t)) ∧
      let off (x : CanCh) (t : State) : Prop := others t ∧ raised t 2 ∧ (c.occ = false → raised t 0) ∧
        t.can ch = { x with tecnt := 256, busoff := true, bus := none, zbus := false, abort := false, occ := false, busoffs := satInc c.busoffs, recov := s.cfgB (canIdx ch) 0x0B, rseq := (t.can ch).rseq }
      (256 ≤ tec → (c.abort = false ∨ c.bus = none) → Runs (.canBusError ch kind tx big) s fun t => off after t ∧ t.mem = s.mem) ∧
      (256 ≤ tec → c.abort = true → c.bus = some b → Runs (.canBusError ch kind tx big) s fun t =>
        off (closed after) t ∧ ends t (2 ^ 34 + att + b1 after.noackA * 2 ^ 28))) ∧
    (s.Takes r (canIdx ch) 0x0C [1] → c.busoff = true → c.recov = false → Runs (.borst r ch) s fun t =>
      t.can ch = { c with recov := true, rseq := (t.can ch).rseq } ∧ others t ∧ t.mem = s.mem) ∧
    (s.up 5 = true → c.busoff = true → c.recov = true → Runs (.canBusoffRecovered ch) s fun t =>
      t.can ch = { c with tecnt := 0, recnt := 0, busoff := false, recov := false } ∧ only t) ∧
    (s.up 5 = true → s.canMode ch ≠ 0 → Runs (.canIntegration ch) s fun t => t.can ch = { c with ready := true } ∧ only t) ∧
    (s.up 5 = true → s.abdRuns ch = true → ∀ k, k < 8 →
      let enabled (j : Nat) : Prop := ((s.obj (canIdx ch) 0x13).getD (2 * j) 0).getLsbD 3 = true
      c.cand < 8 → enabled k → (c.cand < k ∧ (∀ j, c.cand < j → j < k → ¬enabled j) ∨ k ≤ c.cand ∧ (∀ j, c.cand < j → j < 8 → ¬enabled j) ∧ ∀ j, j < k → ¬enabled j) →
      (Runs (.abdCandidateTimeout ch true) s fun t => t.can ch = { c with cand := k, candAt := s.now, good := 0 } ∧ only t) ∧
      (e = c.candAt + msT (s.cfg (canIdx ch) 0x15) → Runs (.abdCandidateTimeout ch false) s fun t =>
        t.now = e ∧ t.can ch = { c with cand := k, candAt := e, good := 0 } ∧ others t)) ∧
    (s.up 5 = true → Runs (.txdDominantTimeout (.can ch)) s fun t => Reports s t (canBlk ch) 6 ∧ t = { s with flt := t.flt })

/-- R381, R393 to R396: LIN slots, responses, collisions and control words. -/
def Obligations.LinChannels : Prop :=
  ∀ (ch : Fin 8) (m : CtlBits) (r : Requester) (octets : List Byte) (w : LinSlot) (v : Byte) (e : Nat) (s : State), s.Ahead e → s.up 5 = true →
    let c := s.lin ch
    let fid := w.fid
    let bit : BitVec 64 := BitVec.ofNat 64 (2 ^ fid.val)
    let at_ (i : Nat) : Nat := linAddr ch (4 * fid.val + i)
    let named (j : Fin 64) : Prop := if m.hi then 36 ≤ j.val ∧ m.bits.getLsbD (j.val - 36) = true else j.val < 36 ∧ m.bits.getLsbD j.val = true
    let others (t : State) : Prop := (∀ k, k ≠ ch → t.lin k = s.lin k) ∧ t.cores = s.cores ∧ t.dom = s.dom ∧ t.hs = s.hs ∧ t.cans = s.cans
    let only (t : State) : Prop := others t ∧ t = { s with lins := t.lins }
    let kept (t : State) (n : Nat) : Prop := ∀ x, (x < at_ 0 ∨ at_ 0 + n ≤ x) → memRead t.mem x = memRead s.mem x
    let runs : Prop := s.pwr.mode ≠ .entering ∧ s.sup.shed.getLsbD 1 = false ∧ s.libRuns 13 = true ∧ s.cfg (linIdx ch) 1 = 1
    let slot (t : State) (j : Fin 64) : Prop :=
      let x := s.sched ch j.val
      let id := fld x 30 25
      let asked := c.req.getLsbD id = true
      let sends : Prop := fld x 34 33 = 0 ∨ fld x 34 33 = 1 ∨ fld x 34 33 = 2 ∧ asked ∨ fld x 34 33 = 3 ∧ (id ≠ 0x3C ∨ asked)
      (t.lin ch).entry = some j ∧ (t.lin ch).slotEnd = some (t.now + fld x 24 13 * 10000) ∧
        (sends → (s.linFrame ch id).getLsbD 35 = true → (t.lin ch).wait = some { fid := Fin.ofNat 64 id, etrig := fld x 34 33 = 1, start := t.now }) ∧
        (¬sends → (t.lin ch).wait = none)
    let errs (t : State) (code : Nat) (kind : Nat) : Prop := memRead t.mem (at_ 0) = s.linHdr ch fid code ∧ kept t 1 ∧ others t ∧
      (t.lin ch).new = c.new ∧ (t.lin ch).wait = none ∧ (t.lin ch).lastErr = BitVec.ofNat 3 code ∧
        ({ src := linBlk ch * 32 + kind, stamp := t.stamp, wrapped := none } : Report) ∈ t.flt.inflight
    let fails (i : Instr) (code : Nat) : Prop := w.etrig = false → Runs i s fun t => errs t code (code - 1) ∧ (t.lin ch).errs = satInc c.errs
    let collides (i : Instr) : Prop := ∀ j, w.etrig = true → c.entry = some j → Runs i s fun t => errs t 5 4 ∧ (t.lin ch).colls = satInc c.colls ∧
      (t.lin ch).due = some (Fin.ofNat 4 (fld (s.sched ch j.val) 12 11)) ∧ (t.lin ch).back = j.val + 1 ∧ (t.lin ch).entry = c.entry ∧ (t.lin ch).slotEnd = c.slotEnd
    (∀ (tb : Fin 4) (i j : Fin 64), runs → c.slotEnd = some e → c.next = none → c.due = none → c.cres = none → c.table = some tb → c.entry = some i →
      schedIn (s.sched ch j.val) tb = true →
      (i < j ∧ (∀ k : Fin 64, i < k → k < j → schedIn (s.sched ch k.val) tb = false) ∨
        (∀ k : Fin 64, i < k → schedIn (s.sched ch k.val) tb = false) ∧ ∀ k : Fin 64, k < j → schedIn (s.sched ch k.val) tb = false) →
      Runs (.linSlotStart ch) s fun t => t.now = e ∧ slot t j ∧ others t ∧ t.mem = s.mem) ∧
    (∀ (tb : Fin 4) (j : Fin 64), runs → c.slotEnd = some e → c.next = none → c.due = some tb → schedIn (s.sched ch j.val) tb = true →
      (∀ k : Fin 64, k < j → schedIn (s.sched ch k.val) tb = false) → Runs (.linSlotStart ch) s fun t =>
        t.now = e ∧ slot t j ∧ (t.lin ch).cres = some tb ∧ (t.lin ch).due = none ∧ (t.lin ch).back = c.back ∧ others t ∧ t.mem = s.mem) ∧
    (∀ (tb ta : Fin 4) (i j : Fin 64), runs → c.slotEnd = some e → c.next = none → c.due = none → c.cres = some tb → c.table = some ta → c.entry = some i →
      (∀ k : Fin 64, i < k → schedIn (s.sched ch k.val) tb = false) → c.back ≤ j.val → schedIn (s.sched ch j.val) ta = true →
      (∀ k : Fin 64, c.back ≤ k.val → k < j → schedIn (s.sched ch k.val) ta = false) → Runs (.linSlotStart ch) s fun t =>
        t.now = e ∧ slot t j ∧ (t.lin ch).cres = none ∧ others t ∧ t.mem = s.mem) ∧
    (runs → c.slotEnd = some e → c.next = some 0xFF → Runs (.linSlotStart ch) s fun t => t.now = e ∧ (t.lin ch).table = none ∧ (t.lin ch).entry = none ∧
      (t.lin ch).slotEnd = none ∧ (t.lin ch).next = none ∧ others t ∧ t.mem = s.mem) ∧
    (c.wait = some w →
      (s.linPub ch fid.val = true → Runs (.linResponseComplete ch octets .good) s fun t => others t ∧ memRead t.mem (at_ 0) = s.linHdr ch fid 0 ∧
        memRead t.mem (at_ 1) = s.stamp ∧ kept t 2 ∧ t.flt = s.flt ∧
          t.lin ch = { c with wait := none, lastFid := fid, lastErr := 0, req := c.req &&& ~~~bit, new := c.new ||| bit, txok := satInc c.txok }) ∧
      (s.linPub ch fid.val = false → s.flowOf (linBlk ch * 256 + fid.val) = none → octets.length = s.linLen ch fid.val → octets.length ≤ 8 →
        Runs (.linResponseComplete ch octets .good) s fun t => others t ∧ memRead t.mem (at_ 0) = s.linHdr ch fid 0 ∧ memRead t.mem (at_ 1) = s.stamp ∧
          (∀ i x, (packFrame octets)[i]? = some x → memRead t.mem (at_ (2 + i)) = x) ∧ kept t 4 ∧ t.flt = s.flt ∧
            t.lin ch = { c with wait := none, lastFid := fid, lastErr := 0, rxok := satInc c.rxok, new := c.new ||| bit }) ∧
      (Runs (.linResponseComplete ch octets .bitError) s fun t => errs t 4 3) ∧
      fails (.linResponseComplete ch octets .framing) 2 ∧ fails (.linResponseComplete ch octets .checksum) 3 ∧
      collides (.linResponseComplete ch octets .framing) ∧ collides (.linResponseComplete ch octets .checksum) ∧
      (s.linPub ch fid.val = false → e = w.start + linTicks (s.cfg (linIdx ch) 2) (s.linLen ch fid.val) →
        fails (.linResponseTimeout ch false) 1 ∧ fails (.linResponseTimeout ch true) 2 ∧ collides (.linResponseTimeout ch true) ∧
          (w.etrig = true → Runs (.linResponseTimeout ch false) s fun t => t.now = e ∧ t.lin ch = { c with wait := none } ∧ t.mem = s.mem ∧
            t.flt.inflight = s.flt.inflight ∧ others t))) ∧
    (reachesMem r = true →
      (Runs (.linNewClear r ch m) s fun t => only t ∧ t.lin ch = { c with new := (t.lin ch).new } ∧
        ∀ j : Fin 64, (t.lin ch).new.getLsbD j.val = true ↔ c.new.getLsbD j.val = true ∧ ¬named j) ∧
      (s.pwr.mode ≠ .entering → Runs (.linTxPending r ch m) s fun t => only t ∧ t.lin ch = { c with req := (t.lin ch).req } ∧
        ∀ j : Fin 64, (t.lin ch).req.getLsbD j.val = true ↔ c.req.getLsbD j.val = true ∨ named j ∧ s.linPub ch j.val = true)) ∧
    (s.Takes r (linIdx ch) 5 [wd v.toNat] → Runs (.runtblWrite r ch v) s fun t => t.cfg (linIdx ch) 5 = v.toNat ∧ others t ∧ t.mem = s.mem ∧
      (c.slotEnd.isSome = true → t.lin ch = { c with next := some v }) ∧
      (c.slotEnd = none → (t.lin ch).table = (if h : v.toNat < 4 then some ⟨v.toNat, h⟩ else none) ∧ (t.lin ch).entry = none)) ∧
    (Runs (.linBusDominant ch) s fun t => Reports s t (linBlk ch) 5 ∧ t = { s with flt := t.flt }) ∧
    (Runs (.txdDominantTimeout (.lin ch)) s fun t => Reports s t (linBlk ch) 6 ∧ t = { s with flt := t.flt })

/-- R399 to R406, R422: frames in the switch and its rings, aging, links and T1S segments.  Ports with their link down are taken at the rate of their mode
(log 54); a frame to the host ring is remapped as any other (log 53). -/
def Obligations.EthernetSwitch : Prop :=
  ∀ (p : Fin 5) (f : EthFrame) (r : Requester) (e : Nat) (s : State), s.Ahead e →
    let u := s.eport p
    let vid := ethVlan f
    let c := pcpClass s.obj (ethPrio f)
    let cls : Fin 8 := if 4 ≤ c.val then 0 else c
    let remap := if 4 ≤ c.val then satInc s.eth.remap else s.eth.remap
    let got : EthPort := { u with rx := satInc u.rx, occ := none }
    let others (t : State) : Prop := ∀ q, q ≠ p → t.eport q = s.eport q
    let ports (t : State) : Prop := others t ∧ t = { s with eth := { s.eth with ports := t.eth.ports } }
    let rest := s.eth.learnt.filter fun x => !(x.mac = f.src && x.vid = vid)
    let learnt := if f.src.getLsbD 40 = true ∨ 1024 ≤ rest.length then s.eth.learnt else rest ++ [{ mac := f.src, vid := vid, port := p, last := s.now }]
    let heard : Prop := p ≠ 0 ∧ s.portUp p = true
    let size : Prop := 64 ≤ f.octets.length + 4 ∧ f.octets.length + 4 ≤ 1522
    let passes (m : BitVec 5) : Prop :=
      heard ∧ f.fcsOk = true ∧ f.etype ≠ 0x88F7 ∧ f.etype ≠ 0x8808 ∧ size ∧ (vlanOf s.obj vid).map Prod.fst = some m ∧ m.getLsbD p.val = true
    let raised (t : State) (blk kind : Nat) : Prop := ({ src := blk * 32 + kind, stamp := t.stamp, wrapped := none } : Report) ∈ t.flt.inflight
    let apart (t : State) : Prop := t.mem = s.mem ∧ t.cores = s.cores ∧ t.dom = s.dom ∧ t.srv.objs = s.srv.objs ∧ t.hs = s.hs
    (heard → f.fcsOk = false →
      let bad : EthPort := { u with rx := satInc u.rx, errs := satInc u.errs, occ := some s.now }
      (u.occ.isSome = true → Runs (.ethFrameReceive p f) s fun t => t.eport p = bad ∧ ports t) ∧
      (u.occ = none → Runs (.ethFrameReceive p f) s fun t => t.eport p = bad ∧ others t ∧ raised t (0x58 + p.val) 2 ∧ apart t ∧ t.eth.store = s.eth.store)) ∧
    (heard → f.fcsOk = true → f.etype = 0x88F7 → Runs (.ethFrameReceive p f) s fun t => t.eport p = got ∧ ports t) ∧
    (heard → f.fcsOk = true → f.etype ≠ 0x88F7 →
      (¬size ∨ f.etype = 0x8808 ∨ vlanOf s.obj vid = none ∨ ∃ m b, vlanOf s.obj vid = some (m, b) ∧ m.getLsbD p.val = false) →
      Runs (.ethFrameReceive p f) s fun t => t.eport p = { got with drops := satInc u.drops } ∧ ports t) ∧
    (∀ m, passes m →
      let out := s.ethRoute f.dst vid m p
      (∀ x, s.rxStream p f = some x → out &&& 0x1E = 0 → Runs (.ethFrameReceive p f) s fun t => t.eport p = got ∧ others t ∧
        t = ({ s with eth := { s.eth with ports := t.eth.ports, learnt := learnt } } : State).toFlow x.contract (packFrame f.octets)) ∧
      (s.rxStream p f = none → out = 1 →
        let body := packFrame f.octets
        let n := 2 + body.length
        (∀ a wrap, rxPlace s.eth.hrxw s.eth.hrxr n = some (a, wrap) → Runs (.ethFrameReceive p f) s fun t =>
          memRead t.mem (0x864000 + a) = wd (p.val * 2 ^ 33 + cls.val * 2 ^ 30 + b1 f.tagged * 2 ^ 29 + f.octets.length) ∧
          memRead t.mem (0x864000 + a + 1) = s.stamp ∧ (∀ i w, body[i]? = some w → memRead t.mem (0x864000 + a + 2 + i) = w) ∧
          (wrap = true → memRead t.mem (0x864000 + s.eth.hrxw) = 0) ∧
          (∀ x, (x < 0x864000 + a ∨ 0x864000 + a + n ≤ x) → (wrap = true → x ≠ 0x864000 + s.eth.hrxw) → memRead t.mem x = memRead s.mem x) ∧
          t.eport p = got ∧ t.eport 0 = { s.eport 0 with tx := satInc (s.eport 0).tx } ∧ (∀ q, q ≠ p → q ≠ 0 → t.eport q = s.eport q) ∧
          t = { s with mem := t.mem, eth := { s.eth with ports := t.eth.ports, learnt := learnt, hrxw := (a + n) % 8192, remap := remap } }) ∧
        (rxPlace s.eth.hrxw s.eth.hrxr n = none → Runs (.ethFrameReceive p f) s fun t => Reports s t 0x58 2 ∧ t.eport p = got ∧
          t.eport 0 = { s.eport 0 with drops := satInc (s.eport 0).drops } ∧ (∀ q, q ≠ p → q ≠ 0 → t.eport q = s.eport q) ∧
          t = { s with flt := t.flt, eth := { s.eth with ports := t.eth.ports, learnt := learnt, remap := remap } })) ∧
      (∀ to_ : BitVec 5, s.rxStream p f = none → out.getLsbD 0 = false → to_ ≠ 0 →
        (∀ q : Fin 5, to_.getLsbD q.val = true ↔ q ≠ 0 ∧ out.getLsbD q.val = true ∧ s.portUp q = true) →
        let h : EthHeld := { frame := f, ingress := p, ports := to_, cls := cls }
        let need := (f.octets.length + 3) / 4
        let counts (t : State) (drops : Fin 5 → Word) : Prop := (t.eport p).rx = satInc u.rx ∧ (t.eport p).occ = none ∧ (t.eport p).errs = u.errs ∧
          (∀ q, q ≠ p → (t.eport q).rx = (s.eport q).rx) ∧ (∀ q, (t.eport q).drops = drops q ∧ (t.eport q).tx = (s.eport q).tx ∧ (t.eport q).busy = (s.eport q).busy)
        let after (t : State) (store : List EthHeld) : Prop :=
          t.eth = { s.eth with ports := t.eth.ports, learnt := learnt, store := store, remap := remap }
        (storeUsed s.eth.store + need ≤ 24576 → Runs (.ethFrameReceive p f) s fun t =>
          counts t (fun q => (s.eport q).drops) ∧ after t (s.eth.store ++ [h]) ∧ t = { s with eth := t.eth }) ∧
        (24576 < storeUsed s.eth.store + need → (∀ x ∈ s.eth.store, x.cls.val < 4) → Runs (.ethFrameReceive p f) s fun t =>
          counts t (fun q => if q = p then satInc u.drops else (s.eport q).drops) ∧ after t s.eth.store ∧ Reports s t 0x58 0 ∧ t = { s with eth := t.eth, flt := t.flt }) ∧
        (∀ l x k, s.eth.store = l ++ x :: k → x.cls = 0 → (∀ y ∈ l, y.cls ≠ 0) → (∃ y ∈ s.eth.store, 4 ≤ y.cls.val) →
          24576 < storeUsed s.eth.store + need → storeUsed (l ++ k) + need ≤ 24576 → Runs (.ethFrameReceive p f) s fun t =>
            counts t (fun q => if q = x.ingress then satInc (s.eport q).drops else (s.eport q).drops) ∧ after t (l ++ k ++ [h]) ∧ Reports s t 0x58 0 ∧
              t = { s with eth := t.eth, flt := t.flt }))) ∧
    (heard → e = Nat.max s.now u.busy →
      let slope (k : Fin 8) := s.idleSlope p k
      let may (k : Fin 8) : Prop := s.ethWaits p k = true ∧
        (p.val < 3 → 4 ≤ k.val → (s.cfg ethIdx 9).testBit k.val = true → 0 ≤ creditAt u k (slope k) true e)
      (∀ (k : Fin 8) l h m, may k → (∀ j, k < j → ¬may j) → s.eth.store = l ++ h :: m → h.cls = k → h.ports.getLsbD p.val = true →
        (∀ y ∈ l, y.cls = k → y.ports.getLsbD p.val = false) →
        let o := ethEgress s.obj p h.frame
        let rate := s.portRate s.obj p
        let ticks := ceilDiv ((o.octets.length + 24) * 8 * 100000000) rate
        Runs (.ethFrameTransmit p) s fun t => t.now = e ∧ others t ∧ apart t ∧
          t.eth = { s.eth with ports := t.eth.ports, store := l ++ (if h.ports = portBit p then m else { h with ports := h.ports &&& ~~~portBit p } :: m) } ∧
          t.eport p = { u with busy := e + ticks, sent := some o, tx := satInc u.tx, credit := (t.eport p).credit, credAt := (t.eport p).credAt } ∧
          bget (t.eport p).credit k = creditAt u k (slope k) true e - ((rate - slope k) * ticks : Nat) ∧ bget (t.eport p).credAt k = e + ticks ∧
          ∀ j, j ≠ k → bget (t.eport p).credit j = bget u.credit j ∧ bget (t.eport p).credAt j = bget u.credAt j) ∧
      ((∀ k, ¬may k) → Runs (.ethFrameTransmit p) s fun t => t = s)) ∧
    (reachesMem r = true → s.up 5 = true → s.pwr.mode ≠ .entering → ∀ (v : Word),
      let a := s.eth.htxr
      let desc := memRead s.mem (0x866000 + a)
      let len := fld desc 10 0
      let n := (len + 3) / 4
      let ws := memReadN s.mem (0x866000 + a + 1) n
      let g := ethParse ((plainOcts ws).take len)
      let k := fld desc 30 28
      let high := 4 ≤ (pcpClass s.obj (ethPrio g)).val
      let coded : Prop := ∀ x ∈ ws, flagsOk x = true
      let mask := fld desc 35 31
      let one : Prop := a < 8176 ∧ len ≠ 0 ∧ v.toNat < 8176 ∧ v.toNat = if a + 1 + n = 8176 then 0 else a + 1 + n
      (v.toNat = a → a < 8176 → Runs (.hostTxKick r v) s fun t => t = { s with eth := { s.eth with htxw := a } }) ∧
      (one → (4 ≤ k ∨ ¬coded) → Runs (.hostTxKick r v) s fun t => Reports s t 0x58 2 ∧ t.eport 0 = { s.eport 0 with drops := satInc (s.eport 0).drops } ∧
        (∀ q, q ≠ 0 → t.eport q = s.eport q) ∧ t = { s with flt := t.flt, eth := { s.eth with ports := t.eth.ports, htxw := v.toNat, htxr := v.toNat } }) ∧
      (∀ out to_ : BitVec 5, one → k < 4 → coded → ethSizeOk g = true →
        (mask ≠ 0 ∧ out = BitVec.ofNat 5 mask &&& 0x1E ∨
          mask = 0 ∧ ∃ m b, vlanOf s.obj (ethVlan g) = some (m, b) ∧ m.getLsbD 0 = true ∧ out = s.ethRoute g.dst (ethVlan g) m 0) →
        (∀ q : Fin 5, to_.getLsbD q.val = true ↔ q ≠ 0 ∧ out.getLsbD q.val = true ∧ s.portUp q = true) → to_ ≠ 0 →
        storeUsed s.eth.store + (g.octets.length + 3) / 4 ≤ 24576 → Runs (.hostTxKick r v) s fun t =>
          t.eth.store = s.eth.store ++ [{ frame := g, ingress := 0, ports := to_, cls := if high then 0 else Fin.ofNat 8 k }] ∧ t.eth.remap = (if high then satInc s.eth.remap else s.eth.remap) ∧ t.eth.htxr = v.toNat ∧ t.eth.htxw = v.toNat ∧
            (t.eport 0).rx = satInc (s.eport 0).rx ∧ (∀ q, (t.eport q).drops = (s.eport q).drops) ∧ t = { s with eth := t.eth } ∧
              (mask ≠ 0 → t.eth.learnt = s.eth.learnt))) ∧
    (∀ i en, s.up 5 = true → s.eth.learnt[i]? = some en → e = en.last + secT 300 → Runs (.macAgeout i) s fun t =>
      t.now = e ∧ t.eth = { s.eth with learnt := s.eth.learnt.eraseIdx i } ∧ apart t) ∧
    (∀ (x : Fin 2) (up : Bool) (speed an : BitVec 2), p = xgPort x → s.up 5 = true → portMode s.obj p ≠ 0 →
      let auto := (s.cfg ethIdx 1).testBit (4 + x.val)
      let rate : BitVec 2 := if portMode s.obj p = 1 then 3 else if auto then speed else 2
      let low (en : EthRate) : Bool := !up || rate.toNat < en.speed.toNat
      Runs (.xgLinkChange x up speed an) s fun t => t.eport p = { u with link := up, speed := if up then rate else 0, anok := auto && up && an.getLsbD 0 } ∧
        others t ∧ apart t ∧ (u.link = true → up = false → raised t (0x58 + p.val) 0) ∧ (auto = true → an.getLsbD 1 = true → raised t (0x58 + p.val) 1) ∧
        t.eth = { s.eth with ports := t.eth.ports, rates := s.eth.rates.map fun en => if en.port = x then { en with missing := low en } else en } ∧
        ((∀ en ∈ s.eth.rates, en.port ≠ x) → t.adm = s.adm) ∧
        (∀ en, s.eth.rates = [en] → en.port = x → low en = true → en.missing = false → (s.ct en.contract).inForce = true → s.up 2 = true →
          t.ct en.contract = { s.ct en.contract with misses := satInc (s.ct en.contract).misses, lastMiss := s.stamp, missAt := some s.now })) ∧
    (∀ x : Fin 2, p = t1sPort x → s.up 5 = true →
      (s.portRuns p = 1 → u.plca = true → fld (plcaWord s.obj x) 35 28 ≠ 0 → Runs (.t1sBeaconLost x) s fun t =>
        t.eport p = { u with plca := false, csma := true } ∧ others t ∧ raised t (0x58 + p.val) 0 ∧ raised t (0x58 + p.val) 1 ∧
          t = { s with flt := t.flt, eth := { s.eth with ports := t.eth.ports } }) ∧
      (s.portRuns p = 1 → Runs (.plcaBeaconSeen x) s fun t => t.eport p = { u with plca := true, csma := false } ∧ ports t) ∧
      (s.portRuns p ≠ 0 → u.jab = false → Runs (.t1sJabber x) s fun t => t.eport p = { u with jab := true } ∧ others t ∧ Reports s t (0x58 + p.val) 3 ∧
        t = { s with flt := t.flt, eth := { s.eth with ports := t.eth.ports } }))

/-- R45, R46, R408, R409, R422: Sync and its offset, lock and its loss, Sync and peer delay messages, the receipt timeout. -/
def Obligations.TimeSynchronisation : Prop :=
  ∀ (x : Fin 2) (offset : Int) (gmid : BitVec 64) (delay e : Nat) (s : State), s.Ahead e →
    let p := xgPort x
    let u := s.eport p
    let slave := ptpSlave s.obj
    let interval := 100000000 / 2 ^ (s.cfg ethIdx 0x0D / 8 % 8)
    let others (t : State) : Prop := ∀ q, q ≠ p → t.eport q = s.eport q
    let apart (t : State) : Prop := t.mem = s.mem ∧ t.cores = s.cores ∧ t.dom = s.dom ∧ t.srv = s.srv ∧ t.eth.store = s.eth.store
    let raised (t : State) (kind : Nat) : Prop := ({ src := 0x5E * 32 + kind, stamp := t.stamp, wrapped := none } : Report) ∈ t.flt.inflight
    let sync : Instr := .ptpSyncReceive offset gmid
    let noted (t : State) : Prop := t.eth.ptpOfs = BitVec.ofInt 36 (Max.max (-(2 ^ 35)) (Min.min offset (2 ^ 35 - 1))) ∧ t.eth.gmid = gmid.setWidth 72 ∧
      t.eth.syncAt = some s.now ∧ t.eth.ports = s.eth.ports ∧ apart t ∧ t.now = s.now ∧ (s.eth.gmid ≠ gmid.setWidth 72 → raised t 2)
    (s.up 5 = true → slave ≠ 0 → s.portUp (Fin.ofNat 5 slave) = true →
      (s.tsrc ≠ 1 → Runs sync s fun t => noted t ∧ t.time = s.time ∧ t.eth.good = s.eth.good ∧ (s.eth.gmid = gmid.setWidth 72 → t.flt = s.flt)) ∧
      (s.tsrc = 1 →
        let ticks := offset / 10
        let adjusts (t : State) : Prop :=
          (ticks.natAbs ≤ 500000 ∨ s.isActive = true → t.time.offset = ticks ∧ t.time.step = 0) ∧
          (500000 < ticks.natAbs → s.isActive = false → t.time.offset = ticks - 100000 * t.time.step ∧ t.time.offset.natAbs ≤ 50000)
        (offset.natAbs ≤ 200 → Runs sync s fun t => noted t ∧ adjusts t ∧ t.eth.good = s.eth.good + 1 ∧
          (7 ≤ s.eth.good → s.time.src ≠ 3 → t.time.disc = true ∧ t.time.src = 1) ∧ (s.eth.good < 7 → t.time.disc = s.time.disc ∧ t.time.src = s.time.src)) ∧
        (200 < offset.natAbs → offset.natAbs ≤ 2000 → Runs sync s fun t =>
          noted t ∧ adjusts t ∧ t.eth.good = 0 ∧ t.time.disc = s.time.disc ∧ t.time.src = s.time.src) ∧
        (2000 < offset.natAbs → Runs sync s fun t => noted t ∧ adjusts t ∧ t.eth.good = 0 ∧ t.time.disc = false ∧ t.time.src = s.time.src ∧
          (s.time.disc = true → raised t 0)))) ∧
    (s.portUp p = true → (slave = 0 ∨ (s.cfg ethIdx 0x0D).testBit 2 = true ∧ slave ≠ x.val + 1) →
      (u.synced = none ∧ e = s.now ∨ ∃ a, u.synced = some a ∧ e = a + interval) → Runs (.ptpSyncSend x) s fun t => t.now = e ∧ others t ∧ apart t ∧
        t.eport p = { u with synced := some e, tx := satInc (satInc u.tx) } ∧ t.eth = { s.eth with ports := t.eth.ports }) ∧
    (s.portUp p = true → (u.pdAt = none ∧ e = s.now ∨ ∃ a, u.pdAt = some a ∧ e = a + secT 1) → Runs (.ptpPdelay x delay) s fun t =>
      t.now = e ∧ others t ∧ apart t ∧ t.eport p = { u with pdAt := some e, pdelay := delay, tx := satInc u.tx } ∧ t.eth = { s.eth with ports := t.eth.ports }) ∧
    (∀ a, s.up 5 = true → slave ≠ 0 → s.eth.syncAt = some a → e = a + 3 * interval → Runs .ptpSyncTimeout s fun t =>
      t.now = e ∧ t.eth.syncAt = none ∧ t.eth.ports = s.eth.ports ∧ raised t 3 ∧ apart t ∧
        (s.tsrc = 1 → t.time.disc = false ∧ t.time.src = (if s.time.src = 3 then 3 else 0) ∧ t.eth.good = 0 ∧ (s.time.disc = true → raised t 0)) ∧
        (s.tsrc ≠ 1 → t.time.disc = s.time.disc ∧ t.time.src = s.time.src))

/-- R409 to R419, R421, R422, R530 to R532: the ring's train, its frames, violations and repair, joining, and the timer's role. -/
def Obligations.RewellRing : Prop :=
  ∀ (f : RingFrame) (c : CycFrame) (lock : Bool) (e : Nat) (s : State), s.Ahead e →
    let r := s.ring
    let id := s.duo.casc
    let only (t : State) (r' : Ring) : Prop := t = { s with ring := r' }
    let apart (t : State) : Prop := t.mem = s.mem ∧ t.cores = s.cores ∧ t.dom = s.dom ∧ t.srv = s.srv ∧ t.hs = s.hs ∧ t.eth.ports = s.eth.ports
    let raised (t : State) (blk kind : Nat) : Prop := ({ src := blk * 32 + kind, stamp := t.stamp, wrapped := none } : Report) ∈ t.flt.inflight
    let win := if r.winNext then s.ringWin else r.win
    let train := if r.winNext then s.cfg ringIdx 3 else r.train
    let taken : Ring := { r with win := win, train := train, winNext := false }
    let noted : Ring := { r with lastCyc := s.now, missed := 0 }
    let running : Prop := s.up 5 = true ∧ s.ringOn = true
    let follows : Prop := s.onTheRing = true ∧ r.timer = false
    let times : Prop := s.onTheRing = true ∧ r.timer = true
    let freed (t : State) : Prop := t.time.disc = false ∧ t.time.src = (if s.time.src = 3 then 3 else 0) ∧ (s.time.disc = true → raised t 0x5E 0)
    let undisc (t : State) : Prop := t.time.disc = s.time.disc ∧ t.time.src = s.time.src
    (times → e % 10000 = 0 → r.lastCyc < e → (∀ b, b % 10000 = 0 → s.now ≤ b → r.lastCyc < b → e ≤ b) → Runs .ringCycleStart s fun t =>
      t.now = e ∧ apart t ∧ Window s t win ∧ (r.opened.isSome = true → raised t 0x5D 3) ∧ (r.opened = none → t.flt.inflight = s.flt.inflight) ∧
        t.ring = { taken.windowed t.ring with opened := some e, back := none, lastCyc := e, cycs := satInc r.cycs, tok := r.tok && r.opened.isNone, lost := if r.opened.isSome then satInc r.lost else r.lost }) ∧
    (times →
      (∀ a, r.join = false → r.opened = some a →
        let w := cycWord c.pres c.hops c.order
        let back : Ring := { r with back := some s.now, rtrip := (s.now - a) * 10, order := w }
        (r.order = w → Runs (.ringCycReceive c) s fun t => only t back) ∧
        (r.order ≠ w → Runs (.ringCycReceive c) s fun t => t = { s with ring := back, flt := t.flt } ∧ Reports s t 0x5D 4)) ∧
      (∀ a b, r.opened = some a → r.back = some b →
        let whole : Ring := { r with opened := none, back := none, tok := true, viol := none }
        (s.now - b ≤ 4 * r.train → Runs .ringTendReceive s fun t => only t whole) ∧
        (4 * r.train < s.now - b → Runs .ringTendReceive s fun t => t = { s with ring := whole, flt := t.flt } ∧ Reports s t 0x5D 5)) ∧
      (∀ a, r.opened = some a → e = a + 10000 → Runs .ringTendLost s fun t => t.now = e ∧ apart t ∧ ReportsNow s t 0x5D 3 ∧
        t.ring = { r with opened := none, back := none, tok := false, lost := satInc r.lost })) ∧
    (running → r.join = true →
      let hears : Ring := { noted with heard := r.heard + 1 }
      let here : Bool := c.pres.getLsbD id.val || inOrder c id
      (here = false ∨ s.duo.dup = true → Runs (.ringCycReceive c) s fun t => only t hears) ∧
      (here = true → s.duo.dup = false → Runs (.ringCycReceive c) s fun t =>
        t = { s with ring := hears, duo := { s.duo with dup := true }, flt := t.flt } ∧ Reports s t 0 8)) ∧
    (follows → r.join = false →
      let ns : Int := ((c.time.toNat : Int) - s.now) * 10 + c.corr + s.cfg ringIdx 4
      let passed (t : State) : Prop := apart t ∧ t.now = s.now ∧
        t.ring = { taken with lastCyc := s.now, missed := 0, cycs := satInc r.cycs, order := t.ring.order } ∧
        (∀ j, j < 8 → t.ring.order.getLsbD (28 + j) = (c.pres.getLsbD j || j == id.val)) ∧ fld t.ring.order 27 24 = (c.hops.toNat + 1) % 16 ∧
        ∀ p, p < 8 → fld t.ring.order (3 * p + 2) (3 * p) = if p = c.hops.toNat then id.val else c.order.toNat / 2 ^ (3 * p) % 8
      (s.tsrc ≠ 2 → Runs (.ringCycReceive c) s fun t => passed t ∧ t.time = s.time ∧ t.flt = s.flt) ∧
      (s.tsrc = 2 →
        let follows (t : State) : Prop := (ns / 10).natAbs ≤ 500000 ∨ s.isActive = true → t.time.offset = ns / 10 ∧ t.time.step = 0
        (ns.natAbs ≤ 100 → Runs (.ringCycReceive c) s fun t => passed t ∧ follows t ∧ t.eth.good = s.eth.good + 1 ∧
          (15 ≤ s.eth.good → s.time.src ≠ 3 → t.time.disc = true ∧ t.time.src = 2) ∧ (s.eth.good < 15 → undisc t)) ∧
        (100 < ns.natAbs → ns.natAbs ≤ 1000 → Runs (.ringCycReceive c) s fun t => passed t ∧ follows t ∧ t.eth.good = 0 ∧ undisc t) ∧
        (1000 < ns.natAbs → Runs (.ringCycReceive c) s fun t => passed t ∧ follows t ∧ t.eth.good = 0 ∧ t.time.disc = false ∧
          (s.time.disc = true → raised t 0x5E 0)))) ∧
    (follows →
      (Runs .ringTendReceive s fun t => Window s t r.win ∧ only t t.ring ∧ t.ring = { r.windowed t.ring with viol := none }) ∧
      (∀ a, r.viol = some a → e = a + 400 → Runs .ringTrainRepair s fun t => t.now = e ∧ apart t ∧ Window s t r.win ∧
        t.ring = { r.windowed t.ring with viol := none }) ∧
      (r.missed = 0 → e = r.lastCyc + 30000 → Runs .ringCycLost s fun t => t.now = e ∧ apart t ∧ raised t 0x5D 2 ∧
        t.ring = { r with missed := 3, lost := wd (min (2 ^ 36 - 1) (r.lost.toNat + 3)) } ∧ (s.tsrc = 2 → freed t) ∧ (s.tsrc ≠ 2 → undisc t)) ∧
      (r.missed ≠ 0 → e = r.lastCyc + (r.missed + 1) * 10000 → Runs .ringCycLost s fun t => t.now = e ∧ apart t ∧
        t.ring = { r with missed := r.missed + 1, lost := satInc r.lost } ∧ t.flt.inflight = s.flt.inflight)) ∧
    (times → ∀ a, r.viol = some a → e = a + 400 → Runs .ringTrainRepair s fun t => t.now = e ∧ apart t ∧ t.ring = { r with viol := none }) ∧
    (s.onTheRing = true →
      (f.src = id → Runs (.ringFrameReceive f) s fun t => t = s) ∧
      (f.src ≠ id → r.timer = true → f.lap = true → Runs (.ringFrameReceive f) s fun t =>
        t = { s with ring := { r with orphans := satInc r.orphans }, flt := t.flt } ∧ Reports s t 0x5D 7) ∧
      (f.src ≠ id → (r.timer = false ∨ f.lap = false) →
        let w := chanWord s.obj f.chan.val
        let mine : Prop := f.cls = 5 ∧ (f.bc = true ∨ f.dst = id) ∧ w.getLsbD 35 = true ∧ w.getLsbD 34 = false ∧ fld w 33 31 = f.src.val
        (f.eer = true → Runs (.ringFrameReceive f) s fun t => t = s) ∧
        (f.eer = false → f.crcOk = false → Runs (.ringFrameReceive f) s fun t =>
          t = { s with ring := { r with errs := satInc r.errs }, flt := t.flt } ∧ Reports s t 0x5D 1) ∧
        (∀ n, f.eer = false → f.crcOk = true → mine → s.flowOf (0x5D00 + f.chan.val) = some n → Runs (.ringFrameReceive f) s fun t => t = s.toFlow n f.words) ∧
        (∀ x, f.eer = false → f.crcOk = true → f.cls = 4 → f.dst = id → s.up 2 = true →
          let os := (unpackFrame f.words).1
          let o (i : Nat) : Byte := os.getD i 0
          let asks (y : FwdReq) : Prop :=
            y.hdr.node.toNat = f.src.val ∧ y.svc = (o 0).toNat % 64 ∧ y.hdr.rqid = o 3 ∧ y.hdr.index = o 4 ++ o 5 ∧ y.hdr.sub = o 6
          let refused := (o 1).getLsbD 6
          (o 0).toNat / 64 = 1 → (o 1).msb = true → (refused = true → o 8 ≠ 0) → x ∈ s.srv.fwd → asks x → (∀ y ∈ s.srv.fwd, asks y → y = x) →
          (∀ i, x.by_ = .session i → (bget s.srv.sess i).isSome = true) →
            let left : State := { s with srv := { s.srv with fwd := s.srv.fwd.erase x } }
            Runs (.ringFrameReceive f) s fun t =>
              Replies left t x.by_ x.hdr x.svc (if refused then (o 8, o 9 ++ o 10) else okc) ((os.drop 8).take (o 7).toNat)) ∧
        (f.eer = false → f.crcOk = true → (¬mine ∨ s.flowOf (0x5D00 + f.chan.val) = none) → (f.cls ≠ 4 ∨ f.dst ≠ id ∨ s.srv.fwd = []) →
          Runs (.ringFrameReceive f) s fun t => t = s)) ∧
      (Runs .ringCodeViolation s fun t => apart t ∧ raised t 0x5D 0 ∧ raised t 0x5D 1 ∧
        t.ring = { r with cviol := satInc r.cviol, dirty := true, viol := some s.now, errs := satInc r.errs })) ∧
    (running → r.join = true →
      (16 ≤ r.heard → s.duo.dup = false → Runs .ringJoin s fun t => only t { r with byp := false, join := false, missed := 0 }) ∧
      (r.heard < 16 ∨ s.duo.dup = true → Runs .ringJoin s fun t => t = s)) ∧
    (∀ a, running → r.timer = false → s.duo.dup = false → (r.byp = false ∨ r.join = true) →
      (id = 0 ∧ r.join = true ∧ r.heard = 0 ∧ a = r.since + 200000 ∨
        ¬(id = 0 ∧ r.join = true ∧ r.heard = 0) ∧ s.cfgB 0x1600 7 = true ∧ a = r.lastCyc + (3 + 4 * id.val) * 10000) →
      e % 10000 = 0 → a ≤ e → (∀ b, b % 10000 = 0 → s.now ≤ b → a ≤ b → e ≤ b) → Runs .ringTimerTake s fun t => t.now = e ∧ apart t ∧ raised t 0 9 ∧
        t.ring = { r with timer := true, byp := false, join := false, missed := 0, lastCyc := e - 1, opened := none, back := none, viol := none } ∧
        t.tsrc ≠ 2 ∧ (s.tsrc = 2 → freed t)) ∧
    (s.up 5 = true → Runs (.ringSymbolLock lock) s fun t => only t { r with lock := lock })

/-- R359, R389, R424, R425, R428 to R436: REQ, IDLE, entry and its refusals, wakes and their filters. -/
def Obligations.PowerStates : Prop :=
  ∀ (r : Requester) (src : WakeSrc) (num : BitVec 8) (n : Fin 64) (mV : Nat) (ch : Fin 8) (f : CanFrame) (e : Nat) (s : State), s.Ahead e →
    let p := s.pwr
    let apart (t : State) : Prop := t.mem = s.mem ∧ t.cores = s.cores ∧ t.dom = s.dom ∧ t.srv.objs = s.srv.objs ∧ t.fab = s.fab
    let only (t : State) (p' : Power) : Prop := t = { s with pwr := p' }
    let told (t : State) : Prop := ∃ a, t.srv.answer = some a ∧ a.dest = r ∧ a.code = 0
    let req (i : Instr) (v : Byte) : Prop := s.Takes r pwrIdx 1 [wd v.toNat] → Runs i s fun t => t.pwr = { p with req := v } ∧ told t ∧ apart t ∧ t.adm = s.adm
    let waits : Prop := ∀ q : Fin 2, (bget s.cores q).run = .waiting
    let runs : Prop := p.mode = .run ∨ p.mode = .idle
    let parked : Prop := p.mode = .park ∨ p.mode = .deep
    let net := s.cfgB pwrIdx 0x10
    let starts : Prop := runs ∧ s.sup.crank = false ∧ (if net then p.due = true else p.req ≠ 0) ∧ e % 100000 = 0 ∧ e < s.now + 100000
    let entered : Power := { p with mode := .entering, start := e, deep := p.req = 2, due := false, viaRep := if net then 2 else 0, latched := none, storing := false }
    let how : Byte := if net then 2 else 0
    let drained : Prop := p.mode = .entering ∧ s.undrained = none ∧ s.loadInWay = none
    let wake (a : State) (code k : Byte) : Wake := { src := code, num := k, stamp := a.stamp, replay := false, multi := false }
    let back (w : Wake) (at_ : Nat) : Power := { p with mode := .returning, start := at_, wake := some w, next := 1 }
    req (.parkReqNone r) 0 ∧ req (.parkRequest r) 1 ∧ req (.deepParkRequest r) 2 ∧
    (p.mode = .run → s.sup.crank = false → s.up 6 = true →
      (s.cfgB pwrIdx 3 = true → waits → Runs .idleEnter s fun t => only t { p with mode := .idle }) ∧
      (s.cfgB pwrIdx 3 = false ∨ ¬waits → Runs .idleEnter s fun t => t = s)) ∧
    (p.mode = .idle → Runs .idleExit s fun t => only t { p with mode := .run }) ∧
    (starts →
      let misses (t : State) : Prop := ∀ k, (s.ct k).inForce = true → s.up 2 = true →
        t.ct k = { s.ct k with misses := satInc (s.ct k).misses, lastMiss := t.stamp, missAt := some t.now }
      (s.cfgB pwrIdx 5 = false →
        (s.loadInWay = none → s.dbgAttached = false → Runs .entryStart s fun t => t.now = e ∧ t.pwr = entered ∧ misses t ∧ apart t ∧ t.hs = s.hs ∧
          t.adm.charges = s.adm.charges ∧ t.adm.defer = s.adm.defer) ∧
        (s.loadInWay = none → s.dbgAttached = true → Runs .entryStart s fun t => t.now = e ∧ RefusesEntry s t 6 0x0D how ∧ misses t ∧ apart t ∧ t.hs = s.hs) ∧
        (∀ b, s.loadInWay = some b → Runs .entryStart s fun t => t.now = e ∧ RefusesEntry s t 2 b how ∧ misses t ∧ apart t ∧ t.hs = s.hs)) ∧
      (s.cfgB pwrIdx 5 = true → s.dbgAttached = false → Runs .entryStart s fun t => t.now = e ∧ t.adm.defer = [] ∧
        (s.ValvesLined → t.pwr = entered ∧ t.loadInWay = none) ∧
        (∀ c, (bget t.hs c).out = false ∧ (bget t.hs c).cmd = .off) ∧ (∀ k, (bget t.sinks k).x = 0 ∧ (bget t.sinks k).last = 0) ∧
        (∀ k, (bget t.ios k).on = false) ∧ (∀ k, (bget t.vd k).cmd = false) ∧ apart t)) ∧
    (runs → (if net then p.due = false else p.req = 0) → Runs .entryStart s fun t => t = s) ∧
    (drained → s.srv.storing = false →
      (s.dbgAttached = true → Runs .entryComplete s fun t => RefusesEntry s t 6 0x0D p.viaRep ∧ t = { s with pwr := t.pwr, flt := t.flt }) ∧
      (s.dbgAttached = false → s.srv.dirty.isSome = true → Runs .entryComplete s fun t =>
        t = { s with srv := { s.srv with storing := true, dirty := none }, pwr := { p with storing := true } }) ∧
      (s.dbgAttached = false → s.srv.dirty = none → Runs .entryComplete s fun t => t.now = s.now ∧
        (∀ d, 2 ≤ d.val → bget t.dom d = { powered := false, held := false }) ∧ bget t.dom 1 = { powered := true, held := true } ∧ bget t.dom 0 = bget s.dom 0 ∧
        (∀ x, memRead t.mem x = if x < 0x800000 then memRead s.mem x else 0) ∧ (∀ c, (bget t.hs c).out = false) ∧ t.duo.role = .off ∧
        t.pwr.start = s.now ∧ t.pwr.req = 0 ∧ t.pwr.entries = satInc p.entries ∧ t.pwr.storing = false ∧ t.pwr.latched = none ∧
        (p.latched = none → t.pwr.mode = if p.deep then .deep else .park) ∧
        (∀ w, p.latched = some w → t.pwr.mode = .returning ∧ t.pwr.wake = some { w with replay := true } ∧ t.pwr.next = 1 ∧
          ({ src := 0x02 * 32 + 1, stamp := s.stamp, wrapped := none } : Report) ∈ t.flt.inflight))) ∧
    (p.mode = .entering → e = p.start + msT (s.cfg pwrIdx 4) →
      let refuses (reason blk : Nat) : Prop := Runs .entryDrainTimeout s fun t => t.now = e ∧ RefusesEntry s t reason blk p.viaRep ∧ apart t ∧ t.hs = s.hs
      (∀ b, s.undrained = some b → (∀ l, s.loadInWay = some l → b < l) → refuses 1 b) ∧
      (∀ l, s.loadInWay = some l → (∀ b, s.undrained = some b → l ≤ b) → refuses 2 l) ∧
      (s.undrained = none → s.loadInWay = none → (s.srv.storing = true ∨ s.srv.dirty.isSome = true) → refuses 3 0x09)) ∧
    (let enabled : Prop := match src with
       | .input => num.toNat < 64 ∧ (s.cfg (0x2300 + num.toNat) 8 % 4 = 2 ∨ s.cfg (0x2300 + num.toNat) 8 % 4 = 1 ∧ p.deep = false)
       | .canWup => num.toNat < 8 ∧ (s.cfg (0x3000 + num.toNat) 0x10 % 4 = 2 ∨ s.cfg (0x3000 + num.toNat) 0x10 % 4 = 1 ∧ p.deep = false) ∧
           (p.deep = true ∨ (s.cfg (0x3000 + num.toNat) 0x10).testBit 2 = false)
       | .canWuf => num.toNat < 8 ∧ p.deep = false ∧ s.cfg (0x3000 + num.toNat) 0x10 % 4 ≠ 0 ∧ (s.cfg (0x3000 + num.toNat) 0x10).testBit 2 = true
       | .lin => num.toNat < 8 ∧ p.deep = false ∧ (s.cfg (0x3100 + num.toNat) 6).testBit 0 = true
       | .t1s => num.toNat < 2 ∧ p.deep = false ∧ (s.cfg pwrIdx 0x0C).testBit num.toNat = true
       | .ring => p.deep = false ∧ s.cfgB 0x3300 6 = true
       | .handle => p.deep = false ∧ (s.cfg 0x2900 2).testBit (if num.toNat = 4 then 1 else 0) = true ∧ s.acs.lockEnd = none
       | .timer => p.wtimer ≠ 0
     let code : Byte := match src with | .input => 1 | .canWup => 2 | .canWuf => 3 | .lin => 4 | .t1s => 5 | .ring => 6 | .handle => 7 | .timer => 8
     let w := wake s code num
     (¬enabled → Runs (.wakeEvent src num) s fun t => t = s) ∧
     (enabled →
       (parked → Runs (.wakeEvent src num) s fun t => t.pwr = back w s.now ∧ t = { s with pwr := t.pwr, inputs := t.inputs, acs := t.acs } ∧
         ∀ i, bget t.inputs i = { bget s.inputs i with wakec := src == .input && i.val == num.toNat }) ∧
       (p.mode = .entering → p.latched = none → Runs (.wakeEvent src num) s fun t => only t { p with latched := some w }) ∧
       (∀ o, p.mode = .entering → p.latched = some o → (o.stamp ≠ w.stamp ∨ o.src.toNat ≤ code.toNat) → Runs (.wakeEvent src num) s fun t =>
         only t { p with latched := some { o with multi := true } }) ∧
       (∀ o, p.mode = .returning → p.wake = some o →
         let kept : Wake := if o.stamp = w.stamp ∧ code.toNat < o.src.toNat then { w with replay := o.replay, multi := true } else { o with multi := true }
         Runs (.wakeEvent src num) s fun t => only t { p with wake := some kept }) ∧
       (p.mode = .run → Runs (.wakeEvent src num) s fun t => t = s))) ∧
    (parked → p.wtimer ≠ 0 → e = p.start + secT p.wtimer → Runs .wakeTimerExpire s fun t => t.now = e ∧ t.pwr = back (wake t 8 0) e ∧ apart t) ∧
    (p.deep = (p.mode == .deep) →
      let w := s.cfg (0x2300 + n.val) 8
      let i : Fin 80 := ⟨n.val, by omega⟩
      let u := bget s.inputs i
      let c := s.inClass i mV
      let agree := if u.poll = some c then u.agree + 1 else 1
      let bit := match c with | .open_ => 4 | .inactive => 5 | .active => 6 | .short => 7
      let wakes : Prop := c ≠ u.entry ∧ s.cfg (0x2300 + n.val) 9 ≤ agree ∧ w.testBit bit = true
      parked → (w % 4 = 2 ∨ w % 4 = 1 ∧ p.mode = .park) → e % 5000000 = n.val * 1000 → e < s.now + 5000000 →
        (¬wakes → Runs (.parkPoll n mV) s fun t => t.now = e ∧ t.pwr = p ∧ apart t ∧ bget t.inputs i = { u with poll := some c, agree := agree } ∧
          ∀ j, j ≠ i → bget t.inputs j = bget s.inputs j) ∧
        (wakes → Runs (.parkPoll n mV) s fun t => t.now = e ∧ t.pwr = back (wake t 1 (BitVec.ofNat 8 n.val)) e ∧ apart t ∧
          bget t.inputs i = { u with poll := some c, agree := agree, wakec := true })) ∧
    (p.deep = (p.mode == .deep) → parked → s.cfg (0x3000 + ch.val) 2 = 0 →
      let w := s.cfg (0x3000 + ch.val) 0x10
      let c := s.can ch
      let ons (t : State) (c' : CanCh) : Prop := t.can ch = c' ∧ (∀ k, k ≠ ch → t.can k = s.can k) ∧ t = { s with cans := t.cans }
      (w % 4 ≠ 0 → w.testBit 2 = true → p.deep = false → Runs (.canWupDetect ch) s fun t =>
        ons t { c with decode := some s.now, wufErr := if c.decode.isSome then c.wufErr else 0 }) ∧
      ((w % 4 = 2 ∧ (w.testBit 2 = false ∨ p.deep = true) ∨ w % 4 = 1 ∧ w.testBit 2 = false ∧ p.deep = false) → Runs (.canWupDetect ch) s fun t =>
        t.pwr = back (wake s 2 (BitVec.ofNat 8 ch.val)) s.now ∧ apart t ∧ t.cans = s.cans) ∧
      (w % 4 = 0 → Runs (.canWupDetect ch) s fun t => t = s) ∧
      (∀ a, c.decode = some a →
        let seen : CanCh := { c with decode := some s.now }
        let up : CanCh := { seen with wufErr := c.wufErr + 1 }
        let down : CanCh := { seen with wufErr := c.wufErr - 1 }
        let id := (s.obj (0x3000 + ch.val) 0x11).getD 0 0
        let mask := fld ((s.obj (0x3000 + ch.val) 0x11).getD 1 0) 28 0
        let data := ((s.obj (0x3000 + ch.val) 0x12).getD 0 0).toNat * 2 ^ 36 + ((s.obj (0x3000 + ch.val) 0x12).getD 1 0).toNat
        let bits := f.data.foldl (fun a o => a * 256 + o.toNat) 0 * 2 ^ (64 - 8 * min 8 f.data.length)
        let hit : Prop := f.ide = id.getLsbD 32 ∧ f.id.toNat &&& mask = fld id 28 0 &&& mask ∧ f.dlc.toNat = data / 2 ^ 68 ∧
          (data % 2 ^ 64 = 0 ∨ bits &&& (data % 2 ^ 64) ≠ 0)
        let on : Prop := w % 4 ≠ 0 ∧ w.testBit 2 = true ∧ p.deep = false
        let woken (c' : CanCh) (t : State) : Prop := t.pwr = back (wake s 3 (BitVec.ofNat 8 ch.val)) s.now ∧ apart t ∧ t.can ch = c'
        (c.wufErr < 31 → Runs (.canWufDetect ch f true) s fun t => ons t up) ∧
        (31 ≤ c.wufErr → on → Runs (.canWufDetect ch f true) s (woken up)) ∧
        (f.fdf = true → Runs (.canWufDetect ch f false) s fun t => ons t seen) ∧
        (f.fdf = false → ¬hit → Runs (.canWufDetect ch f false) s fun t => ons t down) ∧
        (f.fdf = false → hit → on → Runs (.canWufDetect ch f false) s (woken down)) ∧
        (e = a + secT 1 → Runs (.wufDecoderTimeout ch) s fun t => t.now = e ∧ apart t ∧ t.pwr = p ∧ t.can ch = { c with decode := none, wufErr := 0 } ∧
          ∀ k, k ≠ ch → t.can k = s.can k)))

/-- R437, R439 to R444: rounds, commits, keep-alives, the overrule and the replay of a wake.  Which octet a refusing node names, and that the master is not
excluded, are DEDUCED (logs 17 and 18). -/
def Obligations.NetworkSleep : Prop :=
  ∀ (m : DaisyMsg) (med : DaisyMed) (rd : Round) (n : Node) (v : Byte) (e : Nat) (s : State), s.Ahead e →
    let p := s.pwr
    let my := s.cfg pwrIdx 0x11
    let own : Byte := BitVec.ofNat 8 my
    let list := nodeList s.obj
    let runs : Prop := p.mode = .run ∨ p.mode = .idle
    let master : Prop := s.cfgB pwrIdx 0x12 = true ∧ s.cfgB pwrIdx 0x10 = true ∧ runs
    let apart (t : State) : Prop := t.mem = s.mem ∧ t.cores = s.cores ∧ t.dom = s.dom ∧ t.srv = s.srv ∧ t.hs = s.hs ∧ t.fab = s.fab
    let raised (t : State) (kind : Nat) : Prop := ({ src := 0x02 * 32 + kind, stamp := t.stamp, wrapped := none } : Report) ∈ t.flt.inflight
    let after (excl : List Byte) : Prop := ∃ l me k, list = l ++ me :: k ∧ me.num = my ∧ (∀ x ∈ l, x.num ≠ my) ∧
      (k ++ l ++ [me]).find? (fun x => !x.priv && !excl.contains (BitVec.ofNat 8 x.num)) = some n
    let quiet (at_ : Nat) : Prop := ∀ q, p.quietAt = some q → q + secT (s.cfg pwrIdx 0x16) ≤ at_
    let votes (wish : Prop) (at_ : Nat) : Prop :=
      ¬wish ∧ v = 2 ∨ (∃ b, wish ∧ s.cfgB pwrIdx 5 = false ∧ loadBlocks.find? s.energised = some b ∧ v = BitVec.ofNat 8 b) ∨
        wish ∧ (s.cfgB pwrIdx 5 = true ∨ ∀ b ∈ loadBlocks, s.energised b = false) ∧ (quiet at_ ∧ v = 0xFF ∨ ¬quiet at_ ∧ v = 0x80)
    let opens (t : State) (ovr : Bool) (excl : List Byte) : Prop :=
      Sends s t 1 { gen := p.gen + 1, orig := own, nxt := BitVec.ofNat 8 n.num, ovr := ovr, excl := excl, entries := [(own, v)] } [n.medium] ∧
        t.pwr.round = some { gen := p.gen + 1, opened := e, ovr := ovr } ∧ t.pwr.rounds = satInc p.rounds ∧ t.pwr.dstate = if ovr then 5 else 1
    let commit (gen : Byte) (ovr : Bool) : DaisyMsg := { gen := gen, orig := own, nxt := 0, ovr := ovr, excl := if ovr then p.excl else [], entries := [] }
    let commits (t : State) (at_ : Nat) : Prop := Sends s t 2 (commit rd.gen rd.ovr) s.media ∧ t.pwr.round = none ∧ t.pwr.gen = rd.gen ∧ t.pwr.ovr = rd.ovr ∧
      t.pwr.dstate = 3 ∧ t.pwr.commit = some { gen := rd.gen, ovr := rd.ovr, sent := 1, last := at_ } ∧ t.pwr.req = p.req ∧ t.pwr.mode = p.mode
    let fails (t : State) (at_ : Nat) (refusers : List Byte) : Prop := t.pwr.round = none ∧ t.pwr.failAt = some at_ ∧ t.pwr.refused = refusers ∧ t.pwr.dstate = 0 ∧
      t.pwr.gen = p.gen ∧ t.pwr.commit = p.commit ∧ t.ring = s.ring ∧ t.pwr.req = p.req
    let kept : Prop := ∃ q, p.quietAt = some q ∧ rd.opened ≤ q
    let voter (x : Byte × Byte) : Nat := if x.2 = 0x80 ∧ p.quietAt.isSome = true then p.lastka.toNat else if x.1.toNat = my then 0 else x.1.toNat
    (master → s.sup.crank = false → p.req ≠ 0 → p.round = none → p.commit = none → p.due = false → after [] → votes True e → quiet e →
      (∀ f, p.failAt = some f → f + secT (s.cfg pwrIdx 0x19) ≤ e) →
      (e = s.now ∨ (∃ q, p.quietAt = some q ∧ e = q + secT (s.cfg pwrIdx 0x16)) ∨ ∃ f, p.failAt = some f ∧ e = f + secT (s.cfg pwrIdx 0x19)) →
      Runs .daisyRoundOpen s fun t => t.now = e ∧ apart t ∧ opens t false [] ∧ t.flt.inflight = s.flt.inflight ∧
        t.pwr = { p with round := t.pwr.round, rounds := t.pwr.rounds, dstate := 1, sent := t.pwr.sent }) ∧
    (s.up 5 = true → runs → m.nxt.toNat = my →
      (p.round = some rd → m.orig.toNat = my → m.gen = rd.gen →
        let no := m.entries.filter (·.2 != 0xFF)
        (no = [] → ¬kept → Runs (.daisyRoundReceive m med) s fun t => commits t s.now ∧ t = { s with pwr := t.pwr, ring := t.ring }) ∧
        (∀ x, no = [x] → ¬kept →
          let refused (t : State) : Prop := Refuses s t (if x.2 = 0x80 then 4 else 5) (voter x * 256 + x.2.toNat) 1
          (rd.ovr = false → Runs (.daisyRoundReceive m med) s fun t => refused t ∧ fails t s.now [x.1] ∧ apart t) ∧
          (rd.ovr = true → Runs (.daisyRoundReceive m med) s fun t => refused t ∧ commits t s.now ∧ apart t)) ∧
        (no = [] → kept → Runs (.daisyRoundReceive m med) s fun t => Refuses s t 4 (p.lastka.toNat * 256 + 0x80) 1 ∧ fails t s.now [] ∧ apart t)) ∧
      (m.orig.toNat ≠ my → after m.excl → votes (p.req ≠ 0) s.now → Runs (.daisyRoundReceive m med) s fun t =>
        Sends s t 1 { m with nxt := BitVec.ofNat 8 n.num, entries := m.entries ++ [(own, v)] } [n.medium] ∧ t = { s with pwr := t.pwr, ring := t.ring } ∧
          t.pwr = { p with sent := t.pwr.sent, dstate := if v = 0xFF then 2 else if v = 0x80 then 4 else 0 })) ∧
    (m.nxt.toNat ≠ my → Runs (.daisyRoundReceive m med) s fun t => t = s) ∧
    (p.round = some rd → e = rd.opened + msT (s.cfg pwrIdx 0x18) →
      (rd.ovr = false → Runs .daisyRoundTimeout s fun t => t.now = e ∧ Refuses s t 7 0x02 1 ∧ raised t 3 ∧ fails t e [] ∧ apart t) ∧
      (rd.ovr = true → ¬kept → Runs .daisyRoundTimeout s fun t => t.now = e ∧ commits t e ∧ apart t) ∧
      (rd.ovr = true → kept → Runs .daisyRoundTimeout s fun t => t.now = e ∧ Refuses s t 4 (p.lastka.toNat * 256 + 0x80) 1 ∧ fails t e [] ∧ apart t)) ∧
    (∀ c, p.commit = some c → e = c.last + msT 10 →
      (c.sent = 1 → Runs .daisyCommitRepeat s fun t => t.now = e ∧ Sends s t 2 (commit c.gen c.ovr) s.media ∧ apart t ∧
        t.pwr = { p with commit := some { c with sent := 2, last := e }, sent := t.pwr.sent }) ∧
      (c.sent = 2 → Runs .daisyCommitRepeat s fun t => t.now = e ∧ Sends s t 2 (commit c.gen c.ovr) s.media ∧ apart t ∧
        t.pwr = { p with commit := none, due := true, sent := t.pwr.sent })) ∧
    (s.up 5 = true →
      let d := (m.gen - p.gen).toNat
      let passes (t : State) : Prop := Sends s t 2 m (s.media.filter (· != med)) ∧ t.pwr.gen = m.gen ∧ t.pwr.ovr = m.ovr ∧ t.pwr.req = p.req ∧ t.pwr.mode = p.mode ∧ apart t
      (1 ≤ d → d ≤ 127 → p.req = 0 → m.ovr = false → Runs (.daisyCommitReceive m med) s fun t =>
        passes t ∧ Refuses s t 5 0x80 2 ∧ t.pwr.dstate = 0 ∧ t.pwr.due = p.due) ∧
      (1 ≤ d → d ≤ 127 → (p.req ≠ 0 ∨ m.ovr = true) → runs → Runs (.daisyCommitReceive m med) s fun t =>
        passes t ∧ t.pwr.due = true ∧ t.pwr.dstate = 3 ∧ t.flt = s.flt) ∧
      (d = 0 ∨ 127 < d → Runs (.daisyCommitReceive m med) s fun t => t = s)) ∧
    (s.up 5 = true →
      (runs → Runs (.daisyWakeReceive m med) s fun t =>
        t = { s with pwr := { p with due := false, commit := none, round := none, dstate := 0 } }) ∧
      (∀ a, p.replay = some a → Runs .wakeReplay s fun t =>
        t = { s with pwr := { p with replay := none, sent := t.pwr.sent, linWakes := t.pwr.linWakes, wupRun := (s.cfg pwrIdx 0x0F).testBit 3 } } ∧
        (∀ n : Fin 8, t.pwr.linWakes.getLsbD n.val = true ↔ (s.cfg pwrIdx 0x0F).testBit 1 = true ∧ s.cfg (0x3100 + n.val) 1 = 1) ∧
        ∀ x, x ∈ t.pwr.sent ↔ ∃ d, x = (4, d, { gen := 0, orig := own, nxt := 0, ovr := false, excl := [], entries := [] }) ∧
          (d = .eth ∧ (s.cfg pwrIdx 0x0F).testBit 2 = true ∨
            ∃ ch, d = .can ch ∧ d ∈ s.media ∧ s.cfg (0x3000 + ch.val) 1 = 1 ∧ (s.cfg pwrIdx 0x0F).testBit 0 = true))) ∧
    (∀ a, master → p.awakeAt = some a → e = a + secT (60 * s.cfg pwrIdx 0x17) →
      let excl := (p.refused.filter fun b => list.any fun x => x.num = b.toNat && !x.priv && x.num != my).take 15
      after excl → votes True e → Runs .maxawakeExpire s fun t => t.now = e ∧ apart t ∧ opens t true excl ∧ raised t 2 ∧
        t.pwr = { p with round := t.pwr.round, rounds := t.pwr.rounds, dstate := 5, sent := t.pwr.sent, awakeAt := none, excl := excl, ovrs := satInc p.ovrs })

/-- R449 to R461: polls and their slots, grant and denial, lock-out, the driver's latch, handle sensing and search.  A short abandons the poll in progress
(log 58). -/
def Obligations.AccessAndSearch : Prop :=
  ∀ (r : Requester) (obs : SlotObs) (en : Fin 4) (code : Nat) (tid : BitVec 32) (e : Nat) (s : State), s.Ahead e →
    let a := s.acs
    let apart (t : State) : Prop := t.mem = s.mem ∧ t.cores = s.cores ∧ t.dom = s.dom ∧ t.srv = s.srv ∧ t.hs = s.hs ∧ t.fab = s.fab
    let told (t : State) (c : Byte) (d : Nat) : Prop := ∃ x, t.srv.answer = some x ∧ x.dest = r ∧ x.code = c ∧ x.detail = BitVec.ofNat 16 d
    let raised (t : State) (blk kind : Nat) : Prop := ({ src := blk * 32 + kind, stamp := t.stamp, wrapped := none } : Report) ∈ t.flt.inflight
    let logged (t : State) (payload : List Word) : Prop := s.log.queue.length < 32 → ∃ x ∈ t.log.queue, x.cls = 5 ∧ x.payload = payload
    let running : Prop := s.pwr.mode = .run ∨ s.pwr.mode = .idle
    let parked : Prop := s.pwr.mode = .park ∧ s.pwr.deep = false
    let free : Prop := ∀ l, a.lockEnd = some l → l ≤ s.now
    let able : Prop := s.iop = true ∧ s.cfgB acsIdx 1 = true ∧ a.latched = false ∧ s.isShed 0xAA = false ∧ s.safeOff 0xAA = false
    let begins (t : State) (at_ : Nat) : Prop := t.acs.polls = satInc a.polls ∧ ∃ c, t.acs.poll = some { phase := .powering, start := at_, round := 0, chal := c, frame := [], hit := false, clash := false, valid := 0, invalid := 0, coll := 0, tids := Vector.replicate 8 0, tokens := 0 }
    let write : Instr := .pollRequest (.write r)
    let frame (round : Nat) (c : BitVec 128) : List Byte :=
      let body : List Byte := [0xA5, BitVec.ofNat 8 (round % 4 * 64 + (s.cfg acsIdx 5 - 1) % 8)] ++ (List.range 16).map fun k => c.extractLsb' (120 - 8 * k) 8
      body ++ [(crc16 body).extractLsb 15 8, (crc16 body).extractLsb 7 0]
    (s.Takes r acsIdx 0x0B [1] →
      (free → able → a.poll = none → Runs write s fun t => begins t s.now ∧ told t 0 0 ∧ t = { s with acs := t.acs, free := t.free, srv := t.srv }) ∧
      (∀ p, free → able → a.poll = some p → Runs write s fun t => t.acs = a ∧ told t 0 0) ∧
      (∀ l, a.lockEnd = some l → s.now < l → Runs write s fun t => t.acs = a ∧ told t 7 ((l - s.now + 5999999999) / 6000000000)) ∧
      (free → ¬able → Runs write s fun t => t.acs = a ∧ told t 7 0)) ∧
    (free → able → a.poll = none →
      (running → (bget a.caps en).touched = true → (s.cfg acsIdx 2).testBit 0 = true → Runs (.pollRequest (.touch en)) s fun t =>
        begins t s.now ∧ t = { s with acs := t.acs, free := t.free }) ∧
      (a.wakePoll = true → Runs (.pollRequest .search) s fun t => begins t s.now ∧ t.acs.wakePoll = false ∧ t = { s with acs := t.acs, free := t.free })) ∧
    (∀ p amp, a.poll = some p → p.phase = .powering → e = p.start + msT (s.cfg acsIdx 4) →
      let o : Bool := 5 * amp < s.cfg acsIdx 3
      let d : Bool := !o && 10 * amp ≤ 7 * s.cfg acsIdx 3
      (amp ≤ 1500 → Runs (.pollPoweringEnd amp) s fun t => t.now = e ∧ apart t ∧ (o = true → a.open_ = false → raised t 0x42 0) ∧
        (d = true → a.detune = false → raised t 0x42 2) ∧
        t.acs = { a with open_ := o, detune := d, poll := some { p with phase := .slot 0, start := e + 2098000, frame := frame p.round p.chal } }) ∧
      (1500 < amp → s.srv.commits = [] → Runs (.pollPoweringEnd amp) s fun t =>
        t.now = e ∧ apart t ∧ ReportsNow s t 0x42 1 ∧ t.acs = { a with latched := true, poll := none })) ∧
    (∀ p k q, a.poll = some p → p.phase = .slot k → e = p.start + 1500000 → s.srv.commits = [] →
      let bit : Byte := BitVec.ofNat 8 (2 ^ k.val)
      let enrolled (x : Fin 8) (slot : Nat) (id : BitVec 32) (key : Nat) : Prop :=
        let w (i : Nat) := (s.obj acsIdx 9).getD (2 * x.val + i) 0
        (w 0).getLsbD 35 = true ∧ fld (w 0) 34 32 = slot ∧ fld (w 0) 31 0 = id.toNat ∧ fld (w 1) 35 28 = key
      let proves (x : Fin 8) (id : BitVec 32) (resp : BitVec 64) : Prop := ∃ slot key v, enrolled x slot id key ∧ bget s.upd.keys (Fin.ofNat 32 key) = some v ∧
        (aes v p.chal).toNat / 2 ^ 64 = resp.toNat
      (obs = .empty ∧ q = p ∨ obs = .collision ∧ q = { p with clash := true, coll := p.coll ||| bit } ∨
        (∃ resp x, obs = .answer tid resp ∧ proves x tid resp ∧ (∀ y, proves y tid resp → y = x) ∧
          q = { p with hit := true, valid := p.valid ||| bit, tokens := p.tokens ||| BitVec.ofNat 8 (2 ^ x.val), tids := bset p.tids k tid }) ∨
        (∃ resp, obs = .answer tid resp ∧ (∀ y, ¬proves y tid resp) ∧ q = { p with invalid := p.invalid ||| bit, tids := bset p.tids k tid })) →
      let last : Prop := s.cfg acsIdx 5 ≤ k.val + 1
      let again : Prop := q.hit = false ∧ q.clash = true ∧ q.round < s.cfg acsIdx 6
      let word (outcome x slot : Nat) : Word :=
        wd (outcome * 2 ^ 32 + x * 2 ^ 29 + slot * 2 ^ 26 + q.round * 2 ^ 24 + q.valid.toNat * 2 ^ 16 + q.invalid.toNat * 2 ^ 8 + q.coll.toNat)
      let asked (t : State) : Prop := t.mem = s.mem ∧ t.cores = s.cores ∧ t.dom = s.dom ∧ t.hs = s.hs ∧ t.fab = s.fab ∧ t.srv = { s.srv with subs := t.srv.subs } ∧
        ∀ (i : Nat) x, s.srv.subs[i]? = some (some x) → t.srv.subs[i]? = some (some (if x.key = acsIdx * 256 + 0x0E then { x with stamp := some t.stamp, force := true } else x))
      let ends (t : State) (w : Word) : Prop := t.now = e ∧ asked t ∧ t.acs.poll = none ∧ t.acs.result = w ∧ t.acs.laststamp = t.stamp ∧ t.acs.line0 = true ∧
        t.acs.polls = a.polls ∧ t.acs.caps = a.caps ∧ t.acs.latched = a.latched
      let told_ (t : State) (w : Word) : Prop := logged t ([w, wd (q.chal.toNat / 2 ^ 96)] ++ (allFin 8).map fun i => wd (bget q.tids i).toNat)
      let counts (t : State) (fails : Byte) (lock : Option Nat) (grants denials locks : Word) : Prop := t.acs.fails = fails ∧ t.acs.lockEnd = lock ∧
        t.acs.grants = grants ∧ t.acs.denials = denials ∧ t.acs.locks = locks
      (¬last → Runs (.pollSlotEnd obs) s fun t => t.now = e ∧ apart t ∧
        t.acs = { a with poll := some { q with phase := .slot (Fin.ofNat 8 (k.val + 1)), start := e } }) ∧
      (last → again → Runs (.pollSlotEnd obs) s fun t => t.now = e ∧ apart t ∧ ∃ c,
        t.acs = { a with poll := some { q with phase := .slot 0, start := e + 2098000, round := q.round + 1, chal := c, frame := frame (q.round + 1) c, hit := false, clash := false } }) ∧
      (last → ¬again →
        (∀ x slot id key, q.tokens.getLsbD x.val = true → enrolled x slot id key →
          (∀ y slot' id' key', y ≠ x → q.tokens.getLsbD y.val = true → enrolled y slot' id' key' → slot < slot') → Runs (.pollSlotEnd obs) s fun t =>
            ends t (word 1 x.val slot) ∧ told_ t (word 1 x.val slot) ∧ counts t 0 a.lockEnd (satInc a.grants) a.denials a.locks ∧
              t.acs.lastGrant = e ∧ t.acs.sstop = false) ∧
        (q.tokens = 0 → q.invalid ≠ 0 →
          let f := min 255 (a.fails.toNat + 1)
          (f < 5 → Runs (.pollSlotEnd obs) s fun t => ends t (word 2 0 0) ∧ told_ t (word 2 0 0) ∧ raised t 0x42 3 ∧
            counts t (BitVec.ofNat 8 f) a.lockEnd a.grants (satInc a.denials) a.locks) ∧
          (5 ≤ f → Runs (.pollSlotEnd obs) s fun t => ends t (word 2 0 0) ∧ told_ t (word 2 0 0) ∧ raised t 0x42 3 ∧ raised t 0x42 4 ∧
            counts t (BitVec.ofNat 8 f) (some (e + min 160 (10 * 2 ^ (f - 5)) * 6000000000)) a.grants (satInc a.denials) (satInc a.locks))) ∧
        (q.tokens = 0 → q.invalid = 0 → q.coll ≠ 0 → Runs (.pollSlotEnd obs) s fun t => ends t (word 3 0 0) ∧ told_ t (word 3 0 0) ∧ raised t 0x42 5 ∧
          counts t a.fails a.lockEnd a.grants a.denials a.locks) ∧
        (q.tokens = 0 → q.invalid = 0 → q.coll = 0 → Runs (.pollSlotEnd obs) s fun t => ends t (word 4 0 0) ∧
          counts t a.fails a.lockEnd a.grants a.denials a.locks ∧ t.log = s.log ∧ t.flt.inflight = s.flt.inflight))) ∧
    (∀ l, a.lockEnd = some l → e = max s.now l → Runs .lockoutExpire s fun t => t.now = e ∧ apart t ∧ t.acs = { a with lockEnd := none }) ∧
    (s.Takes r acsIdx 0x0D [1] → Runs (.lockoutClear r) s fun t => t.acs = { a with lockEnd := none, fails := 0, flashFails := 0 } ∧ told t 0 0 ∧
      logged t [wd (2 * 2 ^ 32)] ∧ t = { s with acs := t.acs, srv := t.srv, log := t.log, flt := t.flt }) ∧
    (s.Takes r acsIdx 0x0C [1] → Runs (.lfDriverClear r) s fun t => t.acs = { a with latched := false } ∧ told t 0 0 ∧ t = { s with acs := t.acs, srv := t.srv }) ∧
    (∀ p, s.iop = true → a.poll = some p → s.srv.commits = [] → Runs .lfShort s fun t =>
      Reports s t 0x42 1 ∧
      t = { s with acs := { a with latched := true, poll := none }, flt := t.flt, adm := { s.adm with extraResv := t.adm.extraResv } }) ∧
    (s.up 2 = true → s.iop = true → s.srvFree r = true → (s.access r acsIdx 0x0E false).isLeft = true → Runs (.resultRead r) s fun t =>
      t.acs = { a with line0 := false } ∧ told t 0 0 ∧ ∃ x, t.srv.answer = some x ∧ x.data = [a.result]) ∧
    (let cfg := s.cfg acsIdx 0x0A
     let c := bget a.caps en
     let hth : Nat := cfg / 2 ^ 24 % 256
     let hcnt : Nat := cfg / 2 ^ 12 % 16
     let high (b : Int) : Prop := b + 64 * hth ≤ 64 * (code : Int)
     let cap (t : State) (c' : CapSense) : Prop := bget t.acs.caps en = { c' with last := e } ∧ ∀ k, k ≠ en → bget t.acs.caps k = bget a.caps k
     let just (t : State) (c' : CapSense) : Prop := t.now = e ∧ apart t ∧ cap t c' ∧ t.acs = { a with caps := t.acs.caps }
     let measure : Instr := .handleMeasure en code
     let since := if c.highs = 0 then e else c.since
     let felt : CapSense := { c with highs := c.highs + 1, since := since, touched := hcnt ≤ c.highs + 1 }
     cfg.testBit (32 + en.val) = true → e = c.last + msT (cfg / 2 ^ 16 % 256) →
       (c.base = none → Runs measure s fun t => just t { c with base := some (64 * code) }) ∧
       (∀ b, c.base = some b →
         (¬high b → Runs measure s fun t => just t { c with base := some (b + (64 * (code : Int) - b) / 64), highs := 0, ignored := false, touched := false }) ∧
         (high b → c.ignored = true → Runs measure s fun t => just t c) ∧
         (high b → c.ignored = false → secT 30 ≤ e - since → Runs measure s fun t => raised t 0x43 1 ∧ just t { felt with ignored := true, touched := false }) ∧
         (high b → c.ignored = false → e - since < secT 30 →
           (c.highs + 1 ≠ hcnt ∨ (s.cfg acsIdx 2).testBit 0 = false → Runs measure s fun t => just t felt) ∧
           (c.highs + 1 = hcnt → (s.cfg acsIdx 2).testBit 0 = true →
             (running → free → able → a.poll = none → Runs measure s fun t => t.now = e ∧ apart t ∧ cap t felt ∧ begins t e) ∧
             (parked → a.lockEnd = none → Runs measure s fun t => t.now = e ∧ apart t ∧ cap t felt ∧ t.pwr.mode = .returning ∧ t.pwr.start = e ∧ t.acs.wakePoll = true ∧
               t.pwr.wake = some { src := 7, num := BitVec.ofNat 8 en.val, stamp := t.stamp, replay := false, multi := false }))))) ∧
    (parked → s.cfgB acsIdx 1 = true → (s.cfg acsIdx 2).testBit 1 = true → a.sstop = false → s.isShed 0xAA = false → a.lockEnd = none →
      (a.lastGrant + secT 604800 * s.cfg acsIdx 8 ≤ s.now → ∀ x, Runs (.lfSearch x) s fun t => t = { s with acs := { a with sstop := true } }) ∧
      (s.now < a.lastGrant + secT 604800 * s.cfg acsIdx 8 → e = a.searchAt + (if a.acks = 0 then msT (s.cfg acsIdx 7) else msT 20) →
      (Runs (.lfSearch none) s fun t => t.now = e ∧ apart t ∧ t.pwr = s.pwr ∧ t.acs = { a with acks := 0, searchAt := e }) ∧
      (a.acks = 0 → Runs (.lfSearch (some tid)) s fun t => t.now = e ∧ apart t ∧ t.pwr = s.pwr ∧ t.acs = { a with acks := 1, searchAt := e }) ∧
      (a.acks ≠ 0 → Runs (.lfSearch (some tid)) s fun t => t.now = e ∧ apart t ∧ t.acs = { a with acks := 0, searchAt := e, wakePoll := true } ∧
        t.pwr.mode = .returning ∧ t.pwr.start = e ∧ t.pwr.wake = some { src := 7, num := 4, stamp := t.stamp, replay := false, multi := false }))) ∧
    (a.sstop = false → (s.cfg acsIdx 2).testBit 1 = true → e = a.lastGrant + secT 604800 * s.cfg acsIdx 8 → Runs .searchStop s fun t =>
      t.now = e ∧ apart t ∧ t.acs = { a with sstop := true })

/-- R468 to R473, R480, R482: classes shed and restored, CRANK HOLD, over-voltage, ground loss, the case sensor. -/
def Obligations.SupplyEvents : Prop :=
  ∀ (k : Fin 8) (ch : Fin 72) (n : Fin 24) (e : Nat) (s : State), s.Ahead e → s.up 1 = true →
    let u := s.sup
    let cls (code : Nat) : Nat := (s.classOf code).val
    let th := (s.obj shedIdx (if s.cfg 0x1010 1 = 12 then 2 else 3)).getD k.val 0
    let raised (t : State) (blk kind : Nat) : Prop := ({ src := blk * 32 + kind, stamp := t.stamp, wrapped := none } : Report) ∈ t.flt.inflight
    let apart (t : State) : Prop := t.mem = s.mem ∧ t.cores = s.cores ∧ t.dom = s.dom ∧ t.srv = s.srv ∧ t.fab = s.fab
    let falls (from_ : Nat) (code : Nat) : Prop := from_ ≤ cls code ∧ u.shed.getLsbD (cls code) = false
    let sheds (t : State) (from_ : Nat) : Prop :=
      (∀ j : Fin 8, t.sup.shed.getLsbD j.val = (u.shed.getLsbD j.val || decide (from_ ≤ j.val))) ∧
      (∀ c : Fin 72, falls from_ c.val → (bget t.hs c).out = false ∧ (bget t.hs c).act = .off ∧ ∀ x ∈ t.adm.charges, x.code ≠ c.val) ∧
      (∀ c : Fin 72, ¬falls from_ c.val → bget t.hs c = bget s.hs c) ∧ (∀ i : Fin 16, falls from_ (ioCode i) → (bget t.ios i).on = false) ∧
      (from_ ≤ 1 → u.shed.getLsbD 1 = false → ∀ i, (t.lin i).wait = none)
    let misses (t : State) (hit : Fin 256 → Prop) : Prop := ∀ i, (s.ct i).inForce = true → s.up 2 = true →
      (hit i → (t.ct i).misses = satInc (s.ct i).misses) ∧ (¬hit i → (t.ct i).misses = (s.ct i).misses)
    let medium (code : Nat) : Prop := 0x50 ≤ epBlock code ∧ epBlock code ≤ 0x5C
    (k ≠ 0 → u.vbat < fld th 31 16 → u.shed.getLsbD k.val = false →
      (Runs (.classShed k) s fun t => sheds t k.val ∧ raised t 0x03 0 ∧ t.sup.crank = u.crank ∧ apart t) ∧
      ((∀ j, k < j → u.shed.getLsbD j.val = true) → Runs (.classShed k) s fun t => t.sup.sheds = satInc u.sheds ∧
        misses t fun i => (∃ c ∈ loadCodes, cls c = k.val ∧ loadBlock c = epBlock (s.cfg (ctIdx i) 2)) ∨
          k = 1 ∧ (medium (s.cfg (ctIdx i) 1) ∨ medium (s.cfg (ctIdx i) 2)))) ∧
    (k ≠ 0 → fld th 31 16 + fld th 15 0 ≤ u.vbat → u.shed.getLsbD k.val = true → u.crank = false → (∀ j, j < k → u.shed.getLsbD j.val = false) →
      (let after := match u.exitAt with | some x => max s.now (x + msT (s.cfg shedIdx 5)) | none => s.now
       e = if k = 1 then after else max after (u.lastRest + msT 10)) → Runs (.classRestore k) s fun t => t.now = e ∧ apart t ∧ t.hs = s.hs ∧
        t.sup = { u with shed := t.sup.shed, lastRest := e, restoreAt := max u.restoreAt e, restoreQ := t.sup.restoreQ } ∧
        (∀ j : Fin 8, t.sup.shed.getLsbD j.val = (u.shed.getLsbD j.val && j != k)) ∧
        ∀ c, c ∈ t.sup.restoreQ ↔ c ∈ loadCodes ∧ (c ∈ u.restoreQ ∨ cls c = k.val)) ∧
    (u.restoreQ ≠ [] → e = max s.now u.restoreAt →
      (Runs .restoreEnergiseBatch s fun t => t.now = e ∧ t.sup.restoreAt = e + usT 100 ∧ ∃ m, min 8 u.restoreQ.length ≤ m ∧ t.sup.restoreQ = u.restoreQ.drop m) ∧
      (let h := bget s.hs ch
       u.restoreQ = [ch.val] → s.Unruled ch.val → bget s.adm.edge (tgtFin ch.val) = none → h.policy = .none → h.cmd = .on → h.lcause = 0 → h.act = .off →
        h.next = none → h.out = false → s.Fits (s.hsCharge ch .on) → (bget s.th (grpTh (hsGroup ch))).hot = false → Runs .restoreEnergiseBatch s fun t =>
          (bget t.hs ch).out = true ∧ (bget t.hs ch).act = .on ∧ t.adm.charges = setCharge s.adm.charges (s.hsCharge ch .on) ∧ t.sup.restoreQ = [] ∧
            (∀ j, j ≠ ch → bget t.hs j = bget s.hs j) ∧ apart t)) ∧
    (u.crank = false → Runs .crankEntry s fun t => t.sup.crank = true ∧ t.sup.cranks = satInc u.cranks ∧ raised t 0x03 1 ∧ sheds t 1 ∧ apart t ∧
      (s.up 4 = true → s.boost.latched = false → t.boost.run = false) ∧ t.pwr = { s.pwr with mode := if s.pwr.mode = .idle then .run else s.pwr.mode }) ∧
    (u.crank = true → Runs .crankExit s fun t => t.sup.crank = false ∧ t.sup.shed = u.shed ∧ t.sup.cranks = u.cranks ∧ t.hs = s.hs ∧ t.pwr = s.pwr ∧ apart t) ∧
    (u.ov = false → Runs .overvoltageSet s fun t => t.sup = { u with ov := true } ∧ raised t 0x03 2 ∧ t.hs = s.hs ∧ t.legs = s.legs ∧ t.vd = s.vd ∧ apart t ∧
      (∀ i, bget t.sinks i = { bget s.sinks i with x := 0, x0 := 0, goal := 0, k := 0, steps := 0, onTicks := 0 }) ∧
      misses t fun i => epBlock (s.cfg (ctIdx i) 2) = 0x40) ∧
    (u.ov = true →
      (Runs .overvoltageClear s fun t => t.sup.ov = false ∧ t.hs = s.hs ∧ apart t ∧
        ∀ i, (s.isShed (sinkCode i) = true → bget t.sinks i = bget s.sinks i) ∧
          ((bget s.sinks i).lcause ≠ 0 → s.isShed (sinkCode i) = false → bget t.sinks i = { bget s.sinks i with shedAt := none, shoff := false })) ∧
      (let q := bget s.sinks n
       let l := s.sinkL n q.last
       (∀ i, i ≠ n → (bget s.sinks i).lcause ≠ 0 ∨ s.isShed (sinkCode i) = true) → q.lcause = 0 → s.isShed (sinkCode n) = false → s.heldOff = false →
        s.safeOff (sinkCode n) = false → s.isDeferred (sinkCode n) = false → s.sinkDuty n < l → s.Fits (s.sinkCharge n l) → Runs .overvoltageClear s fun t =>
          bget t.sinks n = { q with shedAt := none, shoff := false, x0 := q.x, goal := q.last, k := 0, steps := max 1 ((500 * s.cfg (sinkIdx n) 7 + 999) / 1000) } ∧
            t.sup = { u with ov := false } ∧ t.adm.charges = setCharge s.adm.charges (s.sinkCharge n l))) ∧
    (u.gloss = false → Runs .groundLoss s fun t => t.sup.gloss = true ∧ raised t 0x03 3 ∧ apart t ∧
      (∀ c, (bget t.hs c).out = false ∧ (bget t.hs c).act = .off ∧ (bget t.hs c).cmd = (bget s.hs c).cmd) ∧
      (∀ i, s.motor (pairOf i) = false → (bget t.legs i).act = .off) ∧ (∀ i, s.motor i = true → (bget t.pairs i).stage = .free) ∧
      (s.ValvesLined → ∀ i, (bget t.vd i).stage = .off ∨ ∃ z, (bget t.vd i).stage = .decay z) ∧ (∀ i, (bget t.sinks i).x = 0) ∧ (∀ i, (bget t.ios i).on = false) ∧
      (s.boost.latched = false → t.boost.run = false)) ∧
    (u.gloss = true → Runs .groundRestored s fun t => t.sup.gloss = false ∧ apart t ∧
      (∀ c, (bget s.hs c).lcause ≠ 0 → bget t.hs c = bget s.hs c) ∧
      ∀ c, (bget s.hs c).lcause = 0 → s.hsWant c = .off → (bget t.hs c).act = .off ∧ (bget t.hs c).out = false) ∧
    (u.caseFail = false → Runs .caseSensorFail s fun t => t = { s with sup := { u with caseFail := true }, flt := t.flt } ∧ Reports s t 0x04 15)

/-- R486 to R500: reports reach the collector, one of each block at a time; the latch, sticky bits, DEGRADED, ERRN, shadows and reactions follow, and the
writes that clear them. -/
def Obligations.FaultReports : Prop :=
  ∀ (i : Instr) (r : Requester) (x y : Report) (rest : List Report) (z : Shadow) (ch : Fin 72) (v : BitVec 16) (o : Byte) (lvl : Bool) (e : Nat) (s : State), s.Ahead e →
    let f := s.flt
    let sev (x : Report) : Nat := if x.src = 0x029 ∨ x.src = 0x063 ∨ (∃ w ∈ f.sevBad, w.toNat = x.src) then 3 else fld ((s.obj faultIdx 1).getD (x.src / 9) 0) (34 - 4 * (x.src % 9)) (32 - 4 * (x.src % 9))
    let outside (x : Report) : Prop := ∀ w ∈ f.shadows, w.blk ≠ x.src / 32 ∧ x.wrapped ≠ some w.blk
    let b := x.src / 32
    let entry (type : Nat) (x : Report) (first : Bool) (ref : Nat) : QItem :=
      { marker := false, words := [BitVec.ofNat 36 (type * 2 ^ 32 + sev x * 2 ^ 29 + (if first then 2 ^ 28 else 0) + x.src * 2 ^ 12 + ref), x.stamp] }
    let room : Prop := f.q.items.length < 256
    let sticks (t : State) : Prop := ∀ (k : Fin 128) (n : Nat), n < 32 →
      (bget t.flt.sticky k).getLsbD n = ((bget f.sticky k).getLsbD n || decide (k.val * 32 + n = x.src))
    let low : Prop := s.cfg faultIdx 3 ≤ sev x
    let errn (t : State) : Prop := (low → t.flt.errnLvl = false ∧ t.flt.held = false ∧ t.flt.pulse = some (s.now + msT 1)) ∧
      (¬low → t.flt.errnLvl = f.errnLvl ∧ t.flt.held = f.held ∧ t.flt.pulse = f.pulse)
    let latch (t : State) : Prop :=
      (s.cfg faultIdx 2 ≤ sev x → f.valid = false → t.flt.valid = true ∧ t.flt.sev.toNat = sev x ∧ t.flt.src.toNat = x.src ∧ t.flt.lstamp = x.stamp ∧ t.flt.ovf = f.ovf) ∧
      (s.cfg faultIdx 2 ≤ sev x → f.valid = true → t.flt.valid = true ∧ t.flt.sev = f.sev ∧ t.flt.src = f.src ∧ t.flt.lstamp = f.lstamp ∧ t.flt.ovf = true) ∧
      (sev x < s.cfg faultIdx 2 → t.flt.valid = f.valid ∧ t.flt.sev = f.sev ∧ t.flt.src = f.src ∧ t.flt.lstamp = f.lstamp ∧ t.flt.ovf = f.ovf)
    let first : Bool := decide (s.cfg faultIdx 2 ≤ sev x) && !f.valid
    let takes (t : State) : Prop := sticks t ∧ errn t ∧ latch t ∧ t.flt.faults = satInc f.faults ∧ t.flt.conseq = f.conseq ∧
      (∀ k : Nat, t.flt.degraded.getLsbD k = (f.degraded.getLsbD k || decide (k = b ∧ 2 ≤ sev x)))
    let reach (code : Nat) : Prop := code ∈ loadCodes ∧ (((s.obj faultIdx 5).getD (b / 32) 0).getLsbD (b % 32) = true ∨ loadBlock code = b)
    let mode (code : Nat) : Nat := nibble (s.obj faultIdx 4) code
    let safes (t : State) : Prop := t.flt.safes = satInc f.safes ∧ t.flt.q.items = f.q.items ++ [entry 1 x first 0] ∧
      (∀ code, code < 192 → (t.flt.safe.getLsbD code = true ↔ f.safe.getLsbD code = true ∨ reach code)) ∧
      ∀ c : Fin 72, (reach c.val → f.safe.getLsbD c.val = false → mode c.val = 0 → (bget t.hs c).act = .off ∧ (bget t.hs c).out = false ∧ ∀ q ∈ t.adm.charges, q.code ≠ c.val)
    let keeps (t : State) : Prop := t.mem = s.mem ∧ t.cores = s.cores ∧ t.dom = s.dom ∧ t.srv = s.srv ∧ t.fab = s.fab ∧ t.pwr = s.pwr ∧
      ∀ c : Fin 72, (¬reach c.val ∨ f.safe.getLsbD c.val = true → bget t.hs c = bget s.hs c) ∧
        (reach c.val → mode c.val = 1 → (bget t.hs c).act = (bget s.hs c).act ∧ (bget t.hs c).out = (bget s.hs c).out)
    let frozen (t : State) (rst : Bool) : Prop := t.flt.frzLost = f.frzLost ∧
      (∀ k : Fin 128, t.flt.image.getD (0x10 + k.val) 0 = BitVec.ofNat 36 (bget t.flt.sticky k).toNat) ∧ t.flt.image.getD 1 0 = t.flt.lstamp ∧
      t.flt.image.getD 2 0 = BitVec.ofNat 36 (sev x * 2 ^ 12 + x.src) ∧ t.flt.image.length = 512 ∧
      t.flt.freezing = some { src := BitVec.ofNat 12 x.src, sev := BitVec.ofNat 3 (sev x), stamp := x.stamp, ends := s.now + usT 40, reset := rst }
    let busy : Prop := f.frzValid = true ∨ f.freezing.isSome = true
    let told (t : State) : Prop := ∃ a, t.srv.answer = some a ∧ a.dest = r ∧ a.code = 0 ∧ a.detail = 0
    let ours (t : State) (f' : FaultState) : Prop := t.flt = f' ∧ told t ∧ t = { s with flt := t.flt, srv := t.srv }
    (s.up 1 = true → x.src < 4096 → x.stamp ≤ s.stamp →
      (i = .faultReport 1 [] [] ∧ f.inflight = x :: rest ∨
        ∃ src : BitVec 12, i = .faultReport 0 [src] [] ∧ src.toNat % 32 < (blockSevs (src.toNat / 32)).length ∧ x = { src := src.toNat, stamp := s.stamp, wrapped := none } ∧
          rest = f.inflight) →
      (outside x → sev x < 3 → room → Runs i s fun t => takes t ∧ t.flt.q = { f.q with items := f.q.items ++ [entry 1 x first 0] } ∧
        t = { s with flt := { f with
          inflight := rest, sticky := t.flt.sticky, valid := t.flt.valid, ovf := t.flt.ovf, sev := t.flt.sev, src := t.flt.src, lstamp := t.flt.lstamp
          degraded := t.flt.degraded, q := t.flt.q, errnLvl := t.flt.errnLvl, held := t.flt.held, pulse := t.flt.pulse, faults := t.flt.faults } }) ∧
      (outside x → sev x < 3 → ¬room → x.src ≠ 0xA0 → Runs i s fun t => takes t ∧ t.flt.q = { f.q with lost := satInc f.q.lost } ∧
        t.flt.inflight = rest ++ [{ src := 0xA0, stamp := s.stamp, wrapped := none }] ∧ t = { s with flt := t.flt }) ∧
      (outside x → sev x = 3 → room → Runs i s fun t => takes t ∧ safes t ∧ keeps t ∧ t.flt.resets = f.resets ∧
        (s.cfg faultIdx 7 = 0 → t.flt.freezing = f.freezing ∧ t.flt.image = f.image ∧ t.flt.frzLost = f.frzLost) ∧
        (s.cfg faultIdx 7 ≠ 0 → ¬busy → frozen t false) ∧ (s.cfg faultIdx 7 ≠ 0 → busy → t.flt.frzLost = satInc f.frzLost ∧ t.flt.freezing = f.freezing)) ∧
      (outside x → sev x = 4 → s.cfg faultIdx 6 % 4 = 0 → room → Runs i s fun t => takes t ∧ safes t ∧ t.flt.resets = satInc f.resets ∧ t.mem = s.mem ∧
        (¬busy → frozen t true ∧ keeps t) ∧ (s.duo.role = .active → t.duo.alarm = some s.now) ∧
        (busy → b ≠ 0x0B → b ≠ 0x0C → t.flt.frzLost = satInc f.frzLost ∧ t.asserted 7 = true ∧ (t.srcOf 7).ref.toNat = x.src ∧
          ∀ d : Fin 7, 2 ≤ d.val → (s.cfg faultIdx 6).testBit d.val = true → t.inReset d = true)) ∧
      (∀ l m, f.shadows = l ++ z :: m → (∀ w ∈ l, w.blk ≠ b ∧ x.wrapped ≠ some w.blk) → (z.blk = b ∨ x.wrapped = some z.blk) → x.src ≠ z.ref.toNat → room →
        Runs i s fun t => sticks t ∧ t = { s with flt := { f with
          inflight := rest, sticky := t.flt.sticky, faults := satInc f.faults, conseq := satInc f.conseq
          q := { f.q with items := f.q.items ++ [entry 2 x false z.ref.toNat] } } })) ∧
    (∀ l w hi m, s.up 1 = true → x.src < 4096 → f.inflight = x :: rest → s.stamp < x.stamp → outside x → sev x < 3 → room →
      f.q.items = l ++ { marker := true, words := [w, hi] } :: m → (∀ q ∈ m, q.marker = false) → Runs (.faultReport 1 [] []) s fun t =>
        takes t ∧ t.flt.q.items = l ++ entry 1 x first 0 :: { marker := true, words := [w, hi] } :: m) ∧
    (∀ w : BitVec 12, s.up 1 = true → w ∉ f.sevBad → Runs (.faultReport 0 [] [w]) s fun t =>
      Reports s t 0x05 1 ∧ t = { s with flt := { f with sevBad := w :: f.sevBad, inflight := t.flt.inflight } }) ∧
    (f.inflight = x :: y :: rest →
      (x.src / 32 = y.src / 32 → exec (.faultReport 2 [] []) s = exec (.faultReport 1 [] []) s) ∧
      (s.up 1 = true → x.src < 4096 → y.src < 4096 → x.src / 32 ≠ y.src / 32 → outside x → outside y → s.cfg faultIdx 2 ≤ sev x → s.cfg faultIdx 2 ≤ sev y →
        sev x < 3 → sev y < 3 → Runs (.faultReport 2 [] []) s fun t => t.flt.ovf = true ∧ t.flt.faults = satInc (satInc f.faults) ∧
          (f.valid = false → (sev y < sev x ∨ sev x = sev y ∧ x.src < y.src) → t.flt.src.toNat = x.src ∧ t.flt.sev.toNat = sev x ∧ t.flt.lstamp = x.stamp) ∧
          (f.valid = false → (sev x < sev y ∨ sev x = sev y ∧ y.src < x.src) → t.flt.src.toNat = y.src ∧ t.flt.sev.toNat = sev y ∧ t.flt.lstamp = y.stamp) ∧
          (f.valid = true → t.flt.src = f.src ∧ t.flt.sev = f.sev ∧ t.flt.lstamp = f.lstamp))) ∧
    (f.pulse = some e → Runs .errnPulseEnd s fun t => t.now = e ∧ t.flt = { f with pulse := none, errnLvl := f.held, q := t.flt.q } ∧ t.mem = s.mem ∧ t.hs = s.hs ∧
      t.cores = s.cores ∧ t.dom = s.dom) ∧
    (s.up 1 = true → Runs .errnMismatch s fun t => Reports s t 0x05 2 ∧ t = { s with flt := t.flt }) ∧
    (s.Takes r faultIdx 0x0D [if lvl then 1 else 0] →
      (f.pulse = none → Runs (.errnlvlWrite r lvl) s fun t => ours t { f with errnLvl := lvl }) ∧
      (f.pulse.isSome = true → Runs (.errnlvlWrite r lvl) s fun t => ours t { f with held := lvl })) ∧
    (s.Takes r faultIdx 0x0A [1] → Runs (.fclr r) s fun t => ours t { f with valid := false, ovf := false }) ∧
    (s.Takes r faultIdx 0x0C [BitVec.ofNat 36 v.toNat] → Runs (.stclr r v) s fun t => ours t { f with sticky := t.flt.sticky } ∧
      ∀ (k : Fin 128) (n : Nat), n < 32 → (bget t.flt.sticky k).getLsbD n = ((bget f.sticky k).getLsbD n && v.toNat != 0xFFFF && v.toNat != k.val * 32 + n)) ∧
    (s.Takes r faultIdx 0x12 [BitVec.ofNat 36 o.toNat] → Runs (.dgclr r o) s fun t => ours t { f with degraded := t.flt.degraded } ∧
      ∀ k : Nat, k < 128 → t.flt.degraded.getLsbD k = (f.degraded.getLsbD k && o.toNat != 0xFF && o.toNat != k)) ∧
    (s.Takes r faultIdx 0x0F [1] → room →
      (Runs (.srel r) s fun t => t.flt.safe = 0 ∧ told t ∧ t.flt.q.items = f.q.items ++ [{ marker := false, words := [0x300000000, s.stamp] }] ∧ t.mem = s.mem ∧
        ∀ c : Fin 72, f.safe.getLsbD c.val = false → bget t.hs c = bget s.hs c) ∧
      (let u : State := { s with flt := { f with safe := 0 } }
       let h := bget s.hs ch
       u.Unruled ch.val → f.safe = 1#192 <<< ch.val → bget s.adm.edge (tgtFin ch.val) = none → h.base = none → h.policy = .none → h.cmd = .on → h.lcause = 0 →
        h.act = .off → h.next = none → h.out = false → u.Fits (u.hsCharge ch .on) → (bget s.th (grpTh (hsGroup ch))).hot = false → Runs (.srel r) s fun t =>
          (bget t.hs ch).act = .on ∧ (bget t.hs ch).out = true ∧ t.adm.charges = setCharge s.adm.charges (u.hsCharge ch .on))) ∧
    (∀ l m, f.shadows = l ++ z :: m → (∀ w ∈ l, w.blk ≠ z.blk ∨ w.ends = none) → z.blk < 128 → z.ends = some e → z ∉ l →
      Runs (.shadowEnd (BitVec.ofNat 7 z.blk)) s fun t => t.now = e ∧ t.flt = { f with shadows := l ++ m, q := t.flt.q } ∧ t.mem = s.mem ∧ t.hs = s.hs ∧ t.dom = s.dom)

/-- R493, R502 to R505: a freeze completes 40 µs after detection, and the reset of an S4 source follows; the dump of the evidence into data flash. -/
def Obligations.FreezeAndDump : Prop :=
  ∀ (z : Freezing) (r : Requester) (p : Fin 2) (b : Nat) (s : State), s.Ahead z.ends → Memory.wf s.mem = true →
    let f := s.flt
    let base : Nat := 0x40C000
    let inside (a : Nat) : Prop := base ≤ a ∧ a < base + 0x4000
    let done (t : State) : Prop := t.now = z.ends ∧ t.mem = s.mem ∧ t.flt.freezing = none ∧ t.flt.frzValid = true ∧ t.flt.frzSev = z.sev ∧ t.flt.frzSrc = z.src ∧
      t.flt.frzStamp = z.stamp ∧ t.flt.image.length = 512
    let told (t : State) (c : Byte) : Prop := ∃ a, t.srv.answer = some a ∧ a.dest = r ∧ a.code = c
    let src := z.src.toNat
    (f.freezing = some z →
      (s.up 1 = true → s.cfg faultIdx 6 % 4 = 0 → Runs .freezeComplete s fun t => done t ∧
        (∀ o, o < 0x200 → ¬(0x90 ≤ o ∧ o < 0xA0) → ¬(0x100 ≤ o ∧ o < 0x180) → t.flt.image.getD o 0 = f.image.getD o 0) ∧
        (∀ q : Fin 2, t.flt.image.getD (0x91 + 8 * q.val) 0 = BitVec.ofNat 36 (bget s.cores q).pcs.toNat ∧
          t.flt.image.getD (0x92 + 8 * q.val) 0 = BitVec.ofNat 36 (bget s.cores q).psw.toNat ∧ t.flt.image.getD (0x93 + 8 * q.val) 0 = (bget s.cores q).lkcnt) ∧
        (∀ k : Fin 10, t.flt.image.getD (0x130 + k.val) 0 = BitVec.ofNat 36 (bget s.fab.credits (clusterHop k))) ∧
        (∀ k : Fin 64, (bget s.fab.tags k).tx = none → t.flt.image.getD (0x140 + k.val) 0 = BitVec.ofNat 36 ((bget s.fab.tags k).gen.toNat * 2 ^ 33))) ∧
      (z.reset = false → Runs .freezeComplete s fun t => done t ∧ t.dom = s.dom ∧ t.cores = s.cores ∧ t.hs = s.hs ∧ t.rst = s.rst ∧
        t.flt = { f with freezing := none, frzValid := true, frzSev := z.sev, frzSrc := z.src, frzStamp := z.stamp, image := t.flt.image, q := t.flt.q }) ∧
      (z.reset = true → s.up 1 = true → src / 32 ≠ 0x0B → src / 32 ≠ 0x0C → s.cfg faultIdx 6 % 4 = 0 → Runs .freezeComplete s fun t => done t ∧
        t.asserted 7 = true ∧ (t.srcOf 7).ref = z.src ∧ (bget t.rst.srcCnt 7) = satInc (bget s.rst.srcCnt 7) ∧
        ({ src := 0x27, stamp := t.stamp, wrapped := none } : Report) ∈ t.flt.inflight ∧
        ∀ d : Fin 7, 2 ≤ d.val → (s.cfg faultIdx 6).testBit d.val = true → t.inReset d = true) ∧
      (z.reset = true → src / 32 = 0x0B + p.val → 2 ≤ src % 32 → s.up 6 = true → s.rst.blocks.any (·.blk == 0x0B + p.val) = false → Runs .freezeComplete s fun t =>
        done t ∧ (bget t.cores p).run = .reset ∧ (bget t.cores p).lkcnt = satInc (bget s.cores p).lkcnt ∧ t.asserted 10 = true ∧ (t.srcOf 10).ref = z.src ∧
          t.dom = s.dom ∧ ∀ q, q ≠ p → bget t.cores q = bget s.cores q) ∧
      (z.reset = true → src / 32 = 0x0B + p.val → src % 32 ≤ 1 → Runs .freezeComplete s fun t => done t ∧ t.dom = s.dom ∧ t.cores = s.cores ∧ t.rst = s.rst)) ∧
    (s.Takes r dumpIdx 1 [1] →
      (f.dstat ≠ 1 → f.dstat ≠ 2 → Runs (.dumpgo r) s fun t => told t 0 ∧ t = { s with mem := t.mem, flt := { f with dstat := 1, dumpTime := s.time.time }, srv := t.srv } ∧
        (∀ a, inside a → memRead t.mem a = 0) ∧ ∀ a, ¬inside a → memRead t.mem a = memRead s.mem a) ∧
      (f.dstat = 1 ∨ f.dstat = 2 → Runs (.dumpgo r) s fun t => told t 7 ∧ t = { s with srv := t.srv })) ∧
    (f.dstat = 1 → s.up 2 = true → (f.frzValid = true → f.image.length = 512) → Runs .dumpEraseDone s fun t => t.flt.dstat = 2 ∧
      (∀ a, ¬inside a → memRead t.mem a = memRead s.mem a) ∧ memRead t.mem (base + 7) = memRead s.mem (base + 7) ∧ memRead t.mem (base + 9) = memRead s.mem (base + 9) ∧
      memRead t.mem base = 0x964801000 ∧ memRead t.mem (base + 1) = f.dumps ∧ memRead t.mem (base + 2) = f.dumpTime.extractLsb' 36 36 ∧
      memRead t.mem (base + 3) = f.dumpTime.extractLsb' 0 36 ∧ memRead t.mem (base + 4) = (if f.frzValid then f.frzStamp else 0) ∧
      (memRead t.mem (base + 5)).toNat = 0x21 * 2 ^ 28 + s.imgSchema s.upd.mapped * 2 ^ 12 + s.upd.mapped.val ∧
      (f.frzValid = true → ∀ i, i < 512 → memRead t.mem (base + 0x20 + i) = f.image.getD i 0) ∧
      (∀ i, i < 512 → memRead t.mem (base + 0x220 + i) = memRead s.mem (s.cfg dumpIdx 2 + i)) ∧
      (b < 128 → ((s.obj dumpIdx 3).getD (b / 32) 0).getLsbD (b % 32) = true → (∀ c, c < b → ((s.obj dumpIdx 3).getD (c / 32) 0).getLsbD (c % 32) = false) →
        (s.closed b = false → memRead t.mem (base + 0x420) = BitVec.ofNat 36 (2 ^ 35 + b)) ∧
        (s.closed b = true → memRead t.mem (base + 0x420) = BitVec.ofNat 36 b ∧ ∀ i, i < 112 → memRead t.mem (base + 0x421 + i) = 0))) ∧
    (f.dstat = 2 → Runs (.dumpComplete true) s fun t =>
      (∀ a, a ≠ base + 7 → a ≠ base + 9 → memRead t.mem a = memRead s.mem a) ∧
      memRead t.mem (base + 9) = BitVec.ofNat 36 (crcWords ((List.range 0x4000).map fun i => if i = 7 ∨ i = 9 then 0 else memRead s.mem (base + i))).toNat ∧
      (memRead t.mem (base + 7)).toNat = (if memRead s.mem (base + 0x22) = 0 then 0 else 8) + 4 + (if s.snapBlocks = [] then 0 else 2) + 1 ∧
      t = { s with mem := t.mem, flt := { f with dumps := satInc f.dumps, frzValid := false, frzSev := 0, frzSrc := 0, frzStamp := 0, image := [], dstat := 3 } }) ∧
    (f.dstat = 1 ∨ f.dstat = 2 → Runs (.dumpComplete false) s fun t => t.flt.dstat = 4 ∧ Reports s t 0x05 3 ∧ t.flt.frzValid = f.frzValid ∧ t = { s with flt := t.flt })

/-- R535 to R537, R542, R545 to R548: valid and missed copies, the roles that follow, the shadow comparison, and the takeover at a duo alarm. -/
def Obligations.DuoPair : Prop :=
  ∀ (fr : DuoFrame) (id : BitVec 8) (ch : Fin 72) (m : Fin 360) (e : Nat) (s : State), s.Ahead e →
    let d := s.duo
    let mine : Bool := s.cfgB duoIdx 2
    let ws := fr.words
    let w0 := ws.getD 0 0
    let act := w0.getLsbD 35
    let gen : Byte := w0.extractLsb' 26 8
    let np := fld w0 25 20
    let nl := fld w0 19 16
    let pairs := (s.obj duoIdx 4).filter (·.getLsbD 35)
    let loops := (s.obj duoIdx 5).filter (·.getLsbD 35)
    let mirrored : Prop := pairs.length = np ∧ loops.length = nl ∧
      (∀ w ∈ pairs, ∃ i, i < np ∧ fld (ws.getD (4 + 2 * i) 0) 35 28 = fld w 26 19 ∧ fld (ws.getD (4 + 2 * i) 0) 27 20 = fld w 34 27) ∧
      ∀ w ∈ loops, ∃ j, j < nl ∧ fld (ws.getD (4 + 2 * np + 17 * j) 0) 35 27 = fld w 25 17 ∧ fld (ws.getD (4 + 2 * np + 17 * j) 0) 26 18 = fld w 34 26
    let apart (t : State) : Prop := t.mem = s.mem ∧ t.cores = s.cores ∧ t.dom = s.dom ∧ t.srv = s.srv ∧ t.fab = s.fab ∧ t.ring = s.ring
    let raised (t : State) (kind : Nat) : Prop := ({ src := kind, stamp := t.stamp, wrapped := none } : Report) ∈ t.flt.inflight
    let noted (t : State) : Prop := apart t ∧ t.hs = s.hs ∧ t.vd = s.vd ∧ t.duo.here = true ∧ t.duo.due = none ∧ t.duo.missc = 0 ∧ t.duo.pri = w0.getLsbD 15 ∧
      t.duo.pgen = gen ∧ t.duo.pact = act ∧ t.duo.heardP = true ∧ t.duo.misscyc = 0 ∧ t.duo.phealth = ws.getD 2 0 ∧ t.duo.gen = d.gen ∧
      t.duo.copy = (if act then ws else d.copy) ∧ (t.duo.match_ = true ↔ mirrored) ∧ (d.match_ = true → ¬mirrored → raised t 2) ∧ t.duo.missed = d.missed
    let valid : Prop := s.onTheRing = true ∧ fr.ok = true ∧ fr.src.val = s.cfg duoIdx 3 ∧ ws.getD 1 0 = BitVec.ofNat 36 (s.now / 100000)
    let receive : Instr := .duoStateReceive fr
    let partnerFirst : Prop := w0.getLsbD 15 = true ∧ mine = false ∨ w0.getLsbD 15 = mine ∧ s.cfg duoIdx 3 ≤ d.casc.val
    let newerGen : Prop := 1 ≤ (gen - d.gen).toNat ∧ (gen - d.gen).toNat ≤ 127
    let stays (t : State) : Prop := t.duo.role = d.role ∧ t.duo.line = d.line
    let turns (t : State) (r : DuoRole) : Prop := t.duo.role = r ∧ t.duo.line = true
    let loaded (t : State) : Prop := t.duo.role = .active ∧ t.duo.line = true ∧ t.duo.gen = d.pgen + 1 ∧ t.duo.takeover = satInc d.takeover ∧ t.duo.lastto = s.stamp ∧
      raised t 0 ∧ t.mem = s.mem ∧ t.cores = s.cores ∧ t.dom = s.dom ∧ (loops = [] ∨ d.copy = [] → t.srv = s.srv) ∧
      (s.log.queue.length < 32 → ∃ x ∈ t.log.queue, x.cls = 6) ∧
      ∀ i, (s.ct i).inForce = true → s.up 2 = true → (t.ct i).misses = satInc (s.ct i).misses
    (valid →
      (d.role = .unresolved → act = false → Runs receive s fun t => noted t ∧ stays t) ∧
      (d.role = .unresolved → act = true → Runs receive s fun t => noted t ∧ turns t .syncing ∧ t.duo.good = 1) ∧
      (d.role = .syncing → act = false ∨ nl = 0 → loops = [] → Runs receive s fun t => noted t ∧ t.duo.good = d.good + 1 ∧
        (15 ≤ d.good → mirrored → turns t .ready) ∧ (d.good < 15 ∨ ¬mirrored → stays t)) ∧
      (d.role = .ready → act = false ∨ nl = 0 → d.shBad < 3 → Runs receive s fun t => noted t ∧ t.duo.good = d.good + 1 ∧
        (mirrored → stays t) ∧ (¬mirrored → turns t .syncing)) ∧
      (d.role = .syncing ∨ d.role = .ready → act = true → d.match_ = true → nl = 1 → fld (ws.getD (4 + 2 * np) 0) 26 18 = m.val →
        let word (k : Nat) : Word := ws.getD (5 + 2 * np + k) 0
        let preset : Int := (word 0).toInt * 2 ^ 36 + (word 1).toNat
        let tol := (s.cfgI duoIdx 6).natAbs
        let near : Prop := ((s.loop m).core.v1 - (word 7).toInt).natAbs ≤ tol ∧ ((s.loop m).core.i - preset).natAbs ≤ tol * 2 ^ 24
        Runs receive s fun t => noted t ∧ (t.loop m).core.v1 = (word 7).toInt ∧ (t.loop m).core.i = preset ∧ (∀ k, k ≠ m → t.loop k = s.loop k) ∧
          (near → t.duo.shok = true ∧ t.duo.shmis = d.shmis ∧ t.duo.shGood = d.shGood + 1 ∧ t.duo.shBad = 0) ∧
          (¬near → t.duo.shok = false ∧ t.duo.shmis = satInc d.shmis ∧ t.duo.shGood = 0 ∧ t.duo.shBad = d.shBad + 1 ∧ (d.shBad = 2 → raised t 3)) ∧
          (d.role = .syncing → 15 ≤ d.good → mirrored → near → 2 ≤ d.shGood → turns t .ready) ∧ (d.role = .ready → ¬near → 2 ≤ d.shBad → turns t .syncing)) ∧
      (d.role = .active → Runs receive s fun t => noted t ∧ stays t ∧
        (act = true ∧ (newerGen ∨ gen = d.gen ∧ partnerFirst) → t.duo.step = true) ∧ (¬(act = true ∧ (newerGen ∨ gen = d.gen ∧ partnerFirst)) → t.duo.step = d.step))) ∧
    (¬valid → Runs receive s fun t => t = s) ∧
    (∀ a, d.due = some a → e = a + 50000 → Runs .duoCopyDeadline s fun t => (d.role = .ready → turns t .syncing) ∧ (d.role ≠ .ready → stays t)) ∧
    (d.role = .syncing ∨ d.role = .ready →
      (id.toNat ≠ s.cfg duoIdx 3 → Runs (.duoAlarmReceive id) s fun t => t = s) ∧
      (id.toNat = s.cfg duoIdx 3 →
        Runs (.duoAlarmReceive id) s loaded ∧
        (d.copy ≠ [] → Runs (.duoAlarmReceive id) s fun t => t.adm.flags = (d.copy.getD 3 0).extractLsb' 0 16) ∧
        (∀ w : Word, pairs = [w] → fld w 34 27 = ch.val → fld (d.copy.getD 0 0) 25 20 = 1 → fld (d.copy.getD 4 0) 27 20 = ch.val →
          let h := bget s.hs ch
          let ons (post : State → HsChannel → Prop) : Prop := Runs (.duoAlarmReceive id) s fun t => post t (bget t.hs ch) ∧ ∀ k, k ≠ ch → bget t.hs k = bget s.hs k
          (fld (d.copy.getD 4 0) 19 16 = 0 → ons fun _ h' => h'.cmd = .off ∧ h'.act = .off ∧ h'.out = false) ∧
          (fld (d.copy.getD 4 0) 19 16 = 1 → h.lcause = 0 → s.isShed ch.val = false → s.heldOff = false → s.safeOf ch.val = none → s.adm.inh.getLsbD ch.val = false →
            s.isReserved ch.val = true → h.act = .off → h.next = none → h.out = false → (bget s.th (grpTh (hsGroup ch))).hot = false →
            ons fun _ h' => h'.cmd = .on ∧ h'.act = .on ∧ h'.out = true ∧ h'.win = h.win)))) ∧
    (d.role = .off ∨ d.role = .unresolved ∨ d.role = .active → Runs (.duoAlarmReceive id) s fun t => t = s)

/-- R509 to R513, R515, R521 to R525: what asserts each reset source, with its reach and its kind; the root clock and the watchdog. -/
def Obligations.ResetSources : Prop :=
  ∀ (r : Requester) (v k : Byte) (p : Fin 2) (d : Fin 7) (dev : Bool) (a e : Nat) (s : State), s.Ahead e → s.Powered →
    let x := s.rst
    let told (t : State) (r : Requester) (c : Byte) : Prop := ∃ y, t.srv.answer = some y ∧ y.dest = r ∧ y.code = c
    let apart (t : State) : Prop := t.mem = s.mem ∧ t.cores = s.cores ∧ t.dom = s.dom ∧ t.srv = s.srv ∧ t.hs = s.hs ∧ t.fab = s.fab
    let fires (i : Instr) (n : Fin 12) (reach : BitVec 7) (kind : Nat) : Prop := Runs i s fun t =>
      t.now = e ∧ Asserts s t n reach (BitVec.ofNat 12 (0x20 + kind)) ∧ (reach.getLsbD 1 = false → Raised t 0x01 kind)
    let named (q : Fin 2) : Prop := (s.cfg rstIdx 5).testBit q.val = true
    let owed : Prop := ∃ q, named q ∧ (bget x.wdPairs q).served = false
    let wd_ := bget x.wdPairs p
    (Runs .aonBrownout s fun t => t.pwr.mode = .off ∧ (∀ d, (bget t.dom d).powered = false) ∧ (∀ ch, (bget t.hs ch).out = false) ∧ (∀ n, (bget t.legs n).act = .off) ∧
      (∀ n, (bget t.vd n).stage = .off) ∧ (∀ p, (bget t.cores p).run = .reset) ∧ (∀ b, b < 0x800000 → memRead t.mem b = memRead s.mem b) ∧
      ∀ b, 0x800000 ≤ b → memRead t.mem b = 0) ∧
    (e = s.now → fires .supBrownout 1 0x7E 1 ∧ fires .coreBrownout 2 0x7C 2) ∧
    (e = s.now → x.rstn = false → s.asserted 3 = false → s.asserted 4 = false →
      (s.cfg rstIdx 1 = 0 → fires .rstnFall 3 0x7C 3) ∧ (s.cfg rstIdx 1 ≠ 0 → fires .rstnFall 4 0x7E 4) ∧ (Runs .rstnFall s fun t => t.rst.rstn = true)) ∧
    (x.rstn = true → Runs .rstnFall s fun t => t = s) ∧
    (s.Takes r rstIdx 9 [BitVec.ofNat 36 v.toNat] → e = s.now →
      (v ≠ 0 → v &&& 0x83 = 0 → fires (.swrst r v) 6 (BitVec.ofNat 7 v.toNat) 6 ∧ Runs (.swrst r v) s fun t => told t r 0) ∧
      (v = 0 ∨ v &&& 0x83 ≠ 0 → Runs (.swrst r v) s fun t => told t r 7 ∧ t = { s with srv := t.srv })) ∧
    (s.Takes r rstIdx 0x0A [BitVec.ofNat 36 v.toNat] →
      let b := v.toNat
      let ok : Prop := b = 0x0B ∨ b = 0x0C ∨ 0x10 ≤ b ∧ b ≤ 0x3B ∨ 0x3D ≤ b ∧ b ≤ 0x42 ∨ 0x48 ≤ b ∧ b ≤ 0x5E
      (ok → s.closed b = false → Runs (.swblk r v) s fun t => told t r 0 ∧ t.asserted 11 = true ∧ (t.srcOf 11).ref = 0x02A ∧ t.closed b = true ∧ t.dom = s.dom ∧ t.mem = s.mem ∧
        Raised t 0x01 10 ∧ bget t.rst.srcCnt 11 = satInc (bget x.srcCnt 11) ∧ (s.up 1 = true → ∃ y ∈ t.flt.shadows, y.blk = b ∧ y.ends = none) ∧
        (∀ q : Fin 2, (b = 0x0B + q.val → (bget t.cores q).run = .reset) ∧ (b ≠ 0x0B + q.val → bget t.cores q = bget s.cores q)) ∧
        ∀ ch : Fin 72, (b ≠ 0x30 + ch.val / 8 → bget t.hs ch = bget s.hs ch) ∧
          (b = 0x30 + ch.val / 8 → s.cfg (hsIdx ch) 0x13 = 0 → bget s.adm.level (tgtFin ch.val) = none → (bget s.hs ch).lcause = 0 → (bget t.hs ch).act = .off)) ∧
      (¬ok → Runs (.swblk r v) s fun t => told t r 7 ∧ t = { s with srv := t.srv })) ∧
    (s.asserted 8 = false → s.cfg rstIdx 0x0B % 4 = 0 →
      (s.dbg.level = 2 → e = s.now → fires .debugResetRequest 8 (0x40 ||| BitVec.ofNat 7 (s.cfg rstIdx 0x0B)) 8) ∧
      (s.dbg.level ≠ 2 → s.upd.field = true → Runs .debugResetRequest s fun t => t = s)) ∧
    (x.relAt = some a → (∀ i : Fin 12, i.val < 10 → s.asserted i = false) → s.inReset d = true → (∀ q, q < d → s.inReset q = false) → 2 ≤ d.val →
      e = a + (if x.firstUp then msT 10 else usT 100) → fires .clockGoodTimeout 9 0x7C 9 ∧ Runs .clockGoodTimeout s fun t => t.rst.good = 0 ∧ t.rst.lossAt = some e) ∧
    (x.lossAt = none → s.asserted 9 = false → e = s.now → fires .rootLoss 9 0x7C 9 ∧
      Runs .rootLoss s fun t => t.rst.bkup = true ∧ t.rst.lock = false ∧ t.rst.good = 0 ∧ t.rst.lossAt = some s.now ∧ t.time = { s.time with src := 3, disc := false }) ∧
    (x.lossAt = some a → e = a + msT 10 → Runs .rootRestart s fun t => t.now = e ∧ apart t ∧ t.rst = { x with lossAt := some e, xosc := true }) ∧
    (x.good.getLsbD 1 = true → Runs (.aonOscCheck dev) s fun t => t = { s with rst := { x with aonok := !dev }, flt := t.flt } ∧
      if dev then Reports s t 0x01 13 else t.flt = s.flt) ∧
    (x.wdRun = some a →
      let closed : Prop := s.now < a + s.cfg rstIdx 3 * s.cfg rstIdx 4 * 1000
      let next : Byte := if wd_.next = 0x5A then Config.wdOther else 0x5A
      (s.Takes (.pair p) rstIdx 6 [BitVec.ofNat 36 k.toNat] →
        (¬named p → Runs (.wdkick p k) s fun t => told t (.pair p) 0 ∧ t = { s with srv := t.srv }) ∧
        (named p → closed ∨ k ≠ wd_.next → e = s.now → fires (.wdkick p k) 5 0x7C 12 ∧ Runs (.wdkick p k) s fun t => t.rst.wdRun = none) ∧
        (named p → ¬closed → k = wd_.next →
          ((∃ q, q ≠ p ∧ named q ∧ (bget x.wdPairs q).served = false) → Runs (.wdkick p k) s fun t => told t (.pair p) 0 ∧
            t = { s with rst := { x with wdPairs := bset x.wdPairs p { served := true, next := next } }, srv := t.srv }) ∧
          ((∀ q, q ≠ p → named q → (bget x.wdPairs q).served = true) → Runs (.wdkick p k) s fun t => told t (.pair p) 0 ∧
            t = { s with rst := { x with wdRun := some s.now, wdWarn := false, wdPairs := t.rst.wdPairs }, srv := t.srv } ∧
            ∀ q, bget t.rst.wdPairs q = { served := false, next := if q = p then next else (bget x.wdPairs q).next }))) ∧
      (owed → x.wdWarn = false → e = a + s.cfg rstIdx 3 * 75000 → Runs .watchdogWarning s fun t => t.now = e ∧ apart t ∧ Raised t 0x01 11 ∧ t.rst = { x with wdWarn := true }) ∧
      (owed → e = a + s.cfg rstIdx 3 * 100000 → fires .watchdogExpire 5 0x7C 5 ∧ Runs .watchdogExpire s fun t => t.rst.wdRun = none) ∧
      (¬owed → Runs .watchdogExpire s fun t => t = s)) ∧
    (s.Takes r rstIdx 8 [1] → Runs (.wdlock r) s fun t => told t r 0 ∧ t = { s with rst := { x with wdLock := true }, srv := t.srv })

/-- R497, R512, R513, R516 to R519, R521, R526, R527, R436: how each reset source releases, the release sequence, block resets, the return from PARK, and
power-on. -/
def Obligations.ReleaseSequence : Prop :=
  ∀ (i : Fin 12) (d : Fin 7) (casc : Fin 8) (y : BlockReset) (a e : Nat) (s : State), s.Ahead e →
    let x := s.rst
    let released (n : Fin 12) (t : State) : Prop := t.now = s.now ∧ Releases s t n
    let since (n : Fin 12) : Prop := (s.srcOf n).since = some a
    let min_ (n : Fin 12) : Nat := if n = 0 ∨ n = 5 ∨ n = 9 then 100000 else 7000
    let past (n : Fin 12) : Prop := since n ∧ a + min_ n ≤ s.now
    let early (n : Fin 12) (post : State → Prop) (i : Instr) : Prop := since n → s.now < a + min_ n → Runs i s fun t => (t.srcOf n).clear = true ∧ (t.srcOf n).since = some a ∧
      t.dom = s.dom ∧ t.rst.relAt = x.relAt ∧ post t
    let opens (t : State) (d : Fin 7) : Prop := t.up d = true ∧ (∀ q, q ≠ d → bget t.dom q = bget s.dom q) ∧
      (∀ y ∈ s.flt.shadows, d ≠ 1 → blockDom y.blk = some d → y.ends = none → { y with ends := some (e + 2000) } ∈ t.flt.shadows)
    let starts (t : State) (p : Fin 2) (lock : Bool) : Prop := let c := bget t.cores p
      c.pc = 0 ∧ c.sp = 0 ∧ c.psw = 0 ∧ c.rs = [] ∧ c.vbase = 0x003C00 ∧ c.lockup = lock ∧ c.lkcnt = (bget s.cores p).lkcnt ∧
        c.run = (if p = 1 ∧ s.upd.recov = true then .waiting else .running)
    let coreUp (t : State) : Prop := starts t 0 false ∧ starts t 1 false ∧ t.rst.wdLock = false ∧ t.rst.wdRun = (if s.cfg rstIdx 2 ≠ 0 then some e else none) ∧ t.mem = s.mem
    let on : Prop := s.pwr.mode ≠ .off
    let idle : Prop := s.srv.heldAcc = [] ∧ s.srv.commits = []
    (on → (past 1 → Runs (.supplyGood .sup) s (released 1)) ∧ early 1 (fun _ => True) (.supplyGood .sup)) ∧
    (on → 4500 ≤ s.sup.vbat → (past 2 → Runs (.supplyGood .core) s (released 2)) ∧ early 2 (fun _ => True) (.supplyGood .core)) ∧
    (s.sup.vbat < 4500 → Runs (.supplyGood .core) s fun t => t = s) ∧
    (on → past 0 → s.heldMask ≠ 0 → x.relAt = none → (∀ j : Fin 12, j.val < 10 → j ≠ 0 → s.asserted j = false) → (bget s.dom 1).held = true → (bget s.dom 1).powered = true →
      s.pwr.mode = .run → Runs (.supplyGood .aon) s fun t => t.now = 0 ∧ t.up 0 = true ∧ t.asserted 0 = false ∧ t.rst.relAt = some 0 ∧ t.mem = s.mem ∧
        ∀ q, q ≠ 0 → bget t.dom q = bget s.dom q) ∧
    (x.rstn = true →
      (past 3 → s.asserted 4 = false → Runs .rstnRise s fun t => released 3 t ∧ t.rst.rstn = false) ∧
      (past 4 → s.asserted 3 = false → Runs .rstnRise s fun t => released 4 t ∧ t.rst.rstn = false) ∧
      (s.asserted 4 = false → early 3 (fun t => t.rst.rstn = false) .rstnRise)) ∧
    (past 8 → Runs .debugResetWithdraw s (released 8)) ∧ early 8 (fun _ => True) .debugResetWithdraw ∧
    (x.lossAt.isSome = true → past 9 → Runs .rootRecovered s fun t => released 9 t ∧ Raised t 0x01 14 ∧ t.rst.lossAt = none ∧ t.rst.good = 0x1F ∧ t.rst.lock = true ∧
      t.rst.xosc = true ∧ t.rst.bkup = false) ∧
    (i = 5 ∨ i = 6 ∨ i = 7 → since i → (s.srcOf i).clear = true → e = a + min_ i → Runs (.resetPulseEnd i) s fun t => t.now = e ∧ Releases s t i) ∧
    (i = 10 ∨ i = 11 → x.blocks = [y] → y.lock = decide (i = 10) → e = y.since + 7000 → s.up 2 = true → idle →
      let p : Fin 2 := Fin.ofNat 2 (y.blk - 0x0B)
      Runs (.resetPulseEnd i) s fun t => t.now = e ∧ t.rst.blocks = [] ∧ t.asserted i = false ∧ t.dom = s.dom ∧
        t.rst.causex = { ref := if i = 10 then (s.srcOf 10).ref else 0x02A, rcnt := 0, src := 1#12 <<< i.val, dom := 0 } ∧ t.rst.rblk = (if i = 11 then BitVec.ofNat 8 y.blk else x.rblk) ∧
        (y.blk = 0x0B + p.val → s.up 6 = true → starts t p (i == 10) ∧ (∀ z ∈ s.flt.shadows, z.blk = y.blk → z.ends = none → { z with ends := some (e + 2000) } ∈ t.flt.shadows) ∧
          ∀ q, q ≠ p → bget t.cores q = bget s.cores q)) ∧
    (x.relAt = some a → (∀ j : Fin 12, j.val < 10 → s.asserted j = false) → s.inReset d = true → (∀ q, q < d → s.inReset q = false) → d ≠ 0 →
      e = a + (if d = 1 ∧ (x.firstUp = true ∨ x.bkup = true) then 3200 else 1024) → x.lossAt = none ∨ d = 1 → s.pwr.mode = .run → idle →
      let src := bget x.domSrc d
      Runs .domainRelease s fun t => t.now = e ∧ opens t d ∧
        bget t.rst.causes d = (if src.getLsbD 0 then { ref := 0, rcnt := 0, src := 1, dom := 0 } else { ref := bget x.domRef d, rcnt := min 4095 ((bget x.causes d).rcnt + 1), src := src, dom := 0 }) ∧
        (∀ q, q ≠ d → bget t.rst.causes q = bget x.causes q) ∧
        (d = 1 → (src.getLsbD 1 = true → Raised t 0x01 1) ∧ (src.getLsbD 4 = true → Raised t 0x01 4) ∧ (src.getLsbD 0 = true → Raised t 0x01 0)) ∧
        (d = 6 → coreUp t) ∧
        ((∃ q, q ≠ d ∧ s.inReset q = true) → t.rst.relAt = some e ∧ t.rst.causex = x.causex) ∧
        ((∀ q, q ≠ d → s.inReset q = false) → t.rst.relAt = none ∧
          t.rst.causex = if x.seen.getLsbD 0 then { ref := 0, rcnt := 0, src := 1, dom := 0 } else { ref := x.first, rcnt := 0, src := x.seen, dom := x.held })) ∧
    (s.pwr.mode = .returning → s.pwr.next = d.val → d ≠ 0 → idle →
      e = s.pwr.start + [0, 300000, 350000, 360000, 370000, 380000, 400000].getD d.val 0 + (if s.pwr.deep then 200000 else 0) →
      (x.lossAt = none ∨ d = 1 → Runs (.domainReturnRelease d) s fun t => t.now = e ∧ t.up d = true ∧ (∀ q, q ≠ d → bget t.dom q = bget s.dom q) ∧ t.pwr.next = d.val + 1 ∧
        (d ≠ 6 → t.pwr.mode = .returning) ∧
        (d = 6 → coreUp t ∧ t.pwr.mode = .run ∧ t.pwr.req = 0 ∧ t.pwr.wakes = satInc s.pwr.wakes ∧ t.pwr.awakeAt = some e ∧ t.time.parked = true ∧
          ∀ w, s.pwr.wake = some w → t.pwr.wcause = w.word ∧ t.pwr.wstamp = w.stamp)) ∧
      (x.lossAt.isSome = true → 2 ≤ d.val → s.asserted 9 = false → Runs (.domainReturnRelease d) s fun t => t.now = e ∧ t.asserted 9 = true ∧ (t.srcOf 9).ref = 0x029 ∧
        ∀ q : Fin 7, 2 ≤ q.val → t.inReset q = true)) ∧
    (s.pwr.mode = .off → Runs (.powerOnReset casc) s fun t => t.now = 0 ∧ t.pwr.mode = .run ∧ t.duo.casc = casc ∧ (∀ q, t.inReset q = true) ∧ (t.srcOf 0).since = some 0 ∧
      (t.srcOf 0).reach = 0x7F ∧ (∀ n : Fin 12, n ≠ 0 → t.asserted n = false) ∧ (∀ q, (bget t.rst.domSrc q).getLsbD 0 = true) ∧ (∀ ch, bget t.hs ch = HsChannel.reset) ∧
      t.flt = FaultState.reset ∧ (∀ p, (bget t.cores p).run = .reset) ∧ (∀ b, b < 0x800000 → memRead t.mem b = memRead s.mem b) ∧
      ∀ b, 0x800000 ≤ b → memRead t.mem b = 0)

/-- R552, R554, R557, R560 to R566, R568 to R571: verification of images, activation and confirmation, keys, and the event log. -/
def Obligations.UpdateAndLog : Prop :=
  ∀ (r : Requester) (verr slot : Byte) (key : BitVec 128) (q : LogRec) (rest : List LogRec) (e : Nat) (s : State), s.Ahead e → s.Powered → Memory.wf s.mem = true →
    let u := s.upd
    let l := s.log
    let base (b : Fin 2) : Nat := 0x100000 * (1 + b.val)
    let w (b : Fin 2) (o : Nat) : Word := memRead s.mem (base b + o)
    let len (b : Fin 2) : Nat := (w b 1).toNat
    let secver (b : Fin 2) : Nat := fld (w b 2) 35 28
    let key_ (b : Fin 2) : Nat := fld (w b 9) 35 34
    let tables (b : Fin 2) : Prop := fld (w b 6) 35 18 + 2 * fld (w b 6) 17 0 ≤ len b ∧ fld (w b 7) 35 18 + 16 ≤ len b ∧ fld (w b 8) 35 18 + 2 * fld (w b 8) 17 0 ≤ len b
    let header (b : Fin 2) : Prop := w b 0 = 0x964810000
    let sized (b : Fin 2) : Prop := 0x100 ≤ len b ∧ len b ≤ 0x100000 ∧ len b % 2 = 0 ∧ tables b
    let digest (b : Fin 2) : Prop := memReadN s.mem (base b + 0x10) 8 = digestWords (sha256 (octetImage (memReadN s.mem (base b + 0x40) (len b - 0x40))))
    let keyed (b : Fin 2) : Prop := u.ukHave.getLsbD (key_ b) = true ∧ u.ukRev.getLsbD (key_ b) = false
    let verifies (b : Fin 2) : Prop := header b ∧ sized b ∧ digest b ∧ verr ≠ 4 ∧ keyed b ∧ u.sv ≤ secver b
    let fails (b : Fin 2) (c : Nat) : Prop := c = 1 ∧ ¬header b ∨ c = 2 ∧ header b ∧ ¬sized b ∨ c = 3 ∧ header b ∧ sized b ∧ ¬digest b ∨
      c = 4 ∧ header b ∧ sized b ∧ digest b ∧ verr = 4 ∨ c = 5 ∧ header b ∧ sized b ∧ digest b ∧ verr ≠ 4 ∧ ¬keyed b ∨
      c = 6 ∧ header b ∧ sized b ∧ digest b ∧ verr ≠ 4 ∧ keyed b ∧ secver b < u.sv
    let told (t : State) (c : Byte) : Prop := ∃ y, t.srv.answer = some y ∧ y.dest = r ∧ y.code = c
    let refused (t : State) (c : Byte) : Prop := told t c ∧ t = { s with srv := t.srv }
    let bank (t : State) (b : Fin 2) : BankState := bget t.upd.banks b
    let other (b : Fin 2) : Fin 2 := if b = 0 then 1 else 0
    let b := u.mapped
    let o := other u.mapped
    let room : Prop := l.queue.length < 32
    let logged (t : State) (cls : Nat) (payload : List Word) : Prop := t.log.queue = l.queue ++ [{ cls := cls, time := t.time.time, drop := l.drop, payload := payload }]
    let boot (t : State) (code : Nat) (b : Fin 2) : Prop := logged t 2 [BitVec.ofNat 36 (code * 2 ^ 32 + b.val * 2 ^ 31 + u.sv * 2 ^ 23), w b 3]
    let resets (t : State) : Prop := Asserts s t 6 0x7C 0x026 ∧ Raised t 0x01 6
    let apart (t : State) : Prop := t.mem = s.mem ∧ t.cores = s.cores ∧ t.dom = s.dom ∧ t.hs = s.hs ∧ t.fab = s.fab
    (u.busy = .verifying →
      (∀ c, fails o c → Runs (.imageVerifyDone verr) s fun t => bank t o = .empty ∧ bank t b = bget u.banks b ∧ t.upd.verr.toNat = c ∧ t.upd.busy = .none ∧ t.upd.updates = u.updates ∧
        Reports s t 0x0A 0 ∧ t = { s with upd := t.upd, flt := t.flt }) ∧
      (verifies o → u.recov = false → room → Runs (.imageVerifyDone verr) s fun t => bank t o = .valid ∧ bank t b = bget u.banks b ∧ t.upd.verr = 0 ∧ t.upd.busy = .none ∧
        t.upd.updates = satInc u.updates ∧ t.upd.mapped = b ∧
        logged t 1 ([BitVec.ofNat 36 (o.val * 2 ^ 35 + secver o * 2 ^ 27 + fld (w o 2) 27 12 * 2 ^ 11), w o 3] ++ memReadN s.mem (base o + 0x10) 8) ∧
        t = { s with upd := t.upd, log := t.log }) ∧
      (verifies o → u.recov = true → Runs (.imageVerifyDone verr) s fun t => bank t o = .trial ∧ t.upd.tries = 0 ∧ t.upd.bfail = 0 ∧ resets t)) ∧
    (u.rom = true → u.recov = false → s.up 6 = true → (bget s.cores 0).run ≠ .reset → (bget s.cores 1).run ≠ .reset →
      (verifies b → Runs (.romBootVerifyDone verr) s fun t => (bget t.cores 0).pc = BitVec.ofNat 24 (w b 4).toNat ∧ (bget t.cores 1).pc = BitVec.ofNat 24 (w b 5).toNat ∧
        ((bget s.cores 1).run = .waiting → (bget t.cores 1).run = .running) ∧ t = { s with upd := { u with rom := false, checked := true, verr := 0 }, cores := t.cores }) ∧
      (¬verifies b → Runs (.romBootVerifyDone verr) s fun t => bank t b = .invalid ∧ resets t ∧
        bank t o = (if bget u.banks b ≠ .trial ∧ bget u.banks o = .previous then .confirmed else bget u.banks o))) ∧
    (s.Takes r updIdx 4 [1] →
      let confirms (t : State) : Prop := told t 0 ∧ bank t b = .confirmed ∧ t.upd.tries = 0 ∧ t.upd.bfail = 0 ∧ t.upd.booted = true ∧ t.upd.coreAt = none ∧ t.srv.shadow = none ∧ apart t
      (bget u.banks b = .trial → u.svpend = false → secver b ≤ u.sv → Runs (.confirm r) s fun t => confirms t ∧ bank t o = .previous ∧ t.upd.sv = u.sv) ∧
      (bget u.banks b = .trial → u.sv < secver b → Runs (.confirm r) s fun t => confirms t ∧ t.upd.sv = secver b ∧ t.upd.svpend = false ∧ Raised t 0x0A 1 ∧
        (secver b = 255 → Raised t 0x0A 2) ∧ bank t o = if secver o < secver b then .invalid else .previous) ∧
      (bget u.banks b ≠ .trial → Runs (.confirm r) s fun t => told t 0 ∧ apart t ∧ t.upd = { u with booted := true, bfail := 0, coreAt := none, rolled := none })) ∧
    (s.Takes r updIdx 5 [1] →
      (Runs (.bootok r) s fun t => told t 0 ∧ apart t ∧ t.upd = { u with booted := true, bfail := 0, coreAt := none, rolled := none }) ∧
      (∀ z, u.rolled = some z → room → Runs (.bootok r) s fun t => boot t 2 z)) ∧
    (∀ a, u.coreAt = some a → e = a + msT (s.cfg updIdx 0x12) →
      (s.up 6 = true → u.booted = false → u.recov = false → Runs .bootokTimeout s fun t => t.now = e ∧ resets t ∧ Raised t 0x09 10) ∧
      (u.booted = true → Runs .bootokTimeout s fun t => t = s)) ∧
    (s.Takes r updIdx 0x0A (BitVec.ofNat 36 (slot.toNat * 2 ^ 28) :: (List.range 4).map fun i => (key.extractLsb' (96 - 32 * i) 32).zeroExtend 36) →
      (∀ k : Fin 32, k.val = slot.toNat → (k ≠ 0 ∨ r = .debug) → room → Runs (.keyload r slot key) s fun t => told t 0 ∧ bget t.upd.keys k = some key ∧
        (∀ j, j ≠ k → bget t.upd.keys j = bget u.keys j) ∧ (∃ p, logged t 0x0A p) ∧ Raised t 0x0A 9 ∧ t = { s with upd := { u with keys := t.upd.keys }, log := t.log, flt := t.flt, srv := t.srv }) ∧
      (slot = 0 → r ≠ .debug → (∀ n x, r = .session n → bget s.srv.sess n = some x → x.slot ≠ 0) → Runs (.keyload r slot key) s fun t => refused t 3) ∧
      (32 ≤ slot.toNat → Runs (.keyload r slot key) s fun t => refused t 7)) ∧
    (s.Takes r updIdx 0x0C [BitVec.ofNat 36 slot.toNat] →
      (∀ k : Fin 32, k.val = slot.toNat → k ≠ 0 → room → Runs (.keyclr r slot) s fun t => told t 0 ∧ bget t.upd.keys k = none ∧
        (∀ j, j ≠ k → bget t.upd.keys j = bget u.keys j) ∧ (∃ p, logged t 0x0A p) ∧ Raised t 0x0A 9 ∧ t = { s with upd := { u with keys := t.upd.keys }, log := t.log, flt := t.flt, srv := t.srv })) ∧
    (s.srvFree r = true → s.served r .update = true →
      ((s.access r updIdx 0x0C true).isLeft = true → slot = 0 ∨ 32 ≤ slot.toNat → Runs (.keyclr r slot) s fun t => refused t 7) ∧
      ((s.access r updIdx 0x0D true).isLeft = true → 4 ≤ slot.toNat → Runs (.ukrev r slot) s fun t => refused t 7)) ∧
    (s.Takes r updIdx 0x0D [BitVec.ofNat 36 slot.toNat] →
      let bound : Prop := ∃ b, bget u.banks b = .confirmed ∧ (b = 1 → bget u.banks 0 ≠ .confirmed) ∧ key_ b = slot.toNat
      (slot.toNat < 4 → ¬bound → room → Runs (.ukrev r slot) s fun t => told t 0 ∧ (∃ p, logged t 0x0A p) ∧ Raised t 0x0A 9 ∧
        (∀ k, t.upd.ukRev.getLsbD k = (u.ukRev.getLsbD k || decide (k = slot.toNat))) ∧ t = { s with upd := { u with ukRev := t.upd.ukRev }, log := t.log, flt := t.flt, srv := t.srv }) ∧
      (bound → Runs (.ukrev r slot) s fun t => refused t 7)) ∧
    (s.up 2 = true → l.queue = q :: rest → l.slot < 1024 →
      let a := 0x404000 + 32 * l.slot
      let body : List Word := [BitVec.ofNat 36 (q.cls * 2 ^ 28 + (q.payload.take 12).length * 2 ^ 24 + q.drop * 2 ^ 12), l.next, q.time.extractLsb' 36 36, q.time.extractLsb' 0 36] ++
        (q.payload ++ List.replicate 12 0).take 12
      let prev := if l.next = 0 then sha256 s.serialOctets else l.chain
      let appended (t : State) : Prop := (∀ i, i < 16 → memRead t.mem (a + i) = body.getD i 0) ∧
        (∀ i, i < 16 → memRead t.mem (a + 16 + i) = ((Config.logSign (sha256 (digestOctets prev ++ octetImage body))).getD i 0).zeroExtend 36) ∧ t.log.queue = rest
      let last : Prop := (l.slot + 1) % 32 = 31 ∧ 991 ≤ l.filled
      (¬last → Runs (.logAppend true) s fun t => appended t ∧ t.log.next = l.next + 1 ∧ t.log.head = 32 * l.slot ∧ t.log.slot = (l.slot + 1) % 1024 ∧
        t.log.chain = sha256 (digestOctets prev ++ octetImage body) ∧ t.log.records = satInc l.records ∧ t.log.truncs = l.truncs ∧
        (∀ i, (i < a ∨ a + 32 ≤ i) → memRead t.mem i = memRead s.mem i) ∧ t = { s with mem := t.mem, log := t.log }) ∧
      (last → let c := 0x404000 + 1024 * (((l.slot + 1) / 32 + 1) % 32)
        Runs (.logAppend true) s fun t => appended t ∧ t.log.next = l.next + 2 ∧ t.log.truncs = satInc l.truncs ∧ Raised t 0x0A 5 ∧
          (∀ i, c ≤ i → i < c + 1024 → memRead t.mem i = 0) ∧ fld (memRead t.mem (a + 32)) 35 28 = 8 ∧ memRead t.mem (a + 36) = memRead s.mem (c + 993) + 1 ∧
          (∀ i, (i < a ∨ a + 64 ≤ i) → (i < c ∨ c + 1024 ≤ i) → memRead t.mem i = memRead s.mem i) ∧ t = { s with mem := t.mem, log := t.log, flt := t.flt }) ∧
      (Runs (.logAppend false) s fun t => Reports s t 0x0A 3 ∧ t = { s with flt := t.flt }))

/-- R523, R525, R554, R573, R574, R595: the JTAG port, its unlock, and debug accesses.  What a boundary scan samples and what a challenge holds are free
values (log 7). -/
def Obligations.DebugPort : Prop :=
  ∀ (p : Fin 2) (level : BitVec 2) (mac : BitVec 128) (a : Addr) (w : Word) (idx : BitVec 16) (sub : Byte) (v : List Word) (s : State), s.pwr.mode ≠ .off → Memory.wf s.mem = true →
    let d := s.dbg
    let opened : Prop := d.level = 1 ∨ d.level = 2 ∨ s.upd.field = false
    let full : Prop := d.level = 2 ∨ s.upd.field = false
    let sets (i : Instr) (d' : Debug) : Prop := Runs i s fun t => t = { s with dbg := d' }
    let failed (i : Instr) : Prop := sets i { d with ir := 0x12, fail := true, out := 0 }
    let c := bget s.cores p
    let right : Prop := ∃ c k, d.chal = some c ∧ bget s.upd.keys (Fin.ofNat 32 (s.cfg updIdx 0x10)) = some k ∧ (level = 1 ∨ level = 2) ∧
      mac = cmac k ((List.range 16).map (fun i => c.extractLsb' (120 - 8 * i) 8) ++ s.serialOctets ++ [level.zeroExtend 8])
    let rec_ (code drop : Nat) : LogRec := { cls := 4, time := s.time.time, drop := drop, payload := [BitVec.ofNat 36 (code * 2 ^ 32 + level.toNat * 2 ^ 30)] }
    let logged (t : State) (code : Nat) : Prop := t.log.queue = s.log.queue ++ [rec_ code s.log.drop]
    let only (t : State) : Prop := t = { s with dbg := t.dbg, log := t.log, flt := t.flt }
    sets .bypass { d with ir := 0x3F, out := 0 } ∧
    sets .idcode { d with ir := 0x01, out := BitVec.ofNat 136 (s.cfg 0x1000 2 % 16 * 2 ^ 28 + 0x9648 * 2 ^ 12 + 0x2C5 * 2 + 1) } ∧
    (Runs .samplePreload s fun t => t.dbg.ir = 0x02 ∧ t = { s with dbg := { d with ir := 0x02, out := t.dbg.out }, free := s.free + 1 }) ∧
    (opened → sets .extest { d with ir := 0x00 }) ∧ (¬opened → sets .extest { d with ir := 0x3F, out := 0 } ∧ ∀ x, sets (.dacc x) { d with ir := 0x3F, out := 0 }) ∧
    (s.up 2 = true → Runs .dchal s fun t => ∃ c : BitVec 128, t = { s with dbg := { d with ir := 0x10, out := c.zeroExtend 136, chal := some c }, free := t.free }) ∧
    (s.up 2 = true → d.level ≠ 3 →
      (level = 0 → sets (.dresp level mac) { d with ir := 0x11, level := 0 }) ∧
      (32 ≤ s.log.queue.length → right → sets (.dresp level mac) { d with ir := 0x11 }) ∧
      (s.log.queue.length < 32 → right → Runs (.dresp level mac) s fun t => only t ∧ logged t 0 ∧ Reports s t 0x0A 6 ∧
        t.dbg = { d with ir := 0x11, chal := none, level := t.dbg.level } ∧ t.dbg.level.val = level.toNat) ∧
      (level ≠ 0 → ¬right →
        (d.wrong < 2 → s.log.queue.length < 32 → Runs (.dresp level mac) s fun t => only t ∧ logged t 1 ∧ Reports s t 0x0A 7 ∧ t.dbg = { d with ir := 0x11, chal := none, wrong := d.wrong + 1 }) ∧
        (2 ≤ d.wrong → s.log.queue.length < 31 → Runs (.dresp level mac) s fun t => only t ∧ t.log.queue = s.log.queue ++ [rec_ 1 s.log.drop, rec_ 2 0] ∧ Raised t 0x0A 7 ∧ Raised t 0x0A 8 ∧
          t.dbg = { d with ir := 0x11, chal := none, wrong := d.wrong + 1, level := 3 }))) ∧
    (d.level = 3 → sets (.dresp level mac) { d with ir := 0x11 }) ∧
    (opened →
      (s.up 2 = false → failed (.dacc (.readMem a)) ∧ failed (.dacc (.writeMem a w))) ∧
      ((∀ f, famOf idx.toNat = some f → famDomain f.1 ≠ 0) → s.up 2 = false → failed (.dacc (.readObj idx sub)) ∧ failed (.dacc (.writeObj idx sub v))) ∧
      (s.up 2 = true → s.closed 0x08 = false → 0x800000 ≤ a.toNat → a.toNat < 0x860000 →
        sets (.dacc (.readMem a)) { d with ir := 0x12, fail := false, out := (memRead s.mem a.toNat).zeroExtend 136 } ∧
        (full → Runs (.dacc (.writeMem a w)) s fun t => memRead t.mem a.toNat = w ∧ (∀ b, b ≠ a.toNat → memRead t.mem b = memRead s.mem b) ∧
          t = { s with mem := t.mem, dbg := { d with ir := 0x12, fail := false, out := 0 } })) ∧
      (s.up 2 = true → (∀ b, blockDom ((a.toNat - 0xC00000) / 512) ≠ some b) → 0xC00000 ≤ a.toNat → Runs (.dacc (.readMem a)) s fun t => t.dbg.fail = true ∧ Reports s t 0x07 3) ∧
      (¬full → failed (.dacc (.writeMem a w)) ∧ failed (.dacc (.writeObj idx sub v)) ∧ failed (.dacc (.halt p)) ∧ failed (.dacc (.resume p))) ∧
      (full → c.run = .running ∨ c.run = .waiting → Runs (.dacc (.halt p)) s fun t => bget t.cores p = { c with run := .halted } ∧ (∀ q, q ≠ p → bget t.cores q = bget s.cores q) ∧
        t.dbg = { d with ir := 0x12, fail := false, out := 0 } ∧ t.mem = s.mem ∧ t.pwr = { s.pwr with mode := if s.pwr.mode = .idle then .run else s.pwr.mode } ∧
        (s.cfg rstIdx 7 ≠ 0 → (s.cfg rstIdx 5).testBit p.val = true → t.rst.wdRun = none)) ∧
      (full → c.run = .halted → Runs (.dacc (.resume p)) s fun t => bget t.cores p = { c with run := .running } ∧ (∀ q, q ≠ p → bget t.cores q = bget s.cores q) ∧
        t.dbg = { d with ir := 0x12, fail := false, out := 0 } ∧ t.mem = s.mem ∧
        (s.up 6 = true → s.rst.wdRun = none → s.cfg rstIdx 2 ≠ 0 → (∀ q, q ≠ p → (bget s.cores q).run ≠ .halted) → t.rst.wdRun = some s.now)) ∧
      (full → c.run ≠ .halted → failed (.dacc (.resume p))) ∧
      (s.upd.field = false → s.up 2 = true → Runs (.dacc (.writeObj 0x1500 0x09 [2])) s fun t => t.upd = { s.upd with field := true } ∧ t.mem = s.mem ∧ t.dbg.fail = false) ∧
      (s.up 2 = true → (s.access .debug idx.toNat sub.toNat false).isLeft = true → (∃ f n, famOf idx.toNat = some (f, n) ∧ s.reaches f n = true) →
        Runs (.dacc (.readObj idx sub)) s fun t => t.dbg = { d with ir := 0x12, fail := false, out := 0 } ∧ t.mem = s.mem))

/-- The machine right after reset is sound; R30, R35, R321, R418, R425, R494 to R502, R526 and R536 give what it holds here: nothing waits or is written, every
domain is released, both pairs start in ROM, no output is on and no fault is held.  The instant of TIME is the model's choice (log 4). -/
def Obligations.SoundAtReset : Prop :=
  let s := State.reset
  s.Sound ∧ s.pending = [] ∧ s.mem = [] ∧ (∀ d, s.up d = true) ∧ (∀ b : Nat, (blockDom b).isSome = true → s.closed b = false) ∧ s.pwr.mode = .run ∧
    (∀ p : Fin 2, let c := bget s.cores p
      c.run = .running ∧ c.pc = 0 ∧ c.psw = 0 ∧ c.rs = [] ∧ c.vbase = 0x003C00 ∧ c.rslo = (if p = 0 then 0x85C000 else 0x85D000) ∧ c.rshi = (if p = 0 then 0x85CFFF else 0x85DFFF) ∧
        c.rslock = false) ∧
    (∀ ch, (bget s.hs ch).out = false) ∧ (∀ n, (bget s.legs n).act = .off) ∧ (∀ n, (bget s.vd n).stage = .off) ∧ (∀ n, (bget s.sinks n).x = 0) ∧
    s.flt.errnLvl = false ∧ s.flt.valid = false ∧ (∀ b, bget s.flt.sticky b = 0) ∧ s.flt.safe = 0 ∧ s.flt.frzValid = false ∧ s.ring.byp = true ∧ s.duo.role = .off ∧
    (∀ i, s.asserted i = false) ∧ (∀ d, (bget s.rst.causes d).word = 1) ∧ s.rst.causex.wordX = 1 ∧ s.rst.rblk = 0xFF

/-- Every step keeps a state sound: memory keeps its canonical form, and no pair comes to hold more than the 32 return entries of R305. -/
def Obligations.SoundKept : Prop :=
  ∀ s t : State, s.Sound → step s = .next t → t.Sound

/-- R123, R131: a malformed word at a high-side group, and a trip outside the inrush window. -/
def Obligations.HighSideProtection : Prop :=
  ∀ (g : Fin 9) (w : Word) (ch : Fin 72) (s : State),
    let h := bget s.hs ch
    (s.iop = true → (6 ≤ fld w 35 32 ∨ fld w 23 16 ≠ 0 ∨ fld w 35 32 ≠ 4 ∧ fld w 15 0 ≠ 0) →
      Runs (.hsMalformedWord g w) s fun t => Reports s t (0x30 + g.val) 28 ∧ t = { s with flt := t.flt }) ∧
    (h.out = true → h.win = none → h.lcause = 0 → Runs (.hsOvercurrentTrip ch) s fun t =>
      let h' := bget t.hs ch
      h'.out = false ∧ h'.act = .off ∧ h'.lcause = 1 ∧ h'.trips = satInc h.trips ∧ h'.offAt = some s.now ∧ h'.cmd = h.cmd ∧ (∀ x ∈ t.adm.charges, x.code ≠ ch.val) ∧
        Reports s t (0x30 + ch.val / 8) (ch.val % 8) ∧ Apart s t ∧ t.now = s.now ∧ (∀ k, k ≠ ch → hsGroup k ≠ hsGroup ch → bget t.hs k = bget s.hs k) ∧
        ∀ k, k ≠ ch → (bget t.hs k).out = (bget s.hs k).out ∧ (bget t.hs k).lcause = (bget s.hs k).lcause)

/-- R542: valid copies and missed ones. -/
def Obligations.DuoCopies : Prop :=
  ∀ (fr : DuoFrame) (e : Nat) (s : State), s.Ahead e → s.onTheRing = true →
    let d := s.duo
    let valid : Prop := fr.ok = true ∧ fr.src.val = s.cfg duoIdx 3 ∧ fr.words.getD 1 0 = BitVec.ofNat 36 (s.now / 100000)
    let apart (t : State) : Prop := t.mem = s.mem ∧ t.cores = s.cores ∧ t.dom = s.dom ∧ t.srv = s.srv ∧ t.hs = s.hs ∧ t.vd = s.vd ∧ t.ring = s.ring
    (d.role ≠ .off → valid → Runs (.duoStateReceive fr) s fun t => apart t ∧ t.duo.missc = 0 ∧ t.duo.due = none ∧ t.duo.missed = d.missed) ∧
    (¬valid → Runs (.duoStateReceive fr) s fun t => t = s) ∧
    (∀ a, d.due = some a → e = a + 50000 → Runs .duoCopyDeadline s fun t => t.now = e ∧ apart t ∧ t.duo.missc = d.missc + 1 ∧ t.duo.missed = satInc d.missed ∧
      t.duo.due = none ∧ t.duo.copy = d.copy ∧ t.duo.gen = d.gen ∧ ({ src := 1, stamp := t.stamp, wrapped := none } : Report) ∈ t.flt.inflight) ∧
    (d.due = none → Runs .duoCopyDeadline s fun t => t = s)

/-- R444: keep-alives are sent by a privileged node, and taken from one. -/
def Obligations.KeepAlives : Prop :=
  ∀ (m : DaisyMsg) (med : DaisyMed) (e : Nat) (s : State), s.Ahead e → s.up 5 = true →
    let p := s.pwr
    let my := s.cfg pwrIdx 0x11
    let list := nodeList s.obj
    let apart (t : State) : Prop := t.mem = s.mem ∧ t.cores = s.cores ∧ t.dom = s.dom ∧ t.srv = s.srv ∧ t.hs = s.hs ∧ t.fab = s.fab
    ((∃ x ∈ list, x.num = m.orig.toNat ∧ x.priv = true) → Runs (.daisyKeepReceive m med) s fun t =>
      t = { s with pwr := { p with quietAt := some s.now, lastka := m.orig, dstate := if p.dstate = 2 then 4 else p.dstate } }) ∧
    ((∀ x ∈ list, x.num = m.orig.toNat → x.priv = false) → Runs (.daisyKeepReceive m med) s fun t => Reports s t 0x02 4 ∧ t = { s with flt := t.flt }) ∧
    (∀ x, list.find? (fun y => y.num = my) = some x → e = p.keepAt + msT (s.cfg pwrIdx 0x1B) →
      (p.keep = true → x.priv = true → Runs .daisyKeepSend s fun t =>
        t.now = e ∧ apart t ∧ Sends s t 3 { gen := 0, orig := BitVec.ofNat 8 my, nxt := 0, ovr := false, excl := [], entries := [] } s.media ∧
          t.pwr = { p with keepAt := e, sent := t.pwr.sent }) ∧
      (p.keep = false ∨ x.priv = false → Runs .daisyKeepSend s fun t => t.pwr.sent = p.sent ∧ t.ring = s.ring))

/-- R564: activation. -/
def Obligations.Activation : Prop :=
  ∀ (r : Requester) (b : Fin 2) (s : State), s.Takes r updIdx 3 [1] → s.log.queue.length < 32 →
    let u := s.upd
    let told (t : State) (c : Byte) : Prop := ∃ y, t.srv.answer = some y ∧ y.dest = r ∧ y.code = c
    (bget u.banks b = .valid → (∀ o, o ≠ b → bget u.banks o ≠ .valid) → Runs (.activate r) s fun t => told t 0 ∧ bget t.upd.banks b = .trial ∧
      t.upd = { u with banks := t.upd.banks, tries := 0 } ∧ (∀ o, o ≠ b → bget t.upd.banks o = bget u.banks o) ∧
      t.log.queue = s.log.queue ++ [{ cls := 2, time := s.time.time, drop := s.log.drop,
                                      payload := [BitVec.ofNat 36 (b.val * 2 ^ 31 + u.sv * 2 ^ 23), memRead s.mem (0x100000 * (1 + b.val) + 3)] }] ∧
      t = { s with upd := t.upd, log := t.log, srv := t.srv }) ∧
    ((∀ o, bget u.banks o ≠ .valid) → Runs (.activate r) s fun t => told t 7 ∧ t = { s with srv := t.srv })
end

