-- ==== Sys2Proof/Laws/Banks.lean ====
section
/-!
SUPPORT. Banks and sparse stores: what is read after a write.
-/
namespace Sys2Proof.Machine

variable {α : Type} {n : Nat}

@[simp] theorem bget_bset_same (v : Bank α n) (i : Fin n) (x : α) : bget (bset v i x) i = x := by
  simp [bget, bset]

@[simp] theorem bget_bset_ne (v : Bank α n) {i j : Fin n} (x : α) (h : j ≠ i) : bget (bset v i x) j = bget v j := by
  simp only [bget, bset]
  exact Vector.getElem_set_ne _ _ (fun e => h (Fin.ext e.symm))

@[simp] theorem bget_replicate (x : α) (i : Fin n) : bget (Vector.replicate n x) i = x := by simp [bget]

@[simp] theorem bget_bmod_same (v : Bank α n) (i : Fin n) (f : α → α) : bget (bmod v i f) i = f (bget v i) := bget_bset_same ..

@[simp] theorem bget_bmod_ne (v : Bank α n) {i j : Fin n} (f : α → α) (h : j ≠ i) : bget (bmod v i f) j = bget v j := bget_bset_ne _ _ h

end Sys2Proof.Machine
end

