-- ==== Sys2Proof/Laws/Memory.lean ====
section
/-!
SUPPORT. Memory and the other sparse stores: what a word reads as after a write, and that every operation keeps the canonical form.
-/
namespace Sys2Proof.Machine

variable {α : Type}

/-! Sparse stores -/

/-- The canonical form by pairs. -/
theorem alSorted_iff (l : List (Nat × α)) : alSorted l = true ↔ l.Pairwise fun a b => a.1 < b.1 := by
  induction l with
  | nil => simp [alSorted]
  | cons x r ih =>
    cases r with
    | nil => simp [alSorted]
    | cons y t =>
      obtain ⟨j, u⟩ := x
      obtain ⟨k, v⟩ := y
      simp only [alSorted, Bool.and_eq_true, decide_eq_true_eq, ih]
      constructor
      · rintro ⟨h, hp⟩
        refine List.pairwise_cons.mpr ⟨fun z hz => ?_, hp⟩
        rcases List.mem_cons.mp hz with rfl | hz
        · exact h
        · exact Nat.lt_trans h ((List.pairwise_cons.mp hp).1 z hz)
      · intro hp
        exact ⟨(List.pairwise_cons.mp hp).1 _ (List.mem_cons_self ..), (List.pairwise_cons.mp hp).2⟩

theorem alErase_sorted (k : Nat) {l : List (Nat × α)} (h : alSorted l = true) : alSorted (alErase k l) = true := by
  rw [alSorted_iff] at *
  exact h.filter _

/-- An insertion holds its entry and those of other keys. -/
theorem mem_alInsert {k : Nat} {x : α} {l : List (Nat × α)} {e : Nat × α} (h : e ∈ alInsert k x l) : e = (k, x) ∨ e ∈ l := by
  induction l with
  | nil => exact .inl (List.mem_singleton.mp h)
  | cons c r ih =>
    obtain ⟨j, y⟩ := c
    unfold alInsert at h
    split at h
    · rcases List.mem_cons.mp h with h | h
      · exact .inl h
      · exact .inr h
    · split at h
      · rcases List.mem_cons.mp h with h | h
        · exact .inl h
        · exact .inr (List.mem_cons_of_mem _ h)
      · rcases List.mem_cons.mp h with h | h
        · exact .inr (h ▸ List.mem_cons_self ..)
        · exact (ih h).imp id (List.mem_cons_of_mem _)

theorem alInsert_sorted (k : Nat) (x : α) {l : List (Nat × α)} (h : alSorted l = true) : alSorted (alInsert k x l) = true := by
  rw [alSorted_iff] at *
  induction l with
  | nil => simp [alInsert]
  | cons c r ih =>
    obtain ⟨j, y⟩ := c
    obtain ⟨hj, hr⟩ := List.pairwise_cons.mp h
    unfold alInsert
    split
    · rename_i hk
      refine List.pairwise_cons.mpr ⟨fun z hz => ?_, h⟩
      rcases List.mem_cons.mp hz with rfl | hz
      · exact hk
      · exact Nat.lt_trans hk (hj z hz)
    · split
      · rename_i hk
        exact List.pairwise_cons.mpr ⟨fun z hz => hk ▸ hj z hz, hr⟩
      · refine List.pairwise_cons.mpr ⟨fun z hz => ?_, ih hr⟩
        rcases mem_alInsert hz with rfl | hz
        · show j < k; omega
        · exact hj z hz

@[simp] theorem alFind_nil (k : Nat) : alFind k ([] : List (Nat × α)) = none := rfl

theorem alFind_cons (k j : Nat) (y : α) (r : List (Nat × α)) : alFind k ((j, y) :: r) = if j = k then some y else alFind k r := by
  simp only [alFind, eq_comm]

@[simp] theorem alFind_alInsert_same (k : Nat) (x : α) (l : List (Nat × α)) : alFind k (alInsert k x l) = some x := by
  induction l with
  | nil => simp [alInsert, alFind_cons]
  | cons c r ih =>
    obtain ⟨j, y⟩ := c
    unfold alInsert
    split
    · simp [alFind_cons]
    · split
      · simp [alFind_cons]
      · rw [alFind_cons, if_neg (by omega), ih]

@[simp] theorem alFind_alInsert_ne {k a : Nat} (x : α) (l : List (Nat × α)) (h : a ≠ k) : alFind a (alInsert k x l) = alFind a l := by
  induction l with
  | nil => simp [alInsert, alFind_cons, Ne.symm h]
  | cons c r ih =>
    obtain ⟨j, y⟩ := c
    unfold alInsert
    split
    · rw [alFind_cons, if_neg (Ne.symm h)]
    · split
      · rename_i hk
        subst hk
        rw [alFind_cons, alFind_cons, if_neg (Ne.symm h), if_neg (Ne.symm h)]
      · rw [alFind_cons, alFind_cons, ih]

@[simp] theorem alFind_alErase_same (k : Nat) (l : List (Nat × α)) : alFind k (alErase k l) = none := by
  induction l with
  | nil => rfl
  | cons c r ih =>
    obtain ⟨j, y⟩ := c
    by_cases h : j = k
    · rw [show alErase k ((j, y) :: r) = alErase k r by simp [alErase, h], ih]
    · rw [show alErase k ((j, y) :: r) = (j, y) :: alErase k r by simp [alErase, h], alFind_cons, if_neg h, ih]

@[simp] theorem alFind_alErase_ne {k a : Nat} (l : List (Nat × α)) (h : a ≠ k) : alFind a (alErase k l) = alFind a l := by
  induction l with
  | nil => rfl
  | cons c r ih =>
    obtain ⟨j, y⟩ := c
    by_cases hk : j = k
    · rw [show alErase k ((j, y) :: r) = alErase k r by simp [alErase, hk], ih, alFind_cons, if_neg (by omega)]
    · rw [show alErase k ((j, y) :: r) = (j, y) :: alErase k r by simp [alErase, hk], alFind_cons, alFind_cons, ih]

/-! Memory -/

/-- What canonical memory is. -/
theorem Memory.wf_iff (m : Memory) : Memory.wf m = true ↔ alSorted m = true ∧ ∀ c ∈ m, c.2 ≠ memDefault := by
  simp [Memory.wf]

/-- A word written reads back. -/
@[simp] theorem memRead_memWrite_same (m : Memory) (a : Nat) (w : Word) : memRead (memWrite m a w) a = w := by
  unfold memRead memWrite
  split <;> simp_all

/-- No other word changes. -/
@[simp] theorem memRead_memWrite_ne (m : Memory) {a b : Nat} (w : Word) (h : b ≠ a) : memRead (memWrite m a w) b = memRead m b := by
  unfold memRead memWrite
  split <;> simp [h]

/-- A write keeps the canonical form. -/
theorem memWrite_wf {m : Memory} (h : Memory.wf m = true) (a : Nat) (w : Word) : Memory.wf (memWrite m a w) = true := by
  rw [Memory.wf_iff] at *
  unfold memWrite
  split
  · exact ⟨alErase_sorted a h.1, fun c hc => h.2 c (List.mem_of_mem_filter hc)⟩
  · refine ⟨alInsert_sorted a w h.1, fun c hc => ?_⟩
    rcases mem_alInsert hc with rfl | hc
    · assumption
    · exact h.2 c hc

/-- So does a write of a run of words. -/
theorem memWriteN_wf {m : Memory} (h : Memory.wf m = true) (a : Nat) (ws : List Word) : Memory.wf (memWriteN m a ws) = true := by
  induction ws generalizing m a with
  | nil => exact h
  | cons w r ih => exact ih (memWrite_wf h a w) (a + 1)

/-- Memory of which some entries are dropped, as when a domain loses its power, stays canonical. -/
theorem Memory.filter_wf {m : Memory} (h : Memory.wf m = true) (p : Nat × Word → Bool) : Memory.wf (m.filter p) = true := by
  rw [Memory.wf_iff, alSorted_iff] at *
  exact ⟨h.1.filter p, fun c hc => h.2 c (List.mem_of_mem_filter hc)⟩

/-- Outside a run that is written no word changes. -/
theorem memRead_memWriteN_out {m : Memory} {a b : Nat} {ws : List Word} (h : b < a ∨ a + ws.length ≤ b) :
    memRead (memWriteN m a ws) b = memRead m b := by
  induction ws generalizing m a with
  | nil => rfl
  | cons w r ih =>
    rw [List.length_cons] at h
    rw [show memWriteN m a (w :: r) = memWriteN (memWrite m a w) (a + 1) r from rfl, ih (by omega), memRead_memWrite_ne _ _ (by omega)]

/-- Word i of a run that is written reads back. -/
theorem memRead_memWriteN_in {m : Memory} {a i : Nat} {ws : List Word} (h : i < ws.length) : memRead (memWriteN m a ws) (a + i) = ws[i] := by
  induction ws generalizing m a i with
  | nil => simp at h
  | cons w r ih =>
    cases i with
    | zero => rw [show memWriteN m a (w :: r) = memWriteN (memWrite m a w) (a + 1) r from rfl, memRead_memWriteN_out (by omega)]; simp
    | succ n =>
      rw [show memWriteN m a (w :: r) = memWriteN (memWrite m a w) (a + 1) r from rfl, show a + (n + 1) = a + 1 + n by omega,
        ih (by simpa using h)]
      rfl

/-- Memory at reset is canonical. -/
theorem State.reset_mem_wf : Memory.wf State.reset.mem = true := rfl

end Sys2Proof.Machine
end

