-- ==== Sys2Proof/Laws/State.lean ====
section
/-!
SUPPORT. What each update of one part of the state leaves: one lemma per field and update.
-/
namespace Sys2Proof.Machine
variable (s : State)

@[simp] theorem State.onTime_pending (f : TimeState → TimeState) : (s.onTime f).pending = s.pending := rfl
@[simp] theorem State.onTime_free (f : TimeState → TimeState) : (s.onTime f).free = s.free := rfl
@[simp] theorem State.onTime_fab (f : TimeState → TimeState) : (s.onTime f).fab = s.fab := rfl
@[simp] theorem State.onTime_mem (f : TimeState → TimeState) : (s.onTime f).mem = s.mem := rfl
@[simp] theorem State.onTime_srv (f : TimeState → TimeState) : (s.onTime f).srv = s.srv := rfl
@[simp] theorem State.onTime_adm (f : TimeState → TimeState) : (s.onTime f).adm = s.adm := rfl
@[simp] theorem State.onTime_sup (f : TimeState → TimeState) : (s.onTime f).sup = s.sup := rfl
@[simp] theorem State.onTime_flt (f : TimeState → TimeState) : (s.onTime f).flt = s.flt := rfl
@[simp] theorem State.onTime_hs (f : TimeState → TimeState) : (s.onTime f).hs = s.hs := rfl
@[simp] theorem State.onTime_th (f : TimeState → TimeState) : (s.onTime f).th = s.th := rfl
@[simp] theorem State.onTime_legs (f : TimeState → TimeState) : (s.onTime f).legs = s.legs := rfl
@[simp] theorem State.onTime_pairs (f : TimeState → TimeState) : (s.onTime f).pairs = s.pairs := rfl
@[simp] theorem State.onTime_sout (f : TimeState → TimeState) : (s.onTime f).sout = s.sout := rfl
@[simp] theorem State.onTime_vd (f : TimeState → TimeState) : (s.onTime f).vd = s.vd := rfl
@[simp] theorem State.onTime_vb (f : TimeState → TimeState) : (s.onTime f).vb = s.vb := rfl
@[simp] theorem State.onTime_boost (f : TimeState → TimeState) : (s.onTime f).boost = s.boost := rfl
@[simp] theorem State.onTime_sinks (f : TimeState → TimeState) : (s.onTime f).sinks = s.sinks := rfl
@[simp] theorem State.onTime_chain (f : TimeState → TimeState) : (s.onTime f).chain = s.chain := rfl
@[simp] theorem State.onTime_matrix (f : TimeState → TimeState) : (s.onTime f).matrix = s.matrix := rfl
@[simp] theorem State.onTime_inputs (f : TimeState → TimeState) : (s.onTime f).inputs = s.inputs := rfl
@[simp] theorem State.onTime_inLoss (f : TimeState → TimeState) : (s.onTime f).inLoss = s.inLoss := rfl
@[simp] theorem State.onTime_ios (f : TimeState → TimeState) : (s.onTime f).ios = s.ios := rfl
@[simp] theorem State.onTime_ans (f : TimeState → TimeState) : (s.onTime f).ans = s.ans := rfl
@[simp] theorem State.onTime_adc (f : TimeState → TimeState) : (s.onTime f).adc = s.adc := rfl
@[simp] theorem State.onTime_vq (f : TimeState → TimeState) : (s.onTime f).vq = s.vq := rfl
@[simp] theorem State.onTime_eng (f : TimeState → TimeState) : (s.onTime f).eng = s.eng := rfl
@[simp] theorem State.onTime_cans (f : TimeState → TimeState) : (s.onTime f).cans = s.cans := rfl
@[simp] theorem State.onTime_lins (f : TimeState → TimeState) : (s.onTime f).lins = s.lins := rfl
@[simp] theorem State.onTime_lq (f : TimeState → TimeState) : (s.onTime f).lq = s.lq := rfl
@[simp] theorem State.onTime_inq (f : TimeState → TimeState) : (s.onTime f).inq = s.inq := rfl
@[simp] theorem State.onTime_seqs (f : TimeState → TimeState) : (s.onTime f).seqs = s.seqs := rfl
@[simp] theorem State.onTime_dom (f : TimeState → TimeState) : (s.onTime f).dom = s.dom := rfl
@[simp] theorem State.onTime_log (f : TimeState → TimeState) : (s.onTime f).log = s.log := rfl
@[simp] theorem State.onTime_cores (f : TimeState → TimeState) : (s.onTime f).cores = s.cores := rfl
@[simp] theorem State.onTime_eth (f : TimeState → TimeState) : (s.onTime f).eth = s.eth := rfl
@[simp] theorem State.onTime_ring (f : TimeState → TimeState) : (s.onTime f).ring = s.ring := rfl
@[simp] theorem State.onTime_duo (f : TimeState → TimeState) : (s.onTime f).duo = s.duo := rfl
@[simp] theorem State.onTime_pwr (f : TimeState → TimeState) : (s.onTime f).pwr = s.pwr := rfl
@[simp] theorem State.onTime_rst (f : TimeState → TimeState) : (s.onTime f).rst = s.rst := rfl
@[simp] theorem State.onTime_acs (f : TimeState → TimeState) : (s.onTime f).acs = s.acs := rfl
@[simp] theorem State.onTime_upd (f : TimeState → TimeState) : (s.onTime f).upd = s.upd := rfl
@[simp] theorem State.onTime_dbg (f : TimeState → TimeState) : (s.onTime f).dbg = s.dbg := rfl

@[simp] theorem State.onFab_pending (f : Fabric → Fabric) : (s.onFab f).pending = s.pending := rfl
@[simp] theorem State.onFab_free (f : Fabric → Fabric) : (s.onFab f).free = s.free := rfl
@[simp] theorem State.onFab_time (f : Fabric → Fabric) : (s.onFab f).time = s.time := rfl
@[simp] theorem State.onFab_mem (f : Fabric → Fabric) : (s.onFab f).mem = s.mem := rfl
@[simp] theorem State.onFab_srv (f : Fabric → Fabric) : (s.onFab f).srv = s.srv := rfl
@[simp] theorem State.onFab_adm (f : Fabric → Fabric) : (s.onFab f).adm = s.adm := rfl
@[simp] theorem State.onFab_sup (f : Fabric → Fabric) : (s.onFab f).sup = s.sup := rfl
@[simp] theorem State.onFab_flt (f : Fabric → Fabric) : (s.onFab f).flt = s.flt := rfl
@[simp] theorem State.onFab_hs (f : Fabric → Fabric) : (s.onFab f).hs = s.hs := rfl
@[simp] theorem State.onFab_th (f : Fabric → Fabric) : (s.onFab f).th = s.th := rfl
@[simp] theorem State.onFab_legs (f : Fabric → Fabric) : (s.onFab f).legs = s.legs := rfl
@[simp] theorem State.onFab_pairs (f : Fabric → Fabric) : (s.onFab f).pairs = s.pairs := rfl
@[simp] theorem State.onFab_sout (f : Fabric → Fabric) : (s.onFab f).sout = s.sout := rfl
@[simp] theorem State.onFab_vd (f : Fabric → Fabric) : (s.onFab f).vd = s.vd := rfl
@[simp] theorem State.onFab_vb (f : Fabric → Fabric) : (s.onFab f).vb = s.vb := rfl
@[simp] theorem State.onFab_boost (f : Fabric → Fabric) : (s.onFab f).boost = s.boost := rfl
@[simp] theorem State.onFab_sinks (f : Fabric → Fabric) : (s.onFab f).sinks = s.sinks := rfl
@[simp] theorem State.onFab_chain (f : Fabric → Fabric) : (s.onFab f).chain = s.chain := rfl
@[simp] theorem State.onFab_matrix (f : Fabric → Fabric) : (s.onFab f).matrix = s.matrix := rfl
@[simp] theorem State.onFab_inputs (f : Fabric → Fabric) : (s.onFab f).inputs = s.inputs := rfl
@[simp] theorem State.onFab_inLoss (f : Fabric → Fabric) : (s.onFab f).inLoss = s.inLoss := rfl
@[simp] theorem State.onFab_ios (f : Fabric → Fabric) : (s.onFab f).ios = s.ios := rfl
@[simp] theorem State.onFab_ans (f : Fabric → Fabric) : (s.onFab f).ans = s.ans := rfl
@[simp] theorem State.onFab_adc (f : Fabric → Fabric) : (s.onFab f).adc = s.adc := rfl
@[simp] theorem State.onFab_vq (f : Fabric → Fabric) : (s.onFab f).vq = s.vq := rfl
@[simp] theorem State.onFab_eng (f : Fabric → Fabric) : (s.onFab f).eng = s.eng := rfl
@[simp] theorem State.onFab_cans (f : Fabric → Fabric) : (s.onFab f).cans = s.cans := rfl
@[simp] theorem State.onFab_lins (f : Fabric → Fabric) : (s.onFab f).lins = s.lins := rfl
@[simp] theorem State.onFab_lq (f : Fabric → Fabric) : (s.onFab f).lq = s.lq := rfl
@[simp] theorem State.onFab_inq (f : Fabric → Fabric) : (s.onFab f).inq = s.inq := rfl
@[simp] theorem State.onFab_seqs (f : Fabric → Fabric) : (s.onFab f).seqs = s.seqs := rfl
@[simp] theorem State.onFab_dom (f : Fabric → Fabric) : (s.onFab f).dom = s.dom := rfl
@[simp] theorem State.onFab_log (f : Fabric → Fabric) : (s.onFab f).log = s.log := rfl
@[simp] theorem State.onFab_cores (f : Fabric → Fabric) : (s.onFab f).cores = s.cores := rfl
@[simp] theorem State.onFab_eth (f : Fabric → Fabric) : (s.onFab f).eth = s.eth := rfl
@[simp] theorem State.onFab_ring (f : Fabric → Fabric) : (s.onFab f).ring = s.ring := rfl
@[simp] theorem State.onFab_duo (f : Fabric → Fabric) : (s.onFab f).duo = s.duo := rfl
@[simp] theorem State.onFab_pwr (f : Fabric → Fabric) : (s.onFab f).pwr = s.pwr := rfl
@[simp] theorem State.onFab_rst (f : Fabric → Fabric) : (s.onFab f).rst = s.rst := rfl
@[simp] theorem State.onFab_acs (f : Fabric → Fabric) : (s.onFab f).acs = s.acs := rfl
@[simp] theorem State.onFab_upd (f : Fabric → Fabric) : (s.onFab f).upd = s.upd := rfl
@[simp] theorem State.onFab_dbg (f : Fabric → Fabric) : (s.onFab f).dbg = s.dbg := rfl

@[simp] theorem State.onMem_pending (f : Memory → Memory) : (s.onMem f).pending = s.pending := rfl
@[simp] theorem State.onMem_free (f : Memory → Memory) : (s.onMem f).free = s.free := rfl
@[simp] theorem State.onMem_time (f : Memory → Memory) : (s.onMem f).time = s.time := rfl
@[simp] theorem State.onMem_fab (f : Memory → Memory) : (s.onMem f).fab = s.fab := rfl
@[simp] theorem State.onMem_srv (f : Memory → Memory) : (s.onMem f).srv = s.srv := rfl
@[simp] theorem State.onMem_adm (f : Memory → Memory) : (s.onMem f).adm = s.adm := rfl
@[simp] theorem State.onMem_sup (f : Memory → Memory) : (s.onMem f).sup = s.sup := rfl
@[simp] theorem State.onMem_flt (f : Memory → Memory) : (s.onMem f).flt = s.flt := rfl
@[simp] theorem State.onMem_hs (f : Memory → Memory) : (s.onMem f).hs = s.hs := rfl
@[simp] theorem State.onMem_th (f : Memory → Memory) : (s.onMem f).th = s.th := rfl
@[simp] theorem State.onMem_legs (f : Memory → Memory) : (s.onMem f).legs = s.legs := rfl
@[simp] theorem State.onMem_pairs (f : Memory → Memory) : (s.onMem f).pairs = s.pairs := rfl
@[simp] theorem State.onMem_sout (f : Memory → Memory) : (s.onMem f).sout = s.sout := rfl
@[simp] theorem State.onMem_vd (f : Memory → Memory) : (s.onMem f).vd = s.vd := rfl
@[simp] theorem State.onMem_vb (f : Memory → Memory) : (s.onMem f).vb = s.vb := rfl
@[simp] theorem State.onMem_boost (f : Memory → Memory) : (s.onMem f).boost = s.boost := rfl
@[simp] theorem State.onMem_sinks (f : Memory → Memory) : (s.onMem f).sinks = s.sinks := rfl
@[simp] theorem State.onMem_chain (f : Memory → Memory) : (s.onMem f).chain = s.chain := rfl
@[simp] theorem State.onMem_matrix (f : Memory → Memory) : (s.onMem f).matrix = s.matrix := rfl
@[simp] theorem State.onMem_inputs (f : Memory → Memory) : (s.onMem f).inputs = s.inputs := rfl
@[simp] theorem State.onMem_inLoss (f : Memory → Memory) : (s.onMem f).inLoss = s.inLoss := rfl
@[simp] theorem State.onMem_ios (f : Memory → Memory) : (s.onMem f).ios = s.ios := rfl
@[simp] theorem State.onMem_ans (f : Memory → Memory) : (s.onMem f).ans = s.ans := rfl
@[simp] theorem State.onMem_adc (f : Memory → Memory) : (s.onMem f).adc = s.adc := rfl
@[simp] theorem State.onMem_vq (f : Memory → Memory) : (s.onMem f).vq = s.vq := rfl
@[simp] theorem State.onMem_eng (f : Memory → Memory) : (s.onMem f).eng = s.eng := rfl
@[simp] theorem State.onMem_cans (f : Memory → Memory) : (s.onMem f).cans = s.cans := rfl
@[simp] theorem State.onMem_lins (f : Memory → Memory) : (s.onMem f).lins = s.lins := rfl
@[simp] theorem State.onMem_lq (f : Memory → Memory) : (s.onMem f).lq = s.lq := rfl
@[simp] theorem State.onMem_inq (f : Memory → Memory) : (s.onMem f).inq = s.inq := rfl
@[simp] theorem State.onMem_seqs (f : Memory → Memory) : (s.onMem f).seqs = s.seqs := rfl
@[simp] theorem State.onMem_dom (f : Memory → Memory) : (s.onMem f).dom = s.dom := rfl
@[simp] theorem State.onMem_log (f : Memory → Memory) : (s.onMem f).log = s.log := rfl
@[simp] theorem State.onMem_cores (f : Memory → Memory) : (s.onMem f).cores = s.cores := rfl
@[simp] theorem State.onMem_eth (f : Memory → Memory) : (s.onMem f).eth = s.eth := rfl
@[simp] theorem State.onMem_ring (f : Memory → Memory) : (s.onMem f).ring = s.ring := rfl
@[simp] theorem State.onMem_duo (f : Memory → Memory) : (s.onMem f).duo = s.duo := rfl
@[simp] theorem State.onMem_pwr (f : Memory → Memory) : (s.onMem f).pwr = s.pwr := rfl
@[simp] theorem State.onMem_rst (f : Memory → Memory) : (s.onMem f).rst = s.rst := rfl
@[simp] theorem State.onMem_acs (f : Memory → Memory) : (s.onMem f).acs = s.acs := rfl
@[simp] theorem State.onMem_upd (f : Memory → Memory) : (s.onMem f).upd = s.upd := rfl
@[simp] theorem State.onMem_dbg (f : Memory → Memory) : (s.onMem f).dbg = s.dbg := rfl

@[simp] theorem State.onSrv_pending (f : Server → Server) : (s.onSrv f).pending = s.pending := rfl
@[simp] theorem State.onSrv_free (f : Server → Server) : (s.onSrv f).free = s.free := rfl
@[simp] theorem State.onSrv_time (f : Server → Server) : (s.onSrv f).time = s.time := rfl
@[simp] theorem State.onSrv_fab (f : Server → Server) : (s.onSrv f).fab = s.fab := rfl
@[simp] theorem State.onSrv_mem (f : Server → Server) : (s.onSrv f).mem = s.mem := rfl
@[simp] theorem State.onSrv_adm (f : Server → Server) : (s.onSrv f).adm = s.adm := rfl
@[simp] theorem State.onSrv_sup (f : Server → Server) : (s.onSrv f).sup = s.sup := rfl
@[simp] theorem State.onSrv_flt (f : Server → Server) : (s.onSrv f).flt = s.flt := rfl
@[simp] theorem State.onSrv_hs (f : Server → Server) : (s.onSrv f).hs = s.hs := rfl
@[simp] theorem State.onSrv_th (f : Server → Server) : (s.onSrv f).th = s.th := rfl
@[simp] theorem State.onSrv_legs (f : Server → Server) : (s.onSrv f).legs = s.legs := rfl
@[simp] theorem State.onSrv_pairs (f : Server → Server) : (s.onSrv f).pairs = s.pairs := rfl
@[simp] theorem State.onSrv_sout (f : Server → Server) : (s.onSrv f).sout = s.sout := rfl
@[simp] theorem State.onSrv_vd (f : Server → Server) : (s.onSrv f).vd = s.vd := rfl
@[simp] theorem State.onSrv_vb (f : Server → Server) : (s.onSrv f).vb = s.vb := rfl
@[simp] theorem State.onSrv_boost (f : Server → Server) : (s.onSrv f).boost = s.boost := rfl
@[simp] theorem State.onSrv_sinks (f : Server → Server) : (s.onSrv f).sinks = s.sinks := rfl
@[simp] theorem State.onSrv_chain (f : Server → Server) : (s.onSrv f).chain = s.chain := rfl
@[simp] theorem State.onSrv_matrix (f : Server → Server) : (s.onSrv f).matrix = s.matrix := rfl
@[simp] theorem State.onSrv_inputs (f : Server → Server) : (s.onSrv f).inputs = s.inputs := rfl
@[simp] theorem State.onSrv_inLoss (f : Server → Server) : (s.onSrv f).inLoss = s.inLoss := rfl
@[simp] theorem State.onSrv_ios (f : Server → Server) : (s.onSrv f).ios = s.ios := rfl
@[simp] theorem State.onSrv_ans (f : Server → Server) : (s.onSrv f).ans = s.ans := rfl
@[simp] theorem State.onSrv_adc (f : Server → Server) : (s.onSrv f).adc = s.adc := rfl
@[simp] theorem State.onSrv_vq (f : Server → Server) : (s.onSrv f).vq = s.vq := rfl
@[simp] theorem State.onSrv_eng (f : Server → Server) : (s.onSrv f).eng = s.eng := rfl
@[simp] theorem State.onSrv_cans (f : Server → Server) : (s.onSrv f).cans = s.cans := rfl
@[simp] theorem State.onSrv_lins (f : Server → Server) : (s.onSrv f).lins = s.lins := rfl
@[simp] theorem State.onSrv_lq (f : Server → Server) : (s.onSrv f).lq = s.lq := rfl
@[simp] theorem State.onSrv_inq (f : Server → Server) : (s.onSrv f).inq = s.inq := rfl
@[simp] theorem State.onSrv_seqs (f : Server → Server) : (s.onSrv f).seqs = s.seqs := rfl
@[simp] theorem State.onSrv_dom (f : Server → Server) : (s.onSrv f).dom = s.dom := rfl
@[simp] theorem State.onSrv_log (f : Server → Server) : (s.onSrv f).log = s.log := rfl
@[simp] theorem State.onSrv_cores (f : Server → Server) : (s.onSrv f).cores = s.cores := rfl
@[simp] theorem State.onSrv_eth (f : Server → Server) : (s.onSrv f).eth = s.eth := rfl
@[simp] theorem State.onSrv_ring (f : Server → Server) : (s.onSrv f).ring = s.ring := rfl
@[simp] theorem State.onSrv_duo (f : Server → Server) : (s.onSrv f).duo = s.duo := rfl
@[simp] theorem State.onSrv_pwr (f : Server → Server) : (s.onSrv f).pwr = s.pwr := rfl
@[simp] theorem State.onSrv_rst (f : Server → Server) : (s.onSrv f).rst = s.rst := rfl
@[simp] theorem State.onSrv_acs (f : Server → Server) : (s.onSrv f).acs = s.acs := rfl
@[simp] theorem State.onSrv_upd (f : Server → Server) : (s.onSrv f).upd = s.upd := rfl
@[simp] theorem State.onSrv_dbg (f : Server → Server) : (s.onSrv f).dbg = s.dbg := rfl

@[simp] theorem State.onAdm_pending (f : Admission → Admission) : (s.onAdm f).pending = s.pending := rfl
@[simp] theorem State.onAdm_free (f : Admission → Admission) : (s.onAdm f).free = s.free := rfl
@[simp] theorem State.onAdm_time (f : Admission → Admission) : (s.onAdm f).time = s.time := rfl
@[simp] theorem State.onAdm_fab (f : Admission → Admission) : (s.onAdm f).fab = s.fab := rfl
@[simp] theorem State.onAdm_mem (f : Admission → Admission) : (s.onAdm f).mem = s.mem := rfl
@[simp] theorem State.onAdm_srv (f : Admission → Admission) : (s.onAdm f).srv = s.srv := rfl
@[simp] theorem State.onAdm_sup (f : Admission → Admission) : (s.onAdm f).sup = s.sup := rfl
@[simp] theorem State.onAdm_flt (f : Admission → Admission) : (s.onAdm f).flt = s.flt := rfl
@[simp] theorem State.onAdm_hs (f : Admission → Admission) : (s.onAdm f).hs = s.hs := rfl
@[simp] theorem State.onAdm_th (f : Admission → Admission) : (s.onAdm f).th = s.th := rfl
@[simp] theorem State.onAdm_legs (f : Admission → Admission) : (s.onAdm f).legs = s.legs := rfl
@[simp] theorem State.onAdm_pairs (f : Admission → Admission) : (s.onAdm f).pairs = s.pairs := rfl
@[simp] theorem State.onAdm_sout (f : Admission → Admission) : (s.onAdm f).sout = s.sout := rfl
@[simp] theorem State.onAdm_vd (f : Admission → Admission) : (s.onAdm f).vd = s.vd := rfl
@[simp] theorem State.onAdm_vb (f : Admission → Admission) : (s.onAdm f).vb = s.vb := rfl
@[simp] theorem State.onAdm_boost (f : Admission → Admission) : (s.onAdm f).boost = s.boost := rfl
@[simp] theorem State.onAdm_sinks (f : Admission → Admission) : (s.onAdm f).sinks = s.sinks := rfl
@[simp] theorem State.onAdm_chain (f : Admission → Admission) : (s.onAdm f).chain = s.chain := rfl
@[simp] theorem State.onAdm_matrix (f : Admission → Admission) : (s.onAdm f).matrix = s.matrix := rfl
@[simp] theorem State.onAdm_inputs (f : Admission → Admission) : (s.onAdm f).inputs = s.inputs := rfl
@[simp] theorem State.onAdm_inLoss (f : Admission → Admission) : (s.onAdm f).inLoss = s.inLoss := rfl
@[simp] theorem State.onAdm_ios (f : Admission → Admission) : (s.onAdm f).ios = s.ios := rfl
@[simp] theorem State.onAdm_ans (f : Admission → Admission) : (s.onAdm f).ans = s.ans := rfl
@[simp] theorem State.onAdm_adc (f : Admission → Admission) : (s.onAdm f).adc = s.adc := rfl
@[simp] theorem State.onAdm_vq (f : Admission → Admission) : (s.onAdm f).vq = s.vq := rfl
@[simp] theorem State.onAdm_eng (f : Admission → Admission) : (s.onAdm f).eng = s.eng := rfl
@[simp] theorem State.onAdm_cans (f : Admission → Admission) : (s.onAdm f).cans = s.cans := rfl
@[simp] theorem State.onAdm_lins (f : Admission → Admission) : (s.onAdm f).lins = s.lins := rfl
@[simp] theorem State.onAdm_lq (f : Admission → Admission) : (s.onAdm f).lq = s.lq := rfl
@[simp] theorem State.onAdm_inq (f : Admission → Admission) : (s.onAdm f).inq = s.inq := rfl
@[simp] theorem State.onAdm_seqs (f : Admission → Admission) : (s.onAdm f).seqs = s.seqs := rfl
@[simp] theorem State.onAdm_dom (f : Admission → Admission) : (s.onAdm f).dom = s.dom := rfl
@[simp] theorem State.onAdm_log (f : Admission → Admission) : (s.onAdm f).log = s.log := rfl
@[simp] theorem State.onAdm_cores (f : Admission → Admission) : (s.onAdm f).cores = s.cores := rfl
@[simp] theorem State.onAdm_eth (f : Admission → Admission) : (s.onAdm f).eth = s.eth := rfl
@[simp] theorem State.onAdm_ring (f : Admission → Admission) : (s.onAdm f).ring = s.ring := rfl
@[simp] theorem State.onAdm_duo (f : Admission → Admission) : (s.onAdm f).duo = s.duo := rfl
@[simp] theorem State.onAdm_pwr (f : Admission → Admission) : (s.onAdm f).pwr = s.pwr := rfl
@[simp] theorem State.onAdm_rst (f : Admission → Admission) : (s.onAdm f).rst = s.rst := rfl
@[simp] theorem State.onAdm_acs (f : Admission → Admission) : (s.onAdm f).acs = s.acs := rfl
@[simp] theorem State.onAdm_upd (f : Admission → Admission) : (s.onAdm f).upd = s.upd := rfl
@[simp] theorem State.onAdm_dbg (f : Admission → Admission) : (s.onAdm f).dbg = s.dbg := rfl

@[simp] theorem State.onSup_pending (f : Supply → Supply) : (s.onSup f).pending = s.pending := rfl
@[simp] theorem State.onSup_free (f : Supply → Supply) : (s.onSup f).free = s.free := rfl
@[simp] theorem State.onSup_time (f : Supply → Supply) : (s.onSup f).time = s.time := rfl
@[simp] theorem State.onSup_fab (f : Supply → Supply) : (s.onSup f).fab = s.fab := rfl
@[simp] theorem State.onSup_mem (f : Supply → Supply) : (s.onSup f).mem = s.mem := rfl
@[simp] theorem State.onSup_srv (f : Supply → Supply) : (s.onSup f).srv = s.srv := rfl
@[simp] theorem State.onSup_adm (f : Supply → Supply) : (s.onSup f).adm = s.adm := rfl
@[simp] theorem State.onSup_flt (f : Supply → Supply) : (s.onSup f).flt = s.flt := rfl
@[simp] theorem State.onSup_hs (f : Supply → Supply) : (s.onSup f).hs = s.hs := rfl
@[simp] theorem State.onSup_th (f : Supply → Supply) : (s.onSup f).th = s.th := rfl
@[simp] theorem State.onSup_legs (f : Supply → Supply) : (s.onSup f).legs = s.legs := rfl
@[simp] theorem State.onSup_pairs (f : Supply → Supply) : (s.onSup f).pairs = s.pairs := rfl
@[simp] theorem State.onSup_sout (f : Supply → Supply) : (s.onSup f).sout = s.sout := rfl
@[simp] theorem State.onSup_vd (f : Supply → Supply) : (s.onSup f).vd = s.vd := rfl
@[simp] theorem State.onSup_vb (f : Supply → Supply) : (s.onSup f).vb = s.vb := rfl
@[simp] theorem State.onSup_boost (f : Supply → Supply) : (s.onSup f).boost = s.boost := rfl
@[simp] theorem State.onSup_sinks (f : Supply → Supply) : (s.onSup f).sinks = s.sinks := rfl
@[simp] theorem State.onSup_chain (f : Supply → Supply) : (s.onSup f).chain = s.chain := rfl
@[simp] theorem State.onSup_matrix (f : Supply → Supply) : (s.onSup f).matrix = s.matrix := rfl
@[simp] theorem State.onSup_inputs (f : Supply → Supply) : (s.onSup f).inputs = s.inputs := rfl
@[simp] theorem State.onSup_inLoss (f : Supply → Supply) : (s.onSup f).inLoss = s.inLoss := rfl
@[simp] theorem State.onSup_ios (f : Supply → Supply) : (s.onSup f).ios = s.ios := rfl
@[simp] theorem State.onSup_ans (f : Supply → Supply) : (s.onSup f).ans = s.ans := rfl
@[simp] theorem State.onSup_adc (f : Supply → Supply) : (s.onSup f).adc = s.adc := rfl
@[simp] theorem State.onSup_vq (f : Supply → Supply) : (s.onSup f).vq = s.vq := rfl
@[simp] theorem State.onSup_eng (f : Supply → Supply) : (s.onSup f).eng = s.eng := rfl
@[simp] theorem State.onSup_cans (f : Supply → Supply) : (s.onSup f).cans = s.cans := rfl
@[simp] theorem State.onSup_lins (f : Supply → Supply) : (s.onSup f).lins = s.lins := rfl
@[simp] theorem State.onSup_lq (f : Supply → Supply) : (s.onSup f).lq = s.lq := rfl
@[simp] theorem State.onSup_inq (f : Supply → Supply) : (s.onSup f).inq = s.inq := rfl
@[simp] theorem State.onSup_seqs (f : Supply → Supply) : (s.onSup f).seqs = s.seqs := rfl
@[simp] theorem State.onSup_dom (f : Supply → Supply) : (s.onSup f).dom = s.dom := rfl
@[simp] theorem State.onSup_log (f : Supply → Supply) : (s.onSup f).log = s.log := rfl
@[simp] theorem State.onSup_cores (f : Supply → Supply) : (s.onSup f).cores = s.cores := rfl
@[simp] theorem State.onSup_eth (f : Supply → Supply) : (s.onSup f).eth = s.eth := rfl
@[simp] theorem State.onSup_ring (f : Supply → Supply) : (s.onSup f).ring = s.ring := rfl
@[simp] theorem State.onSup_duo (f : Supply → Supply) : (s.onSup f).duo = s.duo := rfl
@[simp] theorem State.onSup_pwr (f : Supply → Supply) : (s.onSup f).pwr = s.pwr := rfl
@[simp] theorem State.onSup_rst (f : Supply → Supply) : (s.onSup f).rst = s.rst := rfl
@[simp] theorem State.onSup_acs (f : Supply → Supply) : (s.onSup f).acs = s.acs := rfl
@[simp] theorem State.onSup_upd (f : Supply → Supply) : (s.onSup f).upd = s.upd := rfl
@[simp] theorem State.onSup_dbg (f : Supply → Supply) : (s.onSup f).dbg = s.dbg := rfl

@[simp] theorem State.onFlt_pending (f : FaultState → FaultState) : (s.onFlt f).pending = s.pending := rfl
@[simp] theorem State.onFlt_free (f : FaultState → FaultState) : (s.onFlt f).free = s.free := rfl
@[simp] theorem State.onFlt_time (f : FaultState → FaultState) : (s.onFlt f).time = s.time := rfl
@[simp] theorem State.onFlt_fab (f : FaultState → FaultState) : (s.onFlt f).fab = s.fab := rfl
@[simp] theorem State.onFlt_mem (f : FaultState → FaultState) : (s.onFlt f).mem = s.mem := rfl
@[simp] theorem State.onFlt_srv (f : FaultState → FaultState) : (s.onFlt f).srv = s.srv := rfl
@[simp] theorem State.onFlt_adm (f : FaultState → FaultState) : (s.onFlt f).adm = s.adm := rfl
@[simp] theorem State.onFlt_sup (f : FaultState → FaultState) : (s.onFlt f).sup = s.sup := rfl
@[simp] theorem State.onFlt_hs (f : FaultState → FaultState) : (s.onFlt f).hs = s.hs := rfl
@[simp] theorem State.onFlt_th (f : FaultState → FaultState) : (s.onFlt f).th = s.th := rfl
@[simp] theorem State.onFlt_legs (f : FaultState → FaultState) : (s.onFlt f).legs = s.legs := rfl
@[simp] theorem State.onFlt_pairs (f : FaultState → FaultState) : (s.onFlt f).pairs = s.pairs := rfl
@[simp] theorem State.onFlt_sout (f : FaultState → FaultState) : (s.onFlt f).sout = s.sout := rfl
@[simp] theorem State.onFlt_vd (f : FaultState → FaultState) : (s.onFlt f).vd = s.vd := rfl
@[simp] theorem State.onFlt_vb (f : FaultState → FaultState) : (s.onFlt f).vb = s.vb := rfl
@[simp] theorem State.onFlt_boost (f : FaultState → FaultState) : (s.onFlt f).boost = s.boost := rfl
@[simp] theorem State.onFlt_sinks (f : FaultState → FaultState) : (s.onFlt f).sinks = s.sinks := rfl
@[simp] theorem State.onFlt_chain (f : FaultState → FaultState) : (s.onFlt f).chain = s.chain := rfl
@[simp] theorem State.onFlt_matrix (f : FaultState → FaultState) : (s.onFlt f).matrix = s.matrix := rfl
@[simp] theorem State.onFlt_inputs (f : FaultState → FaultState) : (s.onFlt f).inputs = s.inputs := rfl
@[simp] theorem State.onFlt_inLoss (f : FaultState → FaultState) : (s.onFlt f).inLoss = s.inLoss := rfl
@[simp] theorem State.onFlt_ios (f : FaultState → FaultState) : (s.onFlt f).ios = s.ios := rfl
@[simp] theorem State.onFlt_ans (f : FaultState → FaultState) : (s.onFlt f).ans = s.ans := rfl
@[simp] theorem State.onFlt_adc (f : FaultState → FaultState) : (s.onFlt f).adc = s.adc := rfl
@[simp] theorem State.onFlt_vq (f : FaultState → FaultState) : (s.onFlt f).vq = s.vq := rfl
@[simp] theorem State.onFlt_eng (f : FaultState → FaultState) : (s.onFlt f).eng = s.eng := rfl
@[simp] theorem State.onFlt_cans (f : FaultState → FaultState) : (s.onFlt f).cans = s.cans := rfl
@[simp] theorem State.onFlt_lins (f : FaultState → FaultState) : (s.onFlt f).lins = s.lins := rfl
@[simp] theorem State.onFlt_lq (f : FaultState → FaultState) : (s.onFlt f).lq = s.lq := rfl
@[simp] theorem State.onFlt_inq (f : FaultState → FaultState) : (s.onFlt f).inq = s.inq := rfl
@[simp] theorem State.onFlt_seqs (f : FaultState → FaultState) : (s.onFlt f).seqs = s.seqs := rfl
@[simp] theorem State.onFlt_dom (f : FaultState → FaultState) : (s.onFlt f).dom = s.dom := rfl
@[simp] theorem State.onFlt_log (f : FaultState → FaultState) : (s.onFlt f).log = s.log := rfl
@[simp] theorem State.onFlt_cores (f : FaultState → FaultState) : (s.onFlt f).cores = s.cores := rfl
@[simp] theorem State.onFlt_eth (f : FaultState → FaultState) : (s.onFlt f).eth = s.eth := rfl
@[simp] theorem State.onFlt_ring (f : FaultState → FaultState) : (s.onFlt f).ring = s.ring := rfl
@[simp] theorem State.onFlt_duo (f : FaultState → FaultState) : (s.onFlt f).duo = s.duo := rfl
@[simp] theorem State.onFlt_pwr (f : FaultState → FaultState) : (s.onFlt f).pwr = s.pwr := rfl
@[simp] theorem State.onFlt_rst (f : FaultState → FaultState) : (s.onFlt f).rst = s.rst := rfl
@[simp] theorem State.onFlt_acs (f : FaultState → FaultState) : (s.onFlt f).acs = s.acs := rfl
@[simp] theorem State.onFlt_upd (f : FaultState → FaultState) : (s.onFlt f).upd = s.upd := rfl
@[simp] theorem State.onFlt_dbg (f : FaultState → FaultState) : (s.onFlt f).dbg = s.dbg := rfl

@[simp] theorem State.onPair_pending (k : Fin 8) (f : Pair → Pair) : (s.onPair k f).pending = s.pending := rfl
@[simp] theorem State.onPair_free (k : Fin 8) (f : Pair → Pair) : (s.onPair k f).free = s.free := rfl
@[simp] theorem State.onPair_time (k : Fin 8) (f : Pair → Pair) : (s.onPair k f).time = s.time := rfl
@[simp] theorem State.onPair_fab (k : Fin 8) (f : Pair → Pair) : (s.onPair k f).fab = s.fab := rfl
@[simp] theorem State.onPair_mem (k : Fin 8) (f : Pair → Pair) : (s.onPair k f).mem = s.mem := rfl
@[simp] theorem State.onPair_srv (k : Fin 8) (f : Pair → Pair) : (s.onPair k f).srv = s.srv := rfl
@[simp] theorem State.onPair_adm (k : Fin 8) (f : Pair → Pair) : (s.onPair k f).adm = s.adm := rfl
@[simp] theorem State.onPair_sup (k : Fin 8) (f : Pair → Pair) : (s.onPair k f).sup = s.sup := rfl
@[simp] theorem State.onPair_flt (k : Fin 8) (f : Pair → Pair) : (s.onPair k f).flt = s.flt := rfl
@[simp] theorem State.onPair_hs (k : Fin 8) (f : Pair → Pair) : (s.onPair k f).hs = s.hs := rfl
@[simp] theorem State.onPair_th (k : Fin 8) (f : Pair → Pair) : (s.onPair k f).th = s.th := rfl
@[simp] theorem State.onPair_legs (k : Fin 8) (f : Pair → Pair) : (s.onPair k f).legs = s.legs := rfl
@[simp] theorem State.onPair_sout (k : Fin 8) (f : Pair → Pair) : (s.onPair k f).sout = s.sout := rfl
@[simp] theorem State.onPair_vd (k : Fin 8) (f : Pair → Pair) : (s.onPair k f).vd = s.vd := rfl
@[simp] theorem State.onPair_vb (k : Fin 8) (f : Pair → Pair) : (s.onPair k f).vb = s.vb := rfl
@[simp] theorem State.onPair_boost (k : Fin 8) (f : Pair → Pair) : (s.onPair k f).boost = s.boost := rfl
@[simp] theorem State.onPair_sinks (k : Fin 8) (f : Pair → Pair) : (s.onPair k f).sinks = s.sinks := rfl
@[simp] theorem State.onPair_chain (k : Fin 8) (f : Pair → Pair) : (s.onPair k f).chain = s.chain := rfl
@[simp] theorem State.onPair_matrix (k : Fin 8) (f : Pair → Pair) : (s.onPair k f).matrix = s.matrix := rfl
@[simp] theorem State.onPair_inputs (k : Fin 8) (f : Pair → Pair) : (s.onPair k f).inputs = s.inputs := rfl
@[simp] theorem State.onPair_inLoss (k : Fin 8) (f : Pair → Pair) : (s.onPair k f).inLoss = s.inLoss := rfl
@[simp] theorem State.onPair_ios (k : Fin 8) (f : Pair → Pair) : (s.onPair k f).ios = s.ios := rfl
@[simp] theorem State.onPair_ans (k : Fin 8) (f : Pair → Pair) : (s.onPair k f).ans = s.ans := rfl
@[simp] theorem State.onPair_adc (k : Fin 8) (f : Pair → Pair) : (s.onPair k f).adc = s.adc := rfl
@[simp] theorem State.onPair_vq (k : Fin 8) (f : Pair → Pair) : (s.onPair k f).vq = s.vq := rfl
@[simp] theorem State.onPair_eng (k : Fin 8) (f : Pair → Pair) : (s.onPair k f).eng = s.eng := rfl
@[simp] theorem State.onPair_cans (k : Fin 8) (f : Pair → Pair) : (s.onPair k f).cans = s.cans := rfl
@[simp] theorem State.onPair_lins (k : Fin 8) (f : Pair → Pair) : (s.onPair k f).lins = s.lins := rfl
@[simp] theorem State.onPair_lq (k : Fin 8) (f : Pair → Pair) : (s.onPair k f).lq = s.lq := rfl
@[simp] theorem State.onPair_inq (k : Fin 8) (f : Pair → Pair) : (s.onPair k f).inq = s.inq := rfl
@[simp] theorem State.onPair_seqs (k : Fin 8) (f : Pair → Pair) : (s.onPair k f).seqs = s.seqs := rfl
@[simp] theorem State.onPair_dom (k : Fin 8) (f : Pair → Pair) : (s.onPair k f).dom = s.dom := rfl
@[simp] theorem State.onPair_log (k : Fin 8) (f : Pair → Pair) : (s.onPair k f).log = s.log := rfl
@[simp] theorem State.onPair_cores (k : Fin 8) (f : Pair → Pair) : (s.onPair k f).cores = s.cores := rfl
@[simp] theorem State.onPair_eth (k : Fin 8) (f : Pair → Pair) : (s.onPair k f).eth = s.eth := rfl
@[simp] theorem State.onPair_ring (k : Fin 8) (f : Pair → Pair) : (s.onPair k f).ring = s.ring := rfl
@[simp] theorem State.onPair_duo (k : Fin 8) (f : Pair → Pair) : (s.onPair k f).duo = s.duo := rfl
@[simp] theorem State.onPair_pwr (k : Fin 8) (f : Pair → Pair) : (s.onPair k f).pwr = s.pwr := rfl
@[simp] theorem State.onPair_rst (k : Fin 8) (f : Pair → Pair) : (s.onPair k f).rst = s.rst := rfl
@[simp] theorem State.onPair_acs (k : Fin 8) (f : Pair → Pair) : (s.onPair k f).acs = s.acs := rfl
@[simp] theorem State.onPair_upd (k : Fin 8) (f : Pair → Pair) : (s.onPair k f).upd = s.upd := rfl
@[simp] theorem State.onPair_dbg (k : Fin 8) (f : Pair → Pair) : (s.onPair k f).dbg = s.dbg := rfl

@[simp] theorem State.onLeg_pending (k : Fin 16) (f : Leg → Leg) : (s.onLeg k f).pending = s.pending := rfl
@[simp] theorem State.onLeg_free (k : Fin 16) (f : Leg → Leg) : (s.onLeg k f).free = s.free := rfl
@[simp] theorem State.onLeg_time (k : Fin 16) (f : Leg → Leg) : (s.onLeg k f).time = s.time := rfl
@[simp] theorem State.onLeg_fab (k : Fin 16) (f : Leg → Leg) : (s.onLeg k f).fab = s.fab := rfl
@[simp] theorem State.onLeg_mem (k : Fin 16) (f : Leg → Leg) : (s.onLeg k f).mem = s.mem := rfl
@[simp] theorem State.onLeg_srv (k : Fin 16) (f : Leg → Leg) : (s.onLeg k f).srv = s.srv := rfl
@[simp] theorem State.onLeg_adm (k : Fin 16) (f : Leg → Leg) : (s.onLeg k f).adm = s.adm := rfl
@[simp] theorem State.onLeg_sup (k : Fin 16) (f : Leg → Leg) : (s.onLeg k f).sup = s.sup := rfl
@[simp] theorem State.onLeg_flt (k : Fin 16) (f : Leg → Leg) : (s.onLeg k f).flt = s.flt := rfl
@[simp] theorem State.onLeg_hs (k : Fin 16) (f : Leg → Leg) : (s.onLeg k f).hs = s.hs := rfl
@[simp] theorem State.onLeg_th (k : Fin 16) (f : Leg → Leg) : (s.onLeg k f).th = s.th := rfl
@[simp] theorem State.onLeg_pairs (k : Fin 16) (f : Leg → Leg) : (s.onLeg k f).pairs = s.pairs := rfl
@[simp] theorem State.onLeg_sout (k : Fin 16) (f : Leg → Leg) : (s.onLeg k f).sout = s.sout := rfl
@[simp] theorem State.onLeg_vd (k : Fin 16) (f : Leg → Leg) : (s.onLeg k f).vd = s.vd := rfl
@[simp] theorem State.onLeg_vb (k : Fin 16) (f : Leg → Leg) : (s.onLeg k f).vb = s.vb := rfl
@[simp] theorem State.onLeg_boost (k : Fin 16) (f : Leg → Leg) : (s.onLeg k f).boost = s.boost := rfl
@[simp] theorem State.onLeg_sinks (k : Fin 16) (f : Leg → Leg) : (s.onLeg k f).sinks = s.sinks := rfl
@[simp] theorem State.onLeg_chain (k : Fin 16) (f : Leg → Leg) : (s.onLeg k f).chain = s.chain := rfl
@[simp] theorem State.onLeg_matrix (k : Fin 16) (f : Leg → Leg) : (s.onLeg k f).matrix = s.matrix := rfl
@[simp] theorem State.onLeg_inputs (k : Fin 16) (f : Leg → Leg) : (s.onLeg k f).inputs = s.inputs := rfl
@[simp] theorem State.onLeg_inLoss (k : Fin 16) (f : Leg → Leg) : (s.onLeg k f).inLoss = s.inLoss := rfl
@[simp] theorem State.onLeg_ios (k : Fin 16) (f : Leg → Leg) : (s.onLeg k f).ios = s.ios := rfl
@[simp] theorem State.onLeg_ans (k : Fin 16) (f : Leg → Leg) : (s.onLeg k f).ans = s.ans := rfl
@[simp] theorem State.onLeg_adc (k : Fin 16) (f : Leg → Leg) : (s.onLeg k f).adc = s.adc := rfl
@[simp] theorem State.onLeg_vq (k : Fin 16) (f : Leg → Leg) : (s.onLeg k f).vq = s.vq := rfl
@[simp] theorem State.onLeg_eng (k : Fin 16) (f : Leg → Leg) : (s.onLeg k f).eng = s.eng := rfl
@[simp] theorem State.onLeg_cans (k : Fin 16) (f : Leg → Leg) : (s.onLeg k f).cans = s.cans := rfl
@[simp] theorem State.onLeg_lins (k : Fin 16) (f : Leg → Leg) : (s.onLeg k f).lins = s.lins := rfl
@[simp] theorem State.onLeg_lq (k : Fin 16) (f : Leg → Leg) : (s.onLeg k f).lq = s.lq := rfl
@[simp] theorem State.onLeg_inq (k : Fin 16) (f : Leg → Leg) : (s.onLeg k f).inq = s.inq := rfl
@[simp] theorem State.onLeg_seqs (k : Fin 16) (f : Leg → Leg) : (s.onLeg k f).seqs = s.seqs := rfl
@[simp] theorem State.onLeg_dom (k : Fin 16) (f : Leg → Leg) : (s.onLeg k f).dom = s.dom := rfl
@[simp] theorem State.onLeg_log (k : Fin 16) (f : Leg → Leg) : (s.onLeg k f).log = s.log := rfl
@[simp] theorem State.onLeg_cores (k : Fin 16) (f : Leg → Leg) : (s.onLeg k f).cores = s.cores := rfl
@[simp] theorem State.onLeg_eth (k : Fin 16) (f : Leg → Leg) : (s.onLeg k f).eth = s.eth := rfl
@[simp] theorem State.onLeg_ring (k : Fin 16) (f : Leg → Leg) : (s.onLeg k f).ring = s.ring := rfl
@[simp] theorem State.onLeg_duo (k : Fin 16) (f : Leg → Leg) : (s.onLeg k f).duo = s.duo := rfl
@[simp] theorem State.onLeg_pwr (k : Fin 16) (f : Leg → Leg) : (s.onLeg k f).pwr = s.pwr := rfl
@[simp] theorem State.onLeg_rst (k : Fin 16) (f : Leg → Leg) : (s.onLeg k f).rst = s.rst := rfl
@[simp] theorem State.onLeg_acs (k : Fin 16) (f : Leg → Leg) : (s.onLeg k f).acs = s.acs := rfl
@[simp] theorem State.onLeg_upd (k : Fin 16) (f : Leg → Leg) : (s.onLeg k f).upd = s.upd := rfl
@[simp] theorem State.onLeg_dbg (k : Fin 16) (f : Leg → Leg) : (s.onLeg k f).dbg = s.dbg := rfl

@[simp] theorem State.onCan_pending (k : Fin 8) (f : CanCh → CanCh) : (s.onCan k f).pending = s.pending := rfl
@[simp] theorem State.onCan_free (k : Fin 8) (f : CanCh → CanCh) : (s.onCan k f).free = s.free := rfl
@[simp] theorem State.onCan_time (k : Fin 8) (f : CanCh → CanCh) : (s.onCan k f).time = s.time := rfl
@[simp] theorem State.onCan_fab (k : Fin 8) (f : CanCh → CanCh) : (s.onCan k f).fab = s.fab := rfl
@[simp] theorem State.onCan_mem (k : Fin 8) (f : CanCh → CanCh) : (s.onCan k f).mem = s.mem := rfl
@[simp] theorem State.onCan_srv (k : Fin 8) (f : CanCh → CanCh) : (s.onCan k f).srv = s.srv := rfl
@[simp] theorem State.onCan_adm (k : Fin 8) (f : CanCh → CanCh) : (s.onCan k f).adm = s.adm := rfl
@[simp] theorem State.onCan_sup (k : Fin 8) (f : CanCh → CanCh) : (s.onCan k f).sup = s.sup := rfl
@[simp] theorem State.onCan_flt (k : Fin 8) (f : CanCh → CanCh) : (s.onCan k f).flt = s.flt := rfl
@[simp] theorem State.onCan_hs (k : Fin 8) (f : CanCh → CanCh) : (s.onCan k f).hs = s.hs := rfl
@[simp] theorem State.onCan_th (k : Fin 8) (f : CanCh → CanCh) : (s.onCan k f).th = s.th := rfl
@[simp] theorem State.onCan_legs (k : Fin 8) (f : CanCh → CanCh) : (s.onCan k f).legs = s.legs := rfl
@[simp] theorem State.onCan_pairs (k : Fin 8) (f : CanCh → CanCh) : (s.onCan k f).pairs = s.pairs := rfl
@[simp] theorem State.onCan_sout (k : Fin 8) (f : CanCh → CanCh) : (s.onCan k f).sout = s.sout := rfl
@[simp] theorem State.onCan_vd (k : Fin 8) (f : CanCh → CanCh) : (s.onCan k f).vd = s.vd := rfl
@[simp] theorem State.onCan_vb (k : Fin 8) (f : CanCh → CanCh) : (s.onCan k f).vb = s.vb := rfl
@[simp] theorem State.onCan_boost (k : Fin 8) (f : CanCh → CanCh) : (s.onCan k f).boost = s.boost := rfl
@[simp] theorem State.onCan_sinks (k : Fin 8) (f : CanCh → CanCh) : (s.onCan k f).sinks = s.sinks := rfl
@[simp] theorem State.onCan_chain (k : Fin 8) (f : CanCh → CanCh) : (s.onCan k f).chain = s.chain := rfl
@[simp] theorem State.onCan_matrix (k : Fin 8) (f : CanCh → CanCh) : (s.onCan k f).matrix = s.matrix := rfl
@[simp] theorem State.onCan_inputs (k : Fin 8) (f : CanCh → CanCh) : (s.onCan k f).inputs = s.inputs := rfl
@[simp] theorem State.onCan_inLoss (k : Fin 8) (f : CanCh → CanCh) : (s.onCan k f).inLoss = s.inLoss := rfl
@[simp] theorem State.onCan_ios (k : Fin 8) (f : CanCh → CanCh) : (s.onCan k f).ios = s.ios := rfl
@[simp] theorem State.onCan_ans (k : Fin 8) (f : CanCh → CanCh) : (s.onCan k f).ans = s.ans := rfl
@[simp] theorem State.onCan_adc (k : Fin 8) (f : CanCh → CanCh) : (s.onCan k f).adc = s.adc := rfl
@[simp] theorem State.onCan_vq (k : Fin 8) (f : CanCh → CanCh) : (s.onCan k f).vq = s.vq := rfl
@[simp] theorem State.onCan_eng (k : Fin 8) (f : CanCh → CanCh) : (s.onCan k f).eng = s.eng := rfl
@[simp] theorem State.onCan_lins (k : Fin 8) (f : CanCh → CanCh) : (s.onCan k f).lins = s.lins := rfl
@[simp] theorem State.onCan_lq (k : Fin 8) (f : CanCh → CanCh) : (s.onCan k f).lq = s.lq := rfl
@[simp] theorem State.onCan_inq (k : Fin 8) (f : CanCh → CanCh) : (s.onCan k f).inq = s.inq := rfl
@[simp] theorem State.onCan_seqs (k : Fin 8) (f : CanCh → CanCh) : (s.onCan k f).seqs = s.seqs := rfl
@[simp] theorem State.onCan_dom (k : Fin 8) (f : CanCh → CanCh) : (s.onCan k f).dom = s.dom := rfl
@[simp] theorem State.onCan_log (k : Fin 8) (f : CanCh → CanCh) : (s.onCan k f).log = s.log := rfl
@[simp] theorem State.onCan_cores (k : Fin 8) (f : CanCh → CanCh) : (s.onCan k f).cores = s.cores := rfl
@[simp] theorem State.onCan_eth (k : Fin 8) (f : CanCh → CanCh) : (s.onCan k f).eth = s.eth := rfl
@[simp] theorem State.onCan_ring (k : Fin 8) (f : CanCh → CanCh) : (s.onCan k f).ring = s.ring := rfl
@[simp] theorem State.onCan_duo (k : Fin 8) (f : CanCh → CanCh) : (s.onCan k f).duo = s.duo := rfl
@[simp] theorem State.onCan_pwr (k : Fin 8) (f : CanCh → CanCh) : (s.onCan k f).pwr = s.pwr := rfl
@[simp] theorem State.onCan_rst (k : Fin 8) (f : CanCh → CanCh) : (s.onCan k f).rst = s.rst := rfl
@[simp] theorem State.onCan_acs (k : Fin 8) (f : CanCh → CanCh) : (s.onCan k f).acs = s.acs := rfl
@[simp] theorem State.onCan_upd (k : Fin 8) (f : CanCh → CanCh) : (s.onCan k f).upd = s.upd := rfl
@[simp] theorem State.onCan_dbg (k : Fin 8) (f : CanCh → CanCh) : (s.onCan k f).dbg = s.dbg := rfl

@[simp] theorem State.onAcs_pending (f : AccessState → AccessState) : (s.onAcs f).pending = s.pending := rfl
@[simp] theorem State.onAcs_free (f : AccessState → AccessState) : (s.onAcs f).free = s.free := rfl
@[simp] theorem State.onAcs_time (f : AccessState → AccessState) : (s.onAcs f).time = s.time := rfl
@[simp] theorem State.onAcs_fab (f : AccessState → AccessState) : (s.onAcs f).fab = s.fab := rfl
@[simp] theorem State.onAcs_mem (f : AccessState → AccessState) : (s.onAcs f).mem = s.mem := rfl
@[simp] theorem State.onAcs_srv (f : AccessState → AccessState) : (s.onAcs f).srv = s.srv := rfl
@[simp] theorem State.onAcs_adm (f : AccessState → AccessState) : (s.onAcs f).adm = s.adm := rfl
@[simp] theorem State.onAcs_sup (f : AccessState → AccessState) : (s.onAcs f).sup = s.sup := rfl
@[simp] theorem State.onAcs_flt (f : AccessState → AccessState) : (s.onAcs f).flt = s.flt := rfl
@[simp] theorem State.onAcs_hs (f : AccessState → AccessState) : (s.onAcs f).hs = s.hs := rfl
@[simp] theorem State.onAcs_th (f : AccessState → AccessState) : (s.onAcs f).th = s.th := rfl
@[simp] theorem State.onAcs_legs (f : AccessState → AccessState) : (s.onAcs f).legs = s.legs := rfl
@[simp] theorem State.onAcs_pairs (f : AccessState → AccessState) : (s.onAcs f).pairs = s.pairs := rfl
@[simp] theorem State.onAcs_sout (f : AccessState → AccessState) : (s.onAcs f).sout = s.sout := rfl
@[simp] theorem State.onAcs_vd (f : AccessState → AccessState) : (s.onAcs f).vd = s.vd := rfl
@[simp] theorem State.onAcs_vb (f : AccessState → AccessState) : (s.onAcs f).vb = s.vb := rfl
@[simp] theorem State.onAcs_boost (f : AccessState → AccessState) : (s.onAcs f).boost = s.boost := rfl
@[simp] theorem State.onAcs_sinks (f : AccessState → AccessState) : (s.onAcs f).sinks = s.sinks := rfl
@[simp] theorem State.onAcs_chain (f : AccessState → AccessState) : (s.onAcs f).chain = s.chain := rfl
@[simp] theorem State.onAcs_matrix (f : AccessState → AccessState) : (s.onAcs f).matrix = s.matrix := rfl
@[simp] theorem State.onAcs_inputs (f : AccessState → AccessState) : (s.onAcs f).inputs = s.inputs := rfl
@[simp] theorem State.onAcs_inLoss (f : AccessState → AccessState) : (s.onAcs f).inLoss = s.inLoss := rfl
@[simp] theorem State.onAcs_ios (f : AccessState → AccessState) : (s.onAcs f).ios = s.ios := rfl
@[simp] theorem State.onAcs_ans (f : AccessState → AccessState) : (s.onAcs f).ans = s.ans := rfl
@[simp] theorem State.onAcs_adc (f : AccessState → AccessState) : (s.onAcs f).adc = s.adc := rfl
@[simp] theorem State.onAcs_vq (f : AccessState → AccessState) : (s.onAcs f).vq = s.vq := rfl
@[simp] theorem State.onAcs_eng (f : AccessState → AccessState) : (s.onAcs f).eng = s.eng := rfl
@[simp] theorem State.onAcs_cans (f : AccessState → AccessState) : (s.onAcs f).cans = s.cans := rfl
@[simp] theorem State.onAcs_lins (f : AccessState → AccessState) : (s.onAcs f).lins = s.lins := rfl
@[simp] theorem State.onAcs_lq (f : AccessState → AccessState) : (s.onAcs f).lq = s.lq := rfl
@[simp] theorem State.onAcs_inq (f : AccessState → AccessState) : (s.onAcs f).inq = s.inq := rfl
@[simp] theorem State.onAcs_seqs (f : AccessState → AccessState) : (s.onAcs f).seqs = s.seqs := rfl
@[simp] theorem State.onAcs_dom (f : AccessState → AccessState) : (s.onAcs f).dom = s.dom := rfl
@[simp] theorem State.onAcs_log (f : AccessState → AccessState) : (s.onAcs f).log = s.log := rfl
@[simp] theorem State.onAcs_cores (f : AccessState → AccessState) : (s.onAcs f).cores = s.cores := rfl
@[simp] theorem State.onAcs_eth (f : AccessState → AccessState) : (s.onAcs f).eth = s.eth := rfl
@[simp] theorem State.onAcs_ring (f : AccessState → AccessState) : (s.onAcs f).ring = s.ring := rfl
@[simp] theorem State.onAcs_duo (f : AccessState → AccessState) : (s.onAcs f).duo = s.duo := rfl
@[simp] theorem State.onAcs_pwr (f : AccessState → AccessState) : (s.onAcs f).pwr = s.pwr := rfl
@[simp] theorem State.onAcs_rst (f : AccessState → AccessState) : (s.onAcs f).rst = s.rst := rfl
@[simp] theorem State.onAcs_upd (f : AccessState → AccessState) : (s.onAcs f).upd = s.upd := rfl
@[simp] theorem State.onAcs_dbg (f : AccessState → AccessState) : (s.onAcs f).dbg = s.dbg := rfl

@[simp] theorem State.onPwr_pending (f : Power → Power) : (s.onPwr f).pending = s.pending := rfl
@[simp] theorem State.onPwr_free (f : Power → Power) : (s.onPwr f).free = s.free := rfl
@[simp] theorem State.onPwr_time (f : Power → Power) : (s.onPwr f).time = s.time := rfl
@[simp] theorem State.onPwr_fab (f : Power → Power) : (s.onPwr f).fab = s.fab := rfl
@[simp] theorem State.onPwr_mem (f : Power → Power) : (s.onPwr f).mem = s.mem := rfl
@[simp] theorem State.onPwr_srv (f : Power → Power) : (s.onPwr f).srv = s.srv := rfl
@[simp] theorem State.onPwr_adm (f : Power → Power) : (s.onPwr f).adm = s.adm := rfl
@[simp] theorem State.onPwr_sup (f : Power → Power) : (s.onPwr f).sup = s.sup := rfl
@[simp] theorem State.onPwr_flt (f : Power → Power) : (s.onPwr f).flt = s.flt := rfl
@[simp] theorem State.onPwr_hs (f : Power → Power) : (s.onPwr f).hs = s.hs := rfl
@[simp] theorem State.onPwr_th (f : Power → Power) : (s.onPwr f).th = s.th := rfl
@[simp] theorem State.onPwr_legs (f : Power → Power) : (s.onPwr f).legs = s.legs := rfl
@[simp] theorem State.onPwr_pairs (f : Power → Power) : (s.onPwr f).pairs = s.pairs := rfl
@[simp] theorem State.onPwr_sout (f : Power → Power) : (s.onPwr f).sout = s.sout := rfl
@[simp] theorem State.onPwr_vd (f : Power → Power) : (s.onPwr f).vd = s.vd := rfl
@[simp] theorem State.onPwr_vb (f : Power → Power) : (s.onPwr f).vb = s.vb := rfl
@[simp] theorem State.onPwr_boost (f : Power → Power) : (s.onPwr f).boost = s.boost := rfl
@[simp] theorem State.onPwr_sinks (f : Power → Power) : (s.onPwr f).sinks = s.sinks := rfl
@[simp] theorem State.onPwr_chain (f : Power → Power) : (s.onPwr f).chain = s.chain := rfl
@[simp] theorem State.onPwr_matrix (f : Power → Power) : (s.onPwr f).matrix = s.matrix := rfl
@[simp] theorem State.onPwr_inputs (f : Power → Power) : (s.onPwr f).inputs = s.inputs := rfl
@[simp] theorem State.onPwr_inLoss (f : Power → Power) : (s.onPwr f).inLoss = s.inLoss := rfl
@[simp] theorem State.onPwr_ios (f : Power → Power) : (s.onPwr f).ios = s.ios := rfl
@[simp] theorem State.onPwr_ans (f : Power → Power) : (s.onPwr f).ans = s.ans := rfl
@[simp] theorem State.onPwr_adc (f : Power → Power) : (s.onPwr f).adc = s.adc := rfl
@[simp] theorem State.onPwr_vq (f : Power → Power) : (s.onPwr f).vq = s.vq := rfl
@[simp] theorem State.onPwr_eng (f : Power → Power) : (s.onPwr f).eng = s.eng := rfl
@[simp] theorem State.onPwr_cans (f : Power → Power) : (s.onPwr f).cans = s.cans := rfl
@[simp] theorem State.onPwr_lins (f : Power → Power) : (s.onPwr f).lins = s.lins := rfl
@[simp] theorem State.onPwr_lq (f : Power → Power) : (s.onPwr f).lq = s.lq := rfl
@[simp] theorem State.onPwr_inq (f : Power → Power) : (s.onPwr f).inq = s.inq := rfl
@[simp] theorem State.onPwr_seqs (f : Power → Power) : (s.onPwr f).seqs = s.seqs := rfl
@[simp] theorem State.onPwr_dom (f : Power → Power) : (s.onPwr f).dom = s.dom := rfl
@[simp] theorem State.onPwr_log (f : Power → Power) : (s.onPwr f).log = s.log := rfl
@[simp] theorem State.onPwr_cores (f : Power → Power) : (s.onPwr f).cores = s.cores := rfl
@[simp] theorem State.onPwr_eth (f : Power → Power) : (s.onPwr f).eth = s.eth := rfl
@[simp] theorem State.onPwr_ring (f : Power → Power) : (s.onPwr f).ring = s.ring := rfl
@[simp] theorem State.onPwr_duo (f : Power → Power) : (s.onPwr f).duo = s.duo := rfl
@[simp] theorem State.onPwr_rst (f : Power → Power) : (s.onPwr f).rst = s.rst := rfl
@[simp] theorem State.onPwr_acs (f : Power → Power) : (s.onPwr f).acs = s.acs := rfl
@[simp] theorem State.onPwr_upd (f : Power → Power) : (s.onPwr f).upd = s.upd := rfl
@[simp] theorem State.onPwr_dbg (f : Power → Power) : (s.onPwr f).dbg = s.dbg := rfl

@[simp] theorem State.onRst_pending (f : ResetState → ResetState) : (s.onRst f).pending = s.pending := rfl
@[simp] theorem State.onRst_free (f : ResetState → ResetState) : (s.onRst f).free = s.free := rfl
@[simp] theorem State.onRst_time (f : ResetState → ResetState) : (s.onRst f).time = s.time := rfl
@[simp] theorem State.onRst_fab (f : ResetState → ResetState) : (s.onRst f).fab = s.fab := rfl
@[simp] theorem State.onRst_mem (f : ResetState → ResetState) : (s.onRst f).mem = s.mem := rfl
@[simp] theorem State.onRst_srv (f : ResetState → ResetState) : (s.onRst f).srv = s.srv := rfl
@[simp] theorem State.onRst_adm (f : ResetState → ResetState) : (s.onRst f).adm = s.adm := rfl
@[simp] theorem State.onRst_sup (f : ResetState → ResetState) : (s.onRst f).sup = s.sup := rfl
@[simp] theorem State.onRst_flt (f : ResetState → ResetState) : (s.onRst f).flt = s.flt := rfl
@[simp] theorem State.onRst_hs (f : ResetState → ResetState) : (s.onRst f).hs = s.hs := rfl
@[simp] theorem State.onRst_th (f : ResetState → ResetState) : (s.onRst f).th = s.th := rfl
@[simp] theorem State.onRst_legs (f : ResetState → ResetState) : (s.onRst f).legs = s.legs := rfl
@[simp] theorem State.onRst_pairs (f : ResetState → ResetState) : (s.onRst f).pairs = s.pairs := rfl
@[simp] theorem State.onRst_sout (f : ResetState → ResetState) : (s.onRst f).sout = s.sout := rfl
@[simp] theorem State.onRst_vd (f : ResetState → ResetState) : (s.onRst f).vd = s.vd := rfl
@[simp] theorem State.onRst_vb (f : ResetState → ResetState) : (s.onRst f).vb = s.vb := rfl
@[simp] theorem State.onRst_boost (f : ResetState → ResetState) : (s.onRst f).boost = s.boost := rfl
@[simp] theorem State.onRst_sinks (f : ResetState → ResetState) : (s.onRst f).sinks = s.sinks := rfl
@[simp] theorem State.onRst_chain (f : ResetState → ResetState) : (s.onRst f).chain = s.chain := rfl
@[simp] theorem State.onRst_matrix (f : ResetState → ResetState) : (s.onRst f).matrix = s.matrix := rfl
@[simp] theorem State.onRst_inputs (f : ResetState → ResetState) : (s.onRst f).inputs = s.inputs := rfl
@[simp] theorem State.onRst_inLoss (f : ResetState → ResetState) : (s.onRst f).inLoss = s.inLoss := rfl
@[simp] theorem State.onRst_ios (f : ResetState → ResetState) : (s.onRst f).ios = s.ios := rfl
@[simp] theorem State.onRst_ans (f : ResetState → ResetState) : (s.onRst f).ans = s.ans := rfl
@[simp] theorem State.onRst_adc (f : ResetState → ResetState) : (s.onRst f).adc = s.adc := rfl
@[simp] theorem State.onRst_vq (f : ResetState → ResetState) : (s.onRst f).vq = s.vq := rfl
@[simp] theorem State.onRst_eng (f : ResetState → ResetState) : (s.onRst f).eng = s.eng := rfl
@[simp] theorem State.onRst_cans (f : ResetState → ResetState) : (s.onRst f).cans = s.cans := rfl
@[simp] theorem State.onRst_lins (f : ResetState → ResetState) : (s.onRst f).lins = s.lins := rfl
@[simp] theorem State.onRst_lq (f : ResetState → ResetState) : (s.onRst f).lq = s.lq := rfl
@[simp] theorem State.onRst_inq (f : ResetState → ResetState) : (s.onRst f).inq = s.inq := rfl
@[simp] theorem State.onRst_seqs (f : ResetState → ResetState) : (s.onRst f).seqs = s.seqs := rfl
@[simp] theorem State.onRst_dom (f : ResetState → ResetState) : (s.onRst f).dom = s.dom := rfl
@[simp] theorem State.onRst_log (f : ResetState → ResetState) : (s.onRst f).log = s.log := rfl
@[simp] theorem State.onRst_cores (f : ResetState → ResetState) : (s.onRst f).cores = s.cores := rfl
@[simp] theorem State.onRst_eth (f : ResetState → ResetState) : (s.onRst f).eth = s.eth := rfl
@[simp] theorem State.onRst_ring (f : ResetState → ResetState) : (s.onRst f).ring = s.ring := rfl
@[simp] theorem State.onRst_duo (f : ResetState → ResetState) : (s.onRst f).duo = s.duo := rfl
@[simp] theorem State.onRst_pwr (f : ResetState → ResetState) : (s.onRst f).pwr = s.pwr := rfl
@[simp] theorem State.onRst_acs (f : ResetState → ResetState) : (s.onRst f).acs = s.acs := rfl
@[simp] theorem State.onRst_upd (f : ResetState → ResetState) : (s.onRst f).upd = s.upd := rfl
@[simp] theorem State.onRst_dbg (f : ResetState → ResetState) : (s.onRst f).dbg = s.dbg := rfl

@[simp] theorem State.onCore_pending (k : Fin 2) (f : Core → Core) : (s.onCore k f).pending = s.pending := rfl
@[simp] theorem State.onCore_free (k : Fin 2) (f : Core → Core) : (s.onCore k f).free = s.free := rfl
@[simp] theorem State.onCore_time (k : Fin 2) (f : Core → Core) : (s.onCore k f).time = s.time := rfl
@[simp] theorem State.onCore_fab (k : Fin 2) (f : Core → Core) : (s.onCore k f).fab = s.fab := rfl
@[simp] theorem State.onCore_mem (k : Fin 2) (f : Core → Core) : (s.onCore k f).mem = s.mem := rfl
@[simp] theorem State.onCore_srv (k : Fin 2) (f : Core → Core) : (s.onCore k f).srv = s.srv := rfl
@[simp] theorem State.onCore_adm (k : Fin 2) (f : Core → Core) : (s.onCore k f).adm = s.adm := rfl
@[simp] theorem State.onCore_sup (k : Fin 2) (f : Core → Core) : (s.onCore k f).sup = s.sup := rfl
@[simp] theorem State.onCore_flt (k : Fin 2) (f : Core → Core) : (s.onCore k f).flt = s.flt := rfl
@[simp] theorem State.onCore_hs (k : Fin 2) (f : Core → Core) : (s.onCore k f).hs = s.hs := rfl
@[simp] theorem State.onCore_th (k : Fin 2) (f : Core → Core) : (s.onCore k f).th = s.th := rfl
@[simp] theorem State.onCore_legs (k : Fin 2) (f : Core → Core) : (s.onCore k f).legs = s.legs := rfl
@[simp] theorem State.onCore_pairs (k : Fin 2) (f : Core → Core) : (s.onCore k f).pairs = s.pairs := rfl
@[simp] theorem State.onCore_sout (k : Fin 2) (f : Core → Core) : (s.onCore k f).sout = s.sout := rfl
@[simp] theorem State.onCore_vd (k : Fin 2) (f : Core → Core) : (s.onCore k f).vd = s.vd := rfl
@[simp] theorem State.onCore_vb (k : Fin 2) (f : Core → Core) : (s.onCore k f).vb = s.vb := rfl
@[simp] theorem State.onCore_boost (k : Fin 2) (f : Core → Core) : (s.onCore k f).boost = s.boost := rfl
@[simp] theorem State.onCore_sinks (k : Fin 2) (f : Core → Core) : (s.onCore k f).sinks = s.sinks := rfl
@[simp] theorem State.onCore_chain (k : Fin 2) (f : Core → Core) : (s.onCore k f).chain = s.chain := rfl
@[simp] theorem State.onCore_matrix (k : Fin 2) (f : Core → Core) : (s.onCore k f).matrix = s.matrix := rfl
@[simp] theorem State.onCore_inputs (k : Fin 2) (f : Core → Core) : (s.onCore k f).inputs = s.inputs := rfl
@[simp] theorem State.onCore_inLoss (k : Fin 2) (f : Core → Core) : (s.onCore k f).inLoss = s.inLoss := rfl
@[simp] theorem State.onCore_ios (k : Fin 2) (f : Core → Core) : (s.onCore k f).ios = s.ios := rfl
@[simp] theorem State.onCore_ans (k : Fin 2) (f : Core → Core) : (s.onCore k f).ans = s.ans := rfl
@[simp] theorem State.onCore_adc (k : Fin 2) (f : Core → Core) : (s.onCore k f).adc = s.adc := rfl
@[simp] theorem State.onCore_vq (k : Fin 2) (f : Core → Core) : (s.onCore k f).vq = s.vq := rfl
@[simp] theorem State.onCore_eng (k : Fin 2) (f : Core → Core) : (s.onCore k f).eng = s.eng := rfl
@[simp] theorem State.onCore_cans (k : Fin 2) (f : Core → Core) : (s.onCore k f).cans = s.cans := rfl
@[simp] theorem State.onCore_lins (k : Fin 2) (f : Core → Core) : (s.onCore k f).lins = s.lins := rfl
@[simp] theorem State.onCore_lq (k : Fin 2) (f : Core → Core) : (s.onCore k f).lq = s.lq := rfl
@[simp] theorem State.onCore_inq (k : Fin 2) (f : Core → Core) : (s.onCore k f).inq = s.inq := rfl
@[simp] theorem State.onCore_seqs (k : Fin 2) (f : Core → Core) : (s.onCore k f).seqs = s.seqs := rfl
@[simp] theorem State.onCore_dom (k : Fin 2) (f : Core → Core) : (s.onCore k f).dom = s.dom := rfl
@[simp] theorem State.onCore_log (k : Fin 2) (f : Core → Core) : (s.onCore k f).log = s.log := rfl
@[simp] theorem State.onCore_eth (k : Fin 2) (f : Core → Core) : (s.onCore k f).eth = s.eth := rfl
@[simp] theorem State.onCore_ring (k : Fin 2) (f : Core → Core) : (s.onCore k f).ring = s.ring := rfl
@[simp] theorem State.onCore_duo (k : Fin 2) (f : Core → Core) : (s.onCore k f).duo = s.duo := rfl
@[simp] theorem State.onCore_pwr (k : Fin 2) (f : Core → Core) : (s.onCore k f).pwr = s.pwr := rfl
@[simp] theorem State.onCore_rst (k : Fin 2) (f : Core → Core) : (s.onCore k f).rst = s.rst := rfl
@[simp] theorem State.onCore_acs (k : Fin 2) (f : Core → Core) : (s.onCore k f).acs = s.acs := rfl
@[simp] theorem State.onCore_upd (k : Fin 2) (f : Core → Core) : (s.onCore k f).upd = s.upd := rfl
@[simp] theorem State.onCore_dbg (k : Fin 2) (f : Core → Core) : (s.onCore k f).dbg = s.dbg := rfl

@[simp] theorem State.onDuo_pending (f : Duo → Duo) : (s.onDuo f).pending = s.pending := rfl
@[simp] theorem State.onDuo_free (f : Duo → Duo) : (s.onDuo f).free = s.free := rfl
@[simp] theorem State.onDuo_time (f : Duo → Duo) : (s.onDuo f).time = s.time := rfl
@[simp] theorem State.onDuo_fab (f : Duo → Duo) : (s.onDuo f).fab = s.fab := rfl
@[simp] theorem State.onDuo_mem (f : Duo → Duo) : (s.onDuo f).mem = s.mem := rfl
@[simp] theorem State.onDuo_srv (f : Duo → Duo) : (s.onDuo f).srv = s.srv := rfl
@[simp] theorem State.onDuo_adm (f : Duo → Duo) : (s.onDuo f).adm = s.adm := rfl
@[simp] theorem State.onDuo_sup (f : Duo → Duo) : (s.onDuo f).sup = s.sup := rfl
@[simp] theorem State.onDuo_flt (f : Duo → Duo) : (s.onDuo f).flt = s.flt := rfl
@[simp] theorem State.onDuo_hs (f : Duo → Duo) : (s.onDuo f).hs = s.hs := rfl
@[simp] theorem State.onDuo_th (f : Duo → Duo) : (s.onDuo f).th = s.th := rfl
@[simp] theorem State.onDuo_legs (f : Duo → Duo) : (s.onDuo f).legs = s.legs := rfl
@[simp] theorem State.onDuo_pairs (f : Duo → Duo) : (s.onDuo f).pairs = s.pairs := rfl
@[simp] theorem State.onDuo_sout (f : Duo → Duo) : (s.onDuo f).sout = s.sout := rfl
@[simp] theorem State.onDuo_vd (f : Duo → Duo) : (s.onDuo f).vd = s.vd := rfl
@[simp] theorem State.onDuo_vb (f : Duo → Duo) : (s.onDuo f).vb = s.vb := rfl
@[simp] theorem State.onDuo_boost (f : Duo → Duo) : (s.onDuo f).boost = s.boost := rfl
@[simp] theorem State.onDuo_sinks (f : Duo → Duo) : (s.onDuo f).sinks = s.sinks := rfl
@[simp] theorem State.onDuo_chain (f : Duo → Duo) : (s.onDuo f).chain = s.chain := rfl
@[simp] theorem State.onDuo_matrix (f : Duo → Duo) : (s.onDuo f).matrix = s.matrix := rfl
@[simp] theorem State.onDuo_inputs (f : Duo → Duo) : (s.onDuo f).inputs = s.inputs := rfl
@[simp] theorem State.onDuo_inLoss (f : Duo → Duo) : (s.onDuo f).inLoss = s.inLoss := rfl
@[simp] theorem State.onDuo_ios (f : Duo → Duo) : (s.onDuo f).ios = s.ios := rfl
@[simp] theorem State.onDuo_ans (f : Duo → Duo) : (s.onDuo f).ans = s.ans := rfl
@[simp] theorem State.onDuo_adc (f : Duo → Duo) : (s.onDuo f).adc = s.adc := rfl
@[simp] theorem State.onDuo_vq (f : Duo → Duo) : (s.onDuo f).vq = s.vq := rfl
@[simp] theorem State.onDuo_eng (f : Duo → Duo) : (s.onDuo f).eng = s.eng := rfl
@[simp] theorem State.onDuo_cans (f : Duo → Duo) : (s.onDuo f).cans = s.cans := rfl
@[simp] theorem State.onDuo_lins (f : Duo → Duo) : (s.onDuo f).lins = s.lins := rfl
@[simp] theorem State.onDuo_lq (f : Duo → Duo) : (s.onDuo f).lq = s.lq := rfl
@[simp] theorem State.onDuo_inq (f : Duo → Duo) : (s.onDuo f).inq = s.inq := rfl
@[simp] theorem State.onDuo_seqs (f : Duo → Duo) : (s.onDuo f).seqs = s.seqs := rfl
@[simp] theorem State.onDuo_dom (f : Duo → Duo) : (s.onDuo f).dom = s.dom := rfl
@[simp] theorem State.onDuo_log (f : Duo → Duo) : (s.onDuo f).log = s.log := rfl
@[simp] theorem State.onDuo_cores (f : Duo → Duo) : (s.onDuo f).cores = s.cores := rfl
@[simp] theorem State.onDuo_eth (f : Duo → Duo) : (s.onDuo f).eth = s.eth := rfl
@[simp] theorem State.onDuo_ring (f : Duo → Duo) : (s.onDuo f).ring = s.ring := rfl
@[simp] theorem State.onDuo_pwr (f : Duo → Duo) : (s.onDuo f).pwr = s.pwr := rfl
@[simp] theorem State.onDuo_rst (f : Duo → Duo) : (s.onDuo f).rst = s.rst := rfl
@[simp] theorem State.onDuo_acs (f : Duo → Duo) : (s.onDuo f).acs = s.acs := rfl
@[simp] theorem State.onDuo_upd (f : Duo → Duo) : (s.onDuo f).upd = s.upd := rfl
@[simp] theorem State.onDuo_dbg (f : Duo → Duo) : (s.onDuo f).dbg = s.dbg := rfl

@[simp] theorem State.onEth_pending (f : Ethernet → Ethernet) : (s.onEth f).pending = s.pending := rfl
@[simp] theorem State.onEth_free (f : Ethernet → Ethernet) : (s.onEth f).free = s.free := rfl
@[simp] theorem State.onEth_time (f : Ethernet → Ethernet) : (s.onEth f).time = s.time := rfl
@[simp] theorem State.onEth_fab (f : Ethernet → Ethernet) : (s.onEth f).fab = s.fab := rfl
@[simp] theorem State.onEth_mem (f : Ethernet → Ethernet) : (s.onEth f).mem = s.mem := rfl
@[simp] theorem State.onEth_srv (f : Ethernet → Ethernet) : (s.onEth f).srv = s.srv := rfl
@[simp] theorem State.onEth_adm (f : Ethernet → Ethernet) : (s.onEth f).adm = s.adm := rfl
@[simp] theorem State.onEth_sup (f : Ethernet → Ethernet) : (s.onEth f).sup = s.sup := rfl
@[simp] theorem State.onEth_flt (f : Ethernet → Ethernet) : (s.onEth f).flt = s.flt := rfl
@[simp] theorem State.onEth_hs (f : Ethernet → Ethernet) : (s.onEth f).hs = s.hs := rfl
@[simp] theorem State.onEth_th (f : Ethernet → Ethernet) : (s.onEth f).th = s.th := rfl
@[simp] theorem State.onEth_legs (f : Ethernet → Ethernet) : (s.onEth f).legs = s.legs := rfl
@[simp] theorem State.onEth_pairs (f : Ethernet → Ethernet) : (s.onEth f).pairs = s.pairs := rfl
@[simp] theorem State.onEth_sout (f : Ethernet → Ethernet) : (s.onEth f).sout = s.sout := rfl
@[simp] theorem State.onEth_vd (f : Ethernet → Ethernet) : (s.onEth f).vd = s.vd := rfl
@[simp] theorem State.onEth_vb (f : Ethernet → Ethernet) : (s.onEth f).vb = s.vb := rfl
@[simp] theorem State.onEth_boost (f : Ethernet → Ethernet) : (s.onEth f).boost = s.boost := rfl
@[simp] theorem State.onEth_sinks (f : Ethernet → Ethernet) : (s.onEth f).sinks = s.sinks := rfl
@[simp] theorem State.onEth_chain (f : Ethernet → Ethernet) : (s.onEth f).chain = s.chain := rfl
@[simp] theorem State.onEth_matrix (f : Ethernet → Ethernet) : (s.onEth f).matrix = s.matrix := rfl
@[simp] theorem State.onEth_inputs (f : Ethernet → Ethernet) : (s.onEth f).inputs = s.inputs := rfl
@[simp] theorem State.onEth_inLoss (f : Ethernet → Ethernet) : (s.onEth f).inLoss = s.inLoss := rfl
@[simp] theorem State.onEth_ios (f : Ethernet → Ethernet) : (s.onEth f).ios = s.ios := rfl
@[simp] theorem State.onEth_ans (f : Ethernet → Ethernet) : (s.onEth f).ans = s.ans := rfl
@[simp] theorem State.onEth_adc (f : Ethernet → Ethernet) : (s.onEth f).adc = s.adc := rfl
@[simp] theorem State.onEth_vq (f : Ethernet → Ethernet) : (s.onEth f).vq = s.vq := rfl
@[simp] theorem State.onEth_eng (f : Ethernet → Ethernet) : (s.onEth f).eng = s.eng := rfl
@[simp] theorem State.onEth_cans (f : Ethernet → Ethernet) : (s.onEth f).cans = s.cans := rfl
@[simp] theorem State.onEth_lins (f : Ethernet → Ethernet) : (s.onEth f).lins = s.lins := rfl
@[simp] theorem State.onEth_lq (f : Ethernet → Ethernet) : (s.onEth f).lq = s.lq := rfl
@[simp] theorem State.onEth_inq (f : Ethernet → Ethernet) : (s.onEth f).inq = s.inq := rfl
@[simp] theorem State.onEth_seqs (f : Ethernet → Ethernet) : (s.onEth f).seqs = s.seqs := rfl
@[simp] theorem State.onEth_dom (f : Ethernet → Ethernet) : (s.onEth f).dom = s.dom := rfl
@[simp] theorem State.onEth_log (f : Ethernet → Ethernet) : (s.onEth f).log = s.log := rfl
@[simp] theorem State.onEth_cores (f : Ethernet → Ethernet) : (s.onEth f).cores = s.cores := rfl
@[simp] theorem State.onEth_ring (f : Ethernet → Ethernet) : (s.onEth f).ring = s.ring := rfl
@[simp] theorem State.onEth_duo (f : Ethernet → Ethernet) : (s.onEth f).duo = s.duo := rfl
@[simp] theorem State.onEth_pwr (f : Ethernet → Ethernet) : (s.onEth f).pwr = s.pwr := rfl
@[simp] theorem State.onEth_rst (f : Ethernet → Ethernet) : (s.onEth f).rst = s.rst := rfl
@[simp] theorem State.onEth_acs (f : Ethernet → Ethernet) : (s.onEth f).acs = s.acs := rfl
@[simp] theorem State.onEth_upd (f : Ethernet → Ethernet) : (s.onEth f).upd = s.upd := rfl
@[simp] theorem State.onEth_dbg (f : Ethernet → Ethernet) : (s.onEth f).dbg = s.dbg := rfl

@[simp] theorem State.onPort_pending (k : Fin 5) (f : EthPort → EthPort) : (s.onPort k f).pending = s.pending := rfl
@[simp] theorem State.onPort_free (k : Fin 5) (f : EthPort → EthPort) : (s.onPort k f).free = s.free := rfl
@[simp] theorem State.onPort_time (k : Fin 5) (f : EthPort → EthPort) : (s.onPort k f).time = s.time := rfl
@[simp] theorem State.onPort_fab (k : Fin 5) (f : EthPort → EthPort) : (s.onPort k f).fab = s.fab := rfl
@[simp] theorem State.onPort_mem (k : Fin 5) (f : EthPort → EthPort) : (s.onPort k f).mem = s.mem := rfl
@[simp] theorem State.onPort_srv (k : Fin 5) (f : EthPort → EthPort) : (s.onPort k f).srv = s.srv := rfl
@[simp] theorem State.onPort_adm (k : Fin 5) (f : EthPort → EthPort) : (s.onPort k f).adm = s.adm := rfl
@[simp] theorem State.onPort_sup (k : Fin 5) (f : EthPort → EthPort) : (s.onPort k f).sup = s.sup := rfl
@[simp] theorem State.onPort_flt (k : Fin 5) (f : EthPort → EthPort) : (s.onPort k f).flt = s.flt := rfl
@[simp] theorem State.onPort_hs (k : Fin 5) (f : EthPort → EthPort) : (s.onPort k f).hs = s.hs := rfl
@[simp] theorem State.onPort_th (k : Fin 5) (f : EthPort → EthPort) : (s.onPort k f).th = s.th := rfl
@[simp] theorem State.onPort_legs (k : Fin 5) (f : EthPort → EthPort) : (s.onPort k f).legs = s.legs := rfl
@[simp] theorem State.onPort_pairs (k : Fin 5) (f : EthPort → EthPort) : (s.onPort k f).pairs = s.pairs := rfl
@[simp] theorem State.onPort_sout (k : Fin 5) (f : EthPort → EthPort) : (s.onPort k f).sout = s.sout := rfl
@[simp] theorem State.onPort_vd (k : Fin 5) (f : EthPort → EthPort) : (s.onPort k f).vd = s.vd := rfl
@[simp] theorem State.onPort_vb (k : Fin 5) (f : EthPort → EthPort) : (s.onPort k f).vb = s.vb := rfl
@[simp] theorem State.onPort_boost (k : Fin 5) (f : EthPort → EthPort) : (s.onPort k f).boost = s.boost := rfl
@[simp] theorem State.onPort_sinks (k : Fin 5) (f : EthPort → EthPort) : (s.onPort k f).sinks = s.sinks := rfl
@[simp] theorem State.onPort_chain (k : Fin 5) (f : EthPort → EthPort) : (s.onPort k f).chain = s.chain := rfl
@[simp] theorem State.onPort_matrix (k : Fin 5) (f : EthPort → EthPort) : (s.onPort k f).matrix = s.matrix := rfl
@[simp] theorem State.onPort_inputs (k : Fin 5) (f : EthPort → EthPort) : (s.onPort k f).inputs = s.inputs := rfl
@[simp] theorem State.onPort_inLoss (k : Fin 5) (f : EthPort → EthPort) : (s.onPort k f).inLoss = s.inLoss := rfl
@[simp] theorem State.onPort_ios (k : Fin 5) (f : EthPort → EthPort) : (s.onPort k f).ios = s.ios := rfl
@[simp] theorem State.onPort_ans (k : Fin 5) (f : EthPort → EthPort) : (s.onPort k f).ans = s.ans := rfl
@[simp] theorem State.onPort_adc (k : Fin 5) (f : EthPort → EthPort) : (s.onPort k f).adc = s.adc := rfl
@[simp] theorem State.onPort_vq (k : Fin 5) (f : EthPort → EthPort) : (s.onPort k f).vq = s.vq := rfl
@[simp] theorem State.onPort_eng (k : Fin 5) (f : EthPort → EthPort) : (s.onPort k f).eng = s.eng := rfl
@[simp] theorem State.onPort_cans (k : Fin 5) (f : EthPort → EthPort) : (s.onPort k f).cans = s.cans := rfl
@[simp] theorem State.onPort_lins (k : Fin 5) (f : EthPort → EthPort) : (s.onPort k f).lins = s.lins := rfl
@[simp] theorem State.onPort_lq (k : Fin 5) (f : EthPort → EthPort) : (s.onPort k f).lq = s.lq := rfl
@[simp] theorem State.onPort_inq (k : Fin 5) (f : EthPort → EthPort) : (s.onPort k f).inq = s.inq := rfl
@[simp] theorem State.onPort_seqs (k : Fin 5) (f : EthPort → EthPort) : (s.onPort k f).seqs = s.seqs := rfl
@[simp] theorem State.onPort_dom (k : Fin 5) (f : EthPort → EthPort) : (s.onPort k f).dom = s.dom := rfl
@[simp] theorem State.onPort_log (k : Fin 5) (f : EthPort → EthPort) : (s.onPort k f).log = s.log := rfl
@[simp] theorem State.onPort_cores (k : Fin 5) (f : EthPort → EthPort) : (s.onPort k f).cores = s.cores := rfl
@[simp] theorem State.onPort_ring (k : Fin 5) (f : EthPort → EthPort) : (s.onPort k f).ring = s.ring := rfl
@[simp] theorem State.onPort_duo (k : Fin 5) (f : EthPort → EthPort) : (s.onPort k f).duo = s.duo := rfl
@[simp] theorem State.onPort_pwr (k : Fin 5) (f : EthPort → EthPort) : (s.onPort k f).pwr = s.pwr := rfl
@[simp] theorem State.onPort_rst (k : Fin 5) (f : EthPort → EthPort) : (s.onPort k f).rst = s.rst := rfl
@[simp] theorem State.onPort_acs (k : Fin 5) (f : EthPort → EthPort) : (s.onPort k f).acs = s.acs := rfl
@[simp] theorem State.onPort_upd (k : Fin 5) (f : EthPort → EthPort) : (s.onPort k f).upd = s.upd := rfl
@[simp] theorem State.onPort_dbg (k : Fin 5) (f : EthPort → EthPort) : (s.onPort k f).dbg = s.dbg := rfl

@[simp] theorem State.onHs_pending (k : Fin 72) (f : HsChannel → HsChannel) : (s.onHs k f).pending = s.pending := rfl
@[simp] theorem State.onHs_free (k : Fin 72) (f : HsChannel → HsChannel) : (s.onHs k f).free = s.free := rfl
@[simp] theorem State.onHs_time (k : Fin 72) (f : HsChannel → HsChannel) : (s.onHs k f).time = s.time := rfl
@[simp] theorem State.onHs_fab (k : Fin 72) (f : HsChannel → HsChannel) : (s.onHs k f).fab = s.fab := rfl
@[simp] theorem State.onHs_mem (k : Fin 72) (f : HsChannel → HsChannel) : (s.onHs k f).mem = s.mem := rfl
@[simp] theorem State.onHs_srv (k : Fin 72) (f : HsChannel → HsChannel) : (s.onHs k f).srv = s.srv := rfl
@[simp] theorem State.onHs_adm (k : Fin 72) (f : HsChannel → HsChannel) : (s.onHs k f).adm = s.adm := rfl
@[simp] theorem State.onHs_sup (k : Fin 72) (f : HsChannel → HsChannel) : (s.onHs k f).sup = s.sup := rfl
@[simp] theorem State.onHs_flt (k : Fin 72) (f : HsChannel → HsChannel) : (s.onHs k f).flt = s.flt := rfl
@[simp] theorem State.onHs_th (k : Fin 72) (f : HsChannel → HsChannel) : (s.onHs k f).th = s.th := rfl
@[simp] theorem State.onHs_legs (k : Fin 72) (f : HsChannel → HsChannel) : (s.onHs k f).legs = s.legs := rfl
@[simp] theorem State.onHs_pairs (k : Fin 72) (f : HsChannel → HsChannel) : (s.onHs k f).pairs = s.pairs := rfl
@[simp] theorem State.onHs_sout (k : Fin 72) (f : HsChannel → HsChannel) : (s.onHs k f).sout = s.sout := rfl
@[simp] theorem State.onHs_vd (k : Fin 72) (f : HsChannel → HsChannel) : (s.onHs k f).vd = s.vd := rfl
@[simp] theorem State.onHs_vb (k : Fin 72) (f : HsChannel → HsChannel) : (s.onHs k f).vb = s.vb := rfl
@[simp] theorem State.onHs_boost (k : Fin 72) (f : HsChannel → HsChannel) : (s.onHs k f).boost = s.boost := rfl
@[simp] theorem State.onHs_sinks (k : Fin 72) (f : HsChannel → HsChannel) : (s.onHs k f).sinks = s.sinks := rfl
@[simp] theorem State.onHs_chain (k : Fin 72) (f : HsChannel → HsChannel) : (s.onHs k f).chain = s.chain := rfl
@[simp] theorem State.onHs_matrix (k : Fin 72) (f : HsChannel → HsChannel) : (s.onHs k f).matrix = s.matrix := rfl
@[simp] theorem State.onHs_inputs (k : Fin 72) (f : HsChannel → HsChannel) : (s.onHs k f).inputs = s.inputs := rfl
@[simp] theorem State.onHs_inLoss (k : Fin 72) (f : HsChannel → HsChannel) : (s.onHs k f).inLoss = s.inLoss := rfl
@[simp] theorem State.onHs_ios (k : Fin 72) (f : HsChannel → HsChannel) : (s.onHs k f).ios = s.ios := rfl
@[simp] theorem State.onHs_ans (k : Fin 72) (f : HsChannel → HsChannel) : (s.onHs k f).ans = s.ans := rfl
@[simp] theorem State.onHs_adc (k : Fin 72) (f : HsChannel → HsChannel) : (s.onHs k f).adc = s.adc := rfl
@[simp] theorem State.onHs_vq (k : Fin 72) (f : HsChannel → HsChannel) : (s.onHs k f).vq = s.vq := rfl
@[simp] theorem State.onHs_eng (k : Fin 72) (f : HsChannel → HsChannel) : (s.onHs k f).eng = s.eng := rfl
@[simp] theorem State.onHs_cans (k : Fin 72) (f : HsChannel → HsChannel) : (s.onHs k f).cans = s.cans := rfl
@[simp] theorem State.onHs_lins (k : Fin 72) (f : HsChannel → HsChannel) : (s.onHs k f).lins = s.lins := rfl
@[simp] theorem State.onHs_lq (k : Fin 72) (f : HsChannel → HsChannel) : (s.onHs k f).lq = s.lq := rfl
@[simp] theorem State.onHs_inq (k : Fin 72) (f : HsChannel → HsChannel) : (s.onHs k f).inq = s.inq := rfl
@[simp] theorem State.onHs_seqs (k : Fin 72) (f : HsChannel → HsChannel) : (s.onHs k f).seqs = s.seqs := rfl
@[simp] theorem State.onHs_dom (k : Fin 72) (f : HsChannel → HsChannel) : (s.onHs k f).dom = s.dom := rfl
@[simp] theorem State.onHs_log (k : Fin 72) (f : HsChannel → HsChannel) : (s.onHs k f).log = s.log := rfl
@[simp] theorem State.onHs_cores (k : Fin 72) (f : HsChannel → HsChannel) : (s.onHs k f).cores = s.cores := rfl
@[simp] theorem State.onHs_eth (k : Fin 72) (f : HsChannel → HsChannel) : (s.onHs k f).eth = s.eth := rfl
@[simp] theorem State.onHs_ring (k : Fin 72) (f : HsChannel → HsChannel) : (s.onHs k f).ring = s.ring := rfl
@[simp] theorem State.onHs_duo (k : Fin 72) (f : HsChannel → HsChannel) : (s.onHs k f).duo = s.duo := rfl
@[simp] theorem State.onHs_pwr (k : Fin 72) (f : HsChannel → HsChannel) : (s.onHs k f).pwr = s.pwr := rfl
@[simp] theorem State.onHs_rst (k : Fin 72) (f : HsChannel → HsChannel) : (s.onHs k f).rst = s.rst := rfl
@[simp] theorem State.onHs_acs (k : Fin 72) (f : HsChannel → HsChannel) : (s.onHs k f).acs = s.acs := rfl
@[simp] theorem State.onHs_upd (k : Fin 72) (f : HsChannel → HsChannel) : (s.onHs k f).upd = s.upd := rfl
@[simp] theorem State.onHs_dbg (k : Fin 72) (f : HsChannel → HsChannel) : (s.onHs k f).dbg = s.dbg := rfl

@[simp] theorem State.onTh_pending (k : ThermGrp) (f : ThermState → ThermState) : (s.onTh k f).pending = s.pending := rfl
@[simp] theorem State.onTh_free (k : ThermGrp) (f : ThermState → ThermState) : (s.onTh k f).free = s.free := rfl
@[simp] theorem State.onTh_time (k : ThermGrp) (f : ThermState → ThermState) : (s.onTh k f).time = s.time := rfl
@[simp] theorem State.onTh_fab (k : ThermGrp) (f : ThermState → ThermState) : (s.onTh k f).fab = s.fab := rfl
@[simp] theorem State.onTh_mem (k : ThermGrp) (f : ThermState → ThermState) : (s.onTh k f).mem = s.mem := rfl
@[simp] theorem State.onTh_srv (k : ThermGrp) (f : ThermState → ThermState) : (s.onTh k f).srv = s.srv := rfl
@[simp] theorem State.onTh_adm (k : ThermGrp) (f : ThermState → ThermState) : (s.onTh k f).adm = s.adm := rfl
@[simp] theorem State.onTh_sup (k : ThermGrp) (f : ThermState → ThermState) : (s.onTh k f).sup = s.sup := rfl
@[simp] theorem State.onTh_flt (k : ThermGrp) (f : ThermState → ThermState) : (s.onTh k f).flt = s.flt := rfl
@[simp] theorem State.onTh_hs (k : ThermGrp) (f : ThermState → ThermState) : (s.onTh k f).hs = s.hs := rfl
@[simp] theorem State.onTh_legs (k : ThermGrp) (f : ThermState → ThermState) : (s.onTh k f).legs = s.legs := rfl
@[simp] theorem State.onTh_pairs (k : ThermGrp) (f : ThermState → ThermState) : (s.onTh k f).pairs = s.pairs := rfl
@[simp] theorem State.onTh_sout (k : ThermGrp) (f : ThermState → ThermState) : (s.onTh k f).sout = s.sout := rfl
@[simp] theorem State.onTh_vd (k : ThermGrp) (f : ThermState → ThermState) : (s.onTh k f).vd = s.vd := rfl
@[simp] theorem State.onTh_vb (k : ThermGrp) (f : ThermState → ThermState) : (s.onTh k f).vb = s.vb := rfl
@[simp] theorem State.onTh_boost (k : ThermGrp) (f : ThermState → ThermState) : (s.onTh k f).boost = s.boost := rfl
@[simp] theorem State.onTh_sinks (k : ThermGrp) (f : ThermState → ThermState) : (s.onTh k f).sinks = s.sinks := rfl
@[simp] theorem State.onTh_chain (k : ThermGrp) (f : ThermState → ThermState) : (s.onTh k f).chain = s.chain := rfl
@[simp] theorem State.onTh_matrix (k : ThermGrp) (f : ThermState → ThermState) : (s.onTh k f).matrix = s.matrix := rfl
@[simp] theorem State.onTh_inputs (k : ThermGrp) (f : ThermState → ThermState) : (s.onTh k f).inputs = s.inputs := rfl
@[simp] theorem State.onTh_inLoss (k : ThermGrp) (f : ThermState → ThermState) : (s.onTh k f).inLoss = s.inLoss := rfl
@[simp] theorem State.onTh_ios (k : ThermGrp) (f : ThermState → ThermState) : (s.onTh k f).ios = s.ios := rfl
@[simp] theorem State.onTh_ans (k : ThermGrp) (f : ThermState → ThermState) : (s.onTh k f).ans = s.ans := rfl
@[simp] theorem State.onTh_adc (k : ThermGrp) (f : ThermState → ThermState) : (s.onTh k f).adc = s.adc := rfl
@[simp] theorem State.onTh_vq (k : ThermGrp) (f : ThermState → ThermState) : (s.onTh k f).vq = s.vq := rfl
@[simp] theorem State.onTh_eng (k : ThermGrp) (f : ThermState → ThermState) : (s.onTh k f).eng = s.eng := rfl
@[simp] theorem State.onTh_cans (k : ThermGrp) (f : ThermState → ThermState) : (s.onTh k f).cans = s.cans := rfl
@[simp] theorem State.onTh_lins (k : ThermGrp) (f : ThermState → ThermState) : (s.onTh k f).lins = s.lins := rfl
@[simp] theorem State.onTh_lq (k : ThermGrp) (f : ThermState → ThermState) : (s.onTh k f).lq = s.lq := rfl
@[simp] theorem State.onTh_inq (k : ThermGrp) (f : ThermState → ThermState) : (s.onTh k f).inq = s.inq := rfl
@[simp] theorem State.onTh_seqs (k : ThermGrp) (f : ThermState → ThermState) : (s.onTh k f).seqs = s.seqs := rfl
@[simp] theorem State.onTh_dom (k : ThermGrp) (f : ThermState → ThermState) : (s.onTh k f).dom = s.dom := rfl
@[simp] theorem State.onTh_log (k : ThermGrp) (f : ThermState → ThermState) : (s.onTh k f).log = s.log := rfl
@[simp] theorem State.onTh_cores (k : ThermGrp) (f : ThermState → ThermState) : (s.onTh k f).cores = s.cores := rfl
@[simp] theorem State.onTh_eth (k : ThermGrp) (f : ThermState → ThermState) : (s.onTh k f).eth = s.eth := rfl
@[simp] theorem State.onTh_ring (k : ThermGrp) (f : ThermState → ThermState) : (s.onTh k f).ring = s.ring := rfl
@[simp] theorem State.onTh_duo (k : ThermGrp) (f : ThermState → ThermState) : (s.onTh k f).duo = s.duo := rfl
@[simp] theorem State.onTh_pwr (k : ThermGrp) (f : ThermState → ThermState) : (s.onTh k f).pwr = s.pwr := rfl
@[simp] theorem State.onTh_rst (k : ThermGrp) (f : ThermState → ThermState) : (s.onTh k f).rst = s.rst := rfl
@[simp] theorem State.onTh_acs (k : ThermGrp) (f : ThermState → ThermState) : (s.onTh k f).acs = s.acs := rfl
@[simp] theorem State.onTh_upd (k : ThermGrp) (f : ThermState → ThermState) : (s.onTh k f).upd = s.upd := rfl
@[simp] theorem State.onTh_dbg (k : ThermGrp) (f : ThermState → ThermState) : (s.onTh k f).dbg = s.dbg := rfl

@[simp] theorem State.onIn_pending (k : Fin 80) (f : Input → Input) : (s.onIn k f).pending = s.pending := rfl
@[simp] theorem State.onIn_free (k : Fin 80) (f : Input → Input) : (s.onIn k f).free = s.free := rfl
@[simp] theorem State.onIn_time (k : Fin 80) (f : Input → Input) : (s.onIn k f).time = s.time := rfl
@[simp] theorem State.onIn_fab (k : Fin 80) (f : Input → Input) : (s.onIn k f).fab = s.fab := rfl
@[simp] theorem State.onIn_mem (k : Fin 80) (f : Input → Input) : (s.onIn k f).mem = s.mem := rfl
@[simp] theorem State.onIn_srv (k : Fin 80) (f : Input → Input) : (s.onIn k f).srv = s.srv := rfl
@[simp] theorem State.onIn_adm (k : Fin 80) (f : Input → Input) : (s.onIn k f).adm = s.adm := rfl
@[simp] theorem State.onIn_sup (k : Fin 80) (f : Input → Input) : (s.onIn k f).sup = s.sup := rfl
@[simp] theorem State.onIn_flt (k : Fin 80) (f : Input → Input) : (s.onIn k f).flt = s.flt := rfl
@[simp] theorem State.onIn_hs (k : Fin 80) (f : Input → Input) : (s.onIn k f).hs = s.hs := rfl
@[simp] theorem State.onIn_th (k : Fin 80) (f : Input → Input) : (s.onIn k f).th = s.th := rfl
@[simp] theorem State.onIn_legs (k : Fin 80) (f : Input → Input) : (s.onIn k f).legs = s.legs := rfl
@[simp] theorem State.onIn_pairs (k : Fin 80) (f : Input → Input) : (s.onIn k f).pairs = s.pairs := rfl
@[simp] theorem State.onIn_sout (k : Fin 80) (f : Input → Input) : (s.onIn k f).sout = s.sout := rfl
@[simp] theorem State.onIn_vd (k : Fin 80) (f : Input → Input) : (s.onIn k f).vd = s.vd := rfl
@[simp] theorem State.onIn_vb (k : Fin 80) (f : Input → Input) : (s.onIn k f).vb = s.vb := rfl
@[simp] theorem State.onIn_boost (k : Fin 80) (f : Input → Input) : (s.onIn k f).boost = s.boost := rfl
@[simp] theorem State.onIn_sinks (k : Fin 80) (f : Input → Input) : (s.onIn k f).sinks = s.sinks := rfl
@[simp] theorem State.onIn_chain (k : Fin 80) (f : Input → Input) : (s.onIn k f).chain = s.chain := rfl
@[simp] theorem State.onIn_matrix (k : Fin 80) (f : Input → Input) : (s.onIn k f).matrix = s.matrix := rfl
@[simp] theorem State.onIn_inLoss (k : Fin 80) (f : Input → Input) : (s.onIn k f).inLoss = s.inLoss := rfl
@[simp] theorem State.onIn_ios (k : Fin 80) (f : Input → Input) : (s.onIn k f).ios = s.ios := rfl
@[simp] theorem State.onIn_ans (k : Fin 80) (f : Input → Input) : (s.onIn k f).ans = s.ans := rfl
@[simp] theorem State.onIn_adc (k : Fin 80) (f : Input → Input) : (s.onIn k f).adc = s.adc := rfl
@[simp] theorem State.onIn_vq (k : Fin 80) (f : Input → Input) : (s.onIn k f).vq = s.vq := rfl
@[simp] theorem State.onIn_eng (k : Fin 80) (f : Input → Input) : (s.onIn k f).eng = s.eng := rfl
@[simp] theorem State.onIn_cans (k : Fin 80) (f : Input → Input) : (s.onIn k f).cans = s.cans := rfl
@[simp] theorem State.onIn_lins (k : Fin 80) (f : Input → Input) : (s.onIn k f).lins = s.lins := rfl
@[simp] theorem State.onIn_lq (k : Fin 80) (f : Input → Input) : (s.onIn k f).lq = s.lq := rfl
@[simp] theorem State.onIn_inq (k : Fin 80) (f : Input → Input) : (s.onIn k f).inq = s.inq := rfl
@[simp] theorem State.onIn_seqs (k : Fin 80) (f : Input → Input) : (s.onIn k f).seqs = s.seqs := rfl
@[simp] theorem State.onIn_dom (k : Fin 80) (f : Input → Input) : (s.onIn k f).dom = s.dom := rfl
@[simp] theorem State.onIn_log (k : Fin 80) (f : Input → Input) : (s.onIn k f).log = s.log := rfl
@[simp] theorem State.onIn_cores (k : Fin 80) (f : Input → Input) : (s.onIn k f).cores = s.cores := rfl
@[simp] theorem State.onIn_eth (k : Fin 80) (f : Input → Input) : (s.onIn k f).eth = s.eth := rfl
@[simp] theorem State.onIn_ring (k : Fin 80) (f : Input → Input) : (s.onIn k f).ring = s.ring := rfl
@[simp] theorem State.onIn_duo (k : Fin 80) (f : Input → Input) : (s.onIn k f).duo = s.duo := rfl
@[simp] theorem State.onIn_pwr (k : Fin 80) (f : Input → Input) : (s.onIn k f).pwr = s.pwr := rfl
@[simp] theorem State.onIn_rst (k : Fin 80) (f : Input → Input) : (s.onIn k f).rst = s.rst := rfl
@[simp] theorem State.onIn_acs (k : Fin 80) (f : Input → Input) : (s.onIn k f).acs = s.acs := rfl
@[simp] theorem State.onIn_upd (k : Fin 80) (f : Input → Input) : (s.onIn k f).upd = s.upd := rfl
@[simp] theorem State.onIn_dbg (k : Fin 80) (f : Input → Input) : (s.onIn k f).dbg = s.dbg := rfl

@[simp] theorem State.onIo_pending (k : Fin 16) (f : IoPin → IoPin) : (s.onIo k f).pending = s.pending := rfl
@[simp] theorem State.onIo_free (k : Fin 16) (f : IoPin → IoPin) : (s.onIo k f).free = s.free := rfl
@[simp] theorem State.onIo_time (k : Fin 16) (f : IoPin → IoPin) : (s.onIo k f).time = s.time := rfl
@[simp] theorem State.onIo_fab (k : Fin 16) (f : IoPin → IoPin) : (s.onIo k f).fab = s.fab := rfl
@[simp] theorem State.onIo_mem (k : Fin 16) (f : IoPin → IoPin) : (s.onIo k f).mem = s.mem := rfl
@[simp] theorem State.onIo_srv (k : Fin 16) (f : IoPin → IoPin) : (s.onIo k f).srv = s.srv := rfl
@[simp] theorem State.onIo_adm (k : Fin 16) (f : IoPin → IoPin) : (s.onIo k f).adm = s.adm := rfl
@[simp] theorem State.onIo_sup (k : Fin 16) (f : IoPin → IoPin) : (s.onIo k f).sup = s.sup := rfl
@[simp] theorem State.onIo_flt (k : Fin 16) (f : IoPin → IoPin) : (s.onIo k f).flt = s.flt := rfl
@[simp] theorem State.onIo_hs (k : Fin 16) (f : IoPin → IoPin) : (s.onIo k f).hs = s.hs := rfl
@[simp] theorem State.onIo_th (k : Fin 16) (f : IoPin → IoPin) : (s.onIo k f).th = s.th := rfl
@[simp] theorem State.onIo_legs (k : Fin 16) (f : IoPin → IoPin) : (s.onIo k f).legs = s.legs := rfl
@[simp] theorem State.onIo_pairs (k : Fin 16) (f : IoPin → IoPin) : (s.onIo k f).pairs = s.pairs := rfl
@[simp] theorem State.onIo_sout (k : Fin 16) (f : IoPin → IoPin) : (s.onIo k f).sout = s.sout := rfl
@[simp] theorem State.onIo_vd (k : Fin 16) (f : IoPin → IoPin) : (s.onIo k f).vd = s.vd := rfl
@[simp] theorem State.onIo_vb (k : Fin 16) (f : IoPin → IoPin) : (s.onIo k f).vb = s.vb := rfl
@[simp] theorem State.onIo_boost (k : Fin 16) (f : IoPin → IoPin) : (s.onIo k f).boost = s.boost := rfl
@[simp] theorem State.onIo_sinks (k : Fin 16) (f : IoPin → IoPin) : (s.onIo k f).sinks = s.sinks := rfl
@[simp] theorem State.onIo_chain (k : Fin 16) (f : IoPin → IoPin) : (s.onIo k f).chain = s.chain := rfl
@[simp] theorem State.onIo_matrix (k : Fin 16) (f : IoPin → IoPin) : (s.onIo k f).matrix = s.matrix := rfl
@[simp] theorem State.onIo_inputs (k : Fin 16) (f : IoPin → IoPin) : (s.onIo k f).inputs = s.inputs := rfl
@[simp] theorem State.onIo_inLoss (k : Fin 16) (f : IoPin → IoPin) : (s.onIo k f).inLoss = s.inLoss := rfl
@[simp] theorem State.onIo_ans (k : Fin 16) (f : IoPin → IoPin) : (s.onIo k f).ans = s.ans := rfl
@[simp] theorem State.onIo_adc (k : Fin 16) (f : IoPin → IoPin) : (s.onIo k f).adc = s.adc := rfl
@[simp] theorem State.onIo_vq (k : Fin 16) (f : IoPin → IoPin) : (s.onIo k f).vq = s.vq := rfl
@[simp] theorem State.onIo_eng (k : Fin 16) (f : IoPin → IoPin) : (s.onIo k f).eng = s.eng := rfl
@[simp] theorem State.onIo_cans (k : Fin 16) (f : IoPin → IoPin) : (s.onIo k f).cans = s.cans := rfl
@[simp] theorem State.onIo_lins (k : Fin 16) (f : IoPin → IoPin) : (s.onIo k f).lins = s.lins := rfl
@[simp] theorem State.onIo_lq (k : Fin 16) (f : IoPin → IoPin) : (s.onIo k f).lq = s.lq := rfl
@[simp] theorem State.onIo_inq (k : Fin 16) (f : IoPin → IoPin) : (s.onIo k f).inq = s.inq := rfl
@[simp] theorem State.onIo_seqs (k : Fin 16) (f : IoPin → IoPin) : (s.onIo k f).seqs = s.seqs := rfl
@[simp] theorem State.onIo_dom (k : Fin 16) (f : IoPin → IoPin) : (s.onIo k f).dom = s.dom := rfl
@[simp] theorem State.onIo_log (k : Fin 16) (f : IoPin → IoPin) : (s.onIo k f).log = s.log := rfl
@[simp] theorem State.onIo_cores (k : Fin 16) (f : IoPin → IoPin) : (s.onIo k f).cores = s.cores := rfl
@[simp] theorem State.onIo_eth (k : Fin 16) (f : IoPin → IoPin) : (s.onIo k f).eth = s.eth := rfl
@[simp] theorem State.onIo_ring (k : Fin 16) (f : IoPin → IoPin) : (s.onIo k f).ring = s.ring := rfl
@[simp] theorem State.onIo_duo (k : Fin 16) (f : IoPin → IoPin) : (s.onIo k f).duo = s.duo := rfl
@[simp] theorem State.onIo_pwr (k : Fin 16) (f : IoPin → IoPin) : (s.onIo k f).pwr = s.pwr := rfl
@[simp] theorem State.onIo_rst (k : Fin 16) (f : IoPin → IoPin) : (s.onIo k f).rst = s.rst := rfl
@[simp] theorem State.onIo_acs (k : Fin 16) (f : IoPin → IoPin) : (s.onIo k f).acs = s.acs := rfl
@[simp] theorem State.onIo_upd (k : Fin 16) (f : IoPin → IoPin) : (s.onIo k f).upd = s.upd := rfl
@[simp] theorem State.onIo_dbg (k : Fin 16) (f : IoPin → IoPin) : (s.onIo k f).dbg = s.dbg := rfl

@[simp] theorem State.onAn_pending (k : Fin 16) (f : Analog → Analog) : (s.onAn k f).pending = s.pending := rfl
@[simp] theorem State.onAn_free (k : Fin 16) (f : Analog → Analog) : (s.onAn k f).free = s.free := rfl
@[simp] theorem State.onAn_time (k : Fin 16) (f : Analog → Analog) : (s.onAn k f).time = s.time := rfl
@[simp] theorem State.onAn_fab (k : Fin 16) (f : Analog → Analog) : (s.onAn k f).fab = s.fab := rfl
@[simp] theorem State.onAn_mem (k : Fin 16) (f : Analog → Analog) : (s.onAn k f).mem = s.mem := rfl
@[simp] theorem State.onAn_srv (k : Fin 16) (f : Analog → Analog) : (s.onAn k f).srv = s.srv := rfl
@[simp] theorem State.onAn_adm (k : Fin 16) (f : Analog → Analog) : (s.onAn k f).adm = s.adm := rfl
@[simp] theorem State.onAn_sup (k : Fin 16) (f : Analog → Analog) : (s.onAn k f).sup = s.sup := rfl
@[simp] theorem State.onAn_flt (k : Fin 16) (f : Analog → Analog) : (s.onAn k f).flt = s.flt := rfl
@[simp] theorem State.onAn_hs (k : Fin 16) (f : Analog → Analog) : (s.onAn k f).hs = s.hs := rfl
@[simp] theorem State.onAn_th (k : Fin 16) (f : Analog → Analog) : (s.onAn k f).th = s.th := rfl
@[simp] theorem State.onAn_legs (k : Fin 16) (f : Analog → Analog) : (s.onAn k f).legs = s.legs := rfl
@[simp] theorem State.onAn_pairs (k : Fin 16) (f : Analog → Analog) : (s.onAn k f).pairs = s.pairs := rfl
@[simp] theorem State.onAn_sout (k : Fin 16) (f : Analog → Analog) : (s.onAn k f).sout = s.sout := rfl
@[simp] theorem State.onAn_vd (k : Fin 16) (f : Analog → Analog) : (s.onAn k f).vd = s.vd := rfl
@[simp] theorem State.onAn_vb (k : Fin 16) (f : Analog → Analog) : (s.onAn k f).vb = s.vb := rfl
@[simp] theorem State.onAn_boost (k : Fin 16) (f : Analog → Analog) : (s.onAn k f).boost = s.boost := rfl
@[simp] theorem State.onAn_sinks (k : Fin 16) (f : Analog → Analog) : (s.onAn k f).sinks = s.sinks := rfl
@[simp] theorem State.onAn_chain (k : Fin 16) (f : Analog → Analog) : (s.onAn k f).chain = s.chain := rfl
@[simp] theorem State.onAn_matrix (k : Fin 16) (f : Analog → Analog) : (s.onAn k f).matrix = s.matrix := rfl
@[simp] theorem State.onAn_inputs (k : Fin 16) (f : Analog → Analog) : (s.onAn k f).inputs = s.inputs := rfl
@[simp] theorem State.onAn_inLoss (k : Fin 16) (f : Analog → Analog) : (s.onAn k f).inLoss = s.inLoss := rfl
@[simp] theorem State.onAn_ios (k : Fin 16) (f : Analog → Analog) : (s.onAn k f).ios = s.ios := rfl
@[simp] theorem State.onAn_adc (k : Fin 16) (f : Analog → Analog) : (s.onAn k f).adc = s.adc := rfl
@[simp] theorem State.onAn_vq (k : Fin 16) (f : Analog → Analog) : (s.onAn k f).vq = s.vq := rfl
@[simp] theorem State.onAn_eng (k : Fin 16) (f : Analog → Analog) : (s.onAn k f).eng = s.eng := rfl
@[simp] theorem State.onAn_cans (k : Fin 16) (f : Analog → Analog) : (s.onAn k f).cans = s.cans := rfl
@[simp] theorem State.onAn_lins (k : Fin 16) (f : Analog → Analog) : (s.onAn k f).lins = s.lins := rfl
@[simp] theorem State.onAn_lq (k : Fin 16) (f : Analog → Analog) : (s.onAn k f).lq = s.lq := rfl
@[simp] theorem State.onAn_inq (k : Fin 16) (f : Analog → Analog) : (s.onAn k f).inq = s.inq := rfl
@[simp] theorem State.onAn_seqs (k : Fin 16) (f : Analog → Analog) : (s.onAn k f).seqs = s.seqs := rfl
@[simp] theorem State.onAn_dom (k : Fin 16) (f : Analog → Analog) : (s.onAn k f).dom = s.dom := rfl
@[simp] theorem State.onAn_log (k : Fin 16) (f : Analog → Analog) : (s.onAn k f).log = s.log := rfl
@[simp] theorem State.onAn_cores (k : Fin 16) (f : Analog → Analog) : (s.onAn k f).cores = s.cores := rfl
@[simp] theorem State.onAn_eth (k : Fin 16) (f : Analog → Analog) : (s.onAn k f).eth = s.eth := rfl
@[simp] theorem State.onAn_ring (k : Fin 16) (f : Analog → Analog) : (s.onAn k f).ring = s.ring := rfl
@[simp] theorem State.onAn_duo (k : Fin 16) (f : Analog → Analog) : (s.onAn k f).duo = s.duo := rfl
@[simp] theorem State.onAn_pwr (k : Fin 16) (f : Analog → Analog) : (s.onAn k f).pwr = s.pwr := rfl
@[simp] theorem State.onAn_rst (k : Fin 16) (f : Analog → Analog) : (s.onAn k f).rst = s.rst := rfl
@[simp] theorem State.onAn_acs (k : Fin 16) (f : Analog → Analog) : (s.onAn k f).acs = s.acs := rfl
@[simp] theorem State.onAn_upd (k : Fin 16) (f : Analog → Analog) : (s.onAn k f).upd = s.upd := rfl
@[simp] theorem State.onAn_dbg (k : Fin 16) (f : Analog → Analog) : (s.onAn k f).dbg = s.dbg := rfl

@[simp] theorem State.onAdc_pending (f : AdcState → AdcState) : (s.onAdc f).pending = s.pending := rfl
@[simp] theorem State.onAdc_free (f : AdcState → AdcState) : (s.onAdc f).free = s.free := rfl
@[simp] theorem State.onAdc_time (f : AdcState → AdcState) : (s.onAdc f).time = s.time := rfl
@[simp] theorem State.onAdc_fab (f : AdcState → AdcState) : (s.onAdc f).fab = s.fab := rfl
@[simp] theorem State.onAdc_mem (f : AdcState → AdcState) : (s.onAdc f).mem = s.mem := rfl
@[simp] theorem State.onAdc_srv (f : AdcState → AdcState) : (s.onAdc f).srv = s.srv := rfl
@[simp] theorem State.onAdc_adm (f : AdcState → AdcState) : (s.onAdc f).adm = s.adm := rfl
@[simp] theorem State.onAdc_sup (f : AdcState → AdcState) : (s.onAdc f).sup = s.sup := rfl
@[simp] theorem State.onAdc_flt (f : AdcState → AdcState) : (s.onAdc f).flt = s.flt := rfl
@[simp] theorem State.onAdc_hs (f : AdcState → AdcState) : (s.onAdc f).hs = s.hs := rfl
@[simp] theorem State.onAdc_th (f : AdcState → AdcState) : (s.onAdc f).th = s.th := rfl
@[simp] theorem State.onAdc_legs (f : AdcState → AdcState) : (s.onAdc f).legs = s.legs := rfl
@[simp] theorem State.onAdc_pairs (f : AdcState → AdcState) : (s.onAdc f).pairs = s.pairs := rfl
@[simp] theorem State.onAdc_sout (f : AdcState → AdcState) : (s.onAdc f).sout = s.sout := rfl
@[simp] theorem State.onAdc_vd (f : AdcState → AdcState) : (s.onAdc f).vd = s.vd := rfl
@[simp] theorem State.onAdc_vb (f : AdcState → AdcState) : (s.onAdc f).vb = s.vb := rfl
@[simp] theorem State.onAdc_boost (f : AdcState → AdcState) : (s.onAdc f).boost = s.boost := rfl
@[simp] theorem State.onAdc_sinks (f : AdcState → AdcState) : (s.onAdc f).sinks = s.sinks := rfl
@[simp] theorem State.onAdc_chain (f : AdcState → AdcState) : (s.onAdc f).chain = s.chain := rfl
@[simp] theorem State.onAdc_matrix (f : AdcState → AdcState) : (s.onAdc f).matrix = s.matrix := rfl
@[simp] theorem State.onAdc_inputs (f : AdcState → AdcState) : (s.onAdc f).inputs = s.inputs := rfl
@[simp] theorem State.onAdc_inLoss (f : AdcState → AdcState) : (s.onAdc f).inLoss = s.inLoss := rfl
@[simp] theorem State.onAdc_ios (f : AdcState → AdcState) : (s.onAdc f).ios = s.ios := rfl
@[simp] theorem State.onAdc_ans (f : AdcState → AdcState) : (s.onAdc f).ans = s.ans := rfl
@[simp] theorem State.onAdc_vq (f : AdcState → AdcState) : (s.onAdc f).vq = s.vq := rfl
@[simp] theorem State.onAdc_eng (f : AdcState → AdcState) : (s.onAdc f).eng = s.eng := rfl
@[simp] theorem State.onAdc_cans (f : AdcState → AdcState) : (s.onAdc f).cans = s.cans := rfl
@[simp] theorem State.onAdc_lins (f : AdcState → AdcState) : (s.onAdc f).lins = s.lins := rfl
@[simp] theorem State.onAdc_lq (f : AdcState → AdcState) : (s.onAdc f).lq = s.lq := rfl
@[simp] theorem State.onAdc_inq (f : AdcState → AdcState) : (s.onAdc f).inq = s.inq := rfl
@[simp] theorem State.onAdc_seqs (f : AdcState → AdcState) : (s.onAdc f).seqs = s.seqs := rfl
@[simp] theorem State.onAdc_dom (f : AdcState → AdcState) : (s.onAdc f).dom = s.dom := rfl
@[simp] theorem State.onAdc_log (f : AdcState → AdcState) : (s.onAdc f).log = s.log := rfl
@[simp] theorem State.onAdc_cores (f : AdcState → AdcState) : (s.onAdc f).cores = s.cores := rfl
@[simp] theorem State.onAdc_eth (f : AdcState → AdcState) : (s.onAdc f).eth = s.eth := rfl
@[simp] theorem State.onAdc_ring (f : AdcState → AdcState) : (s.onAdc f).ring = s.ring := rfl
@[simp] theorem State.onAdc_duo (f : AdcState → AdcState) : (s.onAdc f).duo = s.duo := rfl
@[simp] theorem State.onAdc_pwr (f : AdcState → AdcState) : (s.onAdc f).pwr = s.pwr := rfl
@[simp] theorem State.onAdc_rst (f : AdcState → AdcState) : (s.onAdc f).rst = s.rst := rfl
@[simp] theorem State.onAdc_acs (f : AdcState → AdcState) : (s.onAdc f).acs = s.acs := rfl
@[simp] theorem State.onAdc_upd (f : AdcState → AdcState) : (s.onAdc f).upd = s.upd := rfl
@[simp] theorem State.onAdc_dbg (f : AdcState → AdcState) : (s.onAdc f).dbg = s.dbg := rfl

@[simp] theorem State.onSink_pending (k : Fin 24) (f : Sink → Sink) : (s.onSink k f).pending = s.pending := rfl
@[simp] theorem State.onSink_free (k : Fin 24) (f : Sink → Sink) : (s.onSink k f).free = s.free := rfl
@[simp] theorem State.onSink_time (k : Fin 24) (f : Sink → Sink) : (s.onSink k f).time = s.time := rfl
@[simp] theorem State.onSink_fab (k : Fin 24) (f : Sink → Sink) : (s.onSink k f).fab = s.fab := rfl
@[simp] theorem State.onSink_mem (k : Fin 24) (f : Sink → Sink) : (s.onSink k f).mem = s.mem := rfl
@[simp] theorem State.onSink_srv (k : Fin 24) (f : Sink → Sink) : (s.onSink k f).srv = s.srv := rfl
@[simp] theorem State.onSink_adm (k : Fin 24) (f : Sink → Sink) : (s.onSink k f).adm = s.adm := rfl
@[simp] theorem State.onSink_sup (k : Fin 24) (f : Sink → Sink) : (s.onSink k f).sup = s.sup := rfl
@[simp] theorem State.onSink_flt (k : Fin 24) (f : Sink → Sink) : (s.onSink k f).flt = s.flt := rfl
@[simp] theorem State.onSink_hs (k : Fin 24) (f : Sink → Sink) : (s.onSink k f).hs = s.hs := rfl
@[simp] theorem State.onSink_th (k : Fin 24) (f : Sink → Sink) : (s.onSink k f).th = s.th := rfl
@[simp] theorem State.onSink_legs (k : Fin 24) (f : Sink → Sink) : (s.onSink k f).legs = s.legs := rfl
@[simp] theorem State.onSink_pairs (k : Fin 24) (f : Sink → Sink) : (s.onSink k f).pairs = s.pairs := rfl
@[simp] theorem State.onSink_sout (k : Fin 24) (f : Sink → Sink) : (s.onSink k f).sout = s.sout := rfl
@[simp] theorem State.onSink_vd (k : Fin 24) (f : Sink → Sink) : (s.onSink k f).vd = s.vd := rfl
@[simp] theorem State.onSink_vb (k : Fin 24) (f : Sink → Sink) : (s.onSink k f).vb = s.vb := rfl
@[simp] theorem State.onSink_boost (k : Fin 24) (f : Sink → Sink) : (s.onSink k f).boost = s.boost := rfl
@[simp] theorem State.onSink_chain (k : Fin 24) (f : Sink → Sink) : (s.onSink k f).chain = s.chain := rfl
@[simp] theorem State.onSink_matrix (k : Fin 24) (f : Sink → Sink) : (s.onSink k f).matrix = s.matrix := rfl
@[simp] theorem State.onSink_inputs (k : Fin 24) (f : Sink → Sink) : (s.onSink k f).inputs = s.inputs := rfl
@[simp] theorem State.onSink_inLoss (k : Fin 24) (f : Sink → Sink) : (s.onSink k f).inLoss = s.inLoss := rfl
@[simp] theorem State.onSink_ios (k : Fin 24) (f : Sink → Sink) : (s.onSink k f).ios = s.ios := rfl
@[simp] theorem State.onSink_ans (k : Fin 24) (f : Sink → Sink) : (s.onSink k f).ans = s.ans := rfl
@[simp] theorem State.onSink_adc (k : Fin 24) (f : Sink → Sink) : (s.onSink k f).adc = s.adc := rfl
@[simp] theorem State.onSink_vq (k : Fin 24) (f : Sink → Sink) : (s.onSink k f).vq = s.vq := rfl
@[simp] theorem State.onSink_eng (k : Fin 24) (f : Sink → Sink) : (s.onSink k f).eng = s.eng := rfl
@[simp] theorem State.onSink_cans (k : Fin 24) (f : Sink → Sink) : (s.onSink k f).cans = s.cans := rfl
@[simp] theorem State.onSink_lins (k : Fin 24) (f : Sink → Sink) : (s.onSink k f).lins = s.lins := rfl
@[simp] theorem State.onSink_lq (k : Fin 24) (f : Sink → Sink) : (s.onSink k f).lq = s.lq := rfl
@[simp] theorem State.onSink_inq (k : Fin 24) (f : Sink → Sink) : (s.onSink k f).inq = s.inq := rfl
@[simp] theorem State.onSink_seqs (k : Fin 24) (f : Sink → Sink) : (s.onSink k f).seqs = s.seqs := rfl
@[simp] theorem State.onSink_dom (k : Fin 24) (f : Sink → Sink) : (s.onSink k f).dom = s.dom := rfl
@[simp] theorem State.onSink_log (k : Fin 24) (f : Sink → Sink) : (s.onSink k f).log = s.log := rfl
@[simp] theorem State.onSink_cores (k : Fin 24) (f : Sink → Sink) : (s.onSink k f).cores = s.cores := rfl
@[simp] theorem State.onSink_eth (k : Fin 24) (f : Sink → Sink) : (s.onSink k f).eth = s.eth := rfl
@[simp] theorem State.onSink_ring (k : Fin 24) (f : Sink → Sink) : (s.onSink k f).ring = s.ring := rfl
@[simp] theorem State.onSink_duo (k : Fin 24) (f : Sink → Sink) : (s.onSink k f).duo = s.duo := rfl
@[simp] theorem State.onSink_pwr (k : Fin 24) (f : Sink → Sink) : (s.onSink k f).pwr = s.pwr := rfl
@[simp] theorem State.onSink_rst (k : Fin 24) (f : Sink → Sink) : (s.onSink k f).rst = s.rst := rfl
@[simp] theorem State.onSink_acs (k : Fin 24) (f : Sink → Sink) : (s.onSink k f).acs = s.acs := rfl
@[simp] theorem State.onSink_upd (k : Fin 24) (f : Sink → Sink) : (s.onSink k f).upd = s.upd := rfl
@[simp] theorem State.onSink_dbg (k : Fin 24) (f : Sink → Sink) : (s.onSink k f).dbg = s.dbg := rfl

@[simp] theorem State.onChain_pending (f : Chain → Chain) : (s.onChain f).pending = s.pending := rfl
@[simp] theorem State.onChain_free (f : Chain → Chain) : (s.onChain f).free = s.free := rfl
@[simp] theorem State.onChain_time (f : Chain → Chain) : (s.onChain f).time = s.time := rfl
@[simp] theorem State.onChain_fab (f : Chain → Chain) : (s.onChain f).fab = s.fab := rfl
@[simp] theorem State.onChain_mem (f : Chain → Chain) : (s.onChain f).mem = s.mem := rfl
@[simp] theorem State.onChain_srv (f : Chain → Chain) : (s.onChain f).srv = s.srv := rfl
@[simp] theorem State.onChain_adm (f : Chain → Chain) : (s.onChain f).adm = s.adm := rfl
@[simp] theorem State.onChain_sup (f : Chain → Chain) : (s.onChain f).sup = s.sup := rfl
@[simp] theorem State.onChain_flt (f : Chain → Chain) : (s.onChain f).flt = s.flt := rfl
@[simp] theorem State.onChain_hs (f : Chain → Chain) : (s.onChain f).hs = s.hs := rfl
@[simp] theorem State.onChain_th (f : Chain → Chain) : (s.onChain f).th = s.th := rfl
@[simp] theorem State.onChain_legs (f : Chain → Chain) : (s.onChain f).legs = s.legs := rfl
@[simp] theorem State.onChain_pairs (f : Chain → Chain) : (s.onChain f).pairs = s.pairs := rfl
@[simp] theorem State.onChain_sout (f : Chain → Chain) : (s.onChain f).sout = s.sout := rfl
@[simp] theorem State.onChain_vd (f : Chain → Chain) : (s.onChain f).vd = s.vd := rfl
@[simp] theorem State.onChain_vb (f : Chain → Chain) : (s.onChain f).vb = s.vb := rfl
@[simp] theorem State.onChain_boost (f : Chain → Chain) : (s.onChain f).boost = s.boost := rfl
@[simp] theorem State.onChain_sinks (f : Chain → Chain) : (s.onChain f).sinks = s.sinks := rfl
@[simp] theorem State.onChain_matrix (f : Chain → Chain) : (s.onChain f).matrix = s.matrix := rfl
@[simp] theorem State.onChain_inputs (f : Chain → Chain) : (s.onChain f).inputs = s.inputs := rfl
@[simp] theorem State.onChain_inLoss (f : Chain → Chain) : (s.onChain f).inLoss = s.inLoss := rfl
@[simp] theorem State.onChain_ios (f : Chain → Chain) : (s.onChain f).ios = s.ios := rfl
@[simp] theorem State.onChain_ans (f : Chain → Chain) : (s.onChain f).ans = s.ans := rfl
@[simp] theorem State.onChain_adc (f : Chain → Chain) : (s.onChain f).adc = s.adc := rfl
@[simp] theorem State.onChain_vq (f : Chain → Chain) : (s.onChain f).vq = s.vq := rfl
@[simp] theorem State.onChain_eng (f : Chain → Chain) : (s.onChain f).eng = s.eng := rfl
@[simp] theorem State.onChain_cans (f : Chain → Chain) : (s.onChain f).cans = s.cans := rfl
@[simp] theorem State.onChain_lins (f : Chain → Chain) : (s.onChain f).lins = s.lins := rfl
@[simp] theorem State.onChain_lq (f : Chain → Chain) : (s.onChain f).lq = s.lq := rfl
@[simp] theorem State.onChain_inq (f : Chain → Chain) : (s.onChain f).inq = s.inq := rfl
@[simp] theorem State.onChain_seqs (f : Chain → Chain) : (s.onChain f).seqs = s.seqs := rfl
@[simp] theorem State.onChain_dom (f : Chain → Chain) : (s.onChain f).dom = s.dom := rfl
@[simp] theorem State.onChain_log (f : Chain → Chain) : (s.onChain f).log = s.log := rfl
@[simp] theorem State.onChain_cores (f : Chain → Chain) : (s.onChain f).cores = s.cores := rfl
@[simp] theorem State.onChain_eth (f : Chain → Chain) : (s.onChain f).eth = s.eth := rfl
@[simp] theorem State.onChain_ring (f : Chain → Chain) : (s.onChain f).ring = s.ring := rfl
@[simp] theorem State.onChain_duo (f : Chain → Chain) : (s.onChain f).duo = s.duo := rfl
@[simp] theorem State.onChain_pwr (f : Chain → Chain) : (s.onChain f).pwr = s.pwr := rfl
@[simp] theorem State.onChain_rst (f : Chain → Chain) : (s.onChain f).rst = s.rst := rfl
@[simp] theorem State.onChain_acs (f : Chain → Chain) : (s.onChain f).acs = s.acs := rfl
@[simp] theorem State.onChain_upd (f : Chain → Chain) : (s.onChain f).upd = s.upd := rfl
@[simp] theorem State.onChain_dbg (f : Chain → Chain) : (s.onChain f).dbg = s.dbg := rfl

@[simp] theorem State.onMatrix_pending (f : Matrix → Matrix) : (s.onMatrix f).pending = s.pending := rfl
@[simp] theorem State.onMatrix_free (f : Matrix → Matrix) : (s.onMatrix f).free = s.free := rfl
@[simp] theorem State.onMatrix_time (f : Matrix → Matrix) : (s.onMatrix f).time = s.time := rfl
@[simp] theorem State.onMatrix_fab (f : Matrix → Matrix) : (s.onMatrix f).fab = s.fab := rfl
@[simp] theorem State.onMatrix_mem (f : Matrix → Matrix) : (s.onMatrix f).mem = s.mem := rfl
@[simp] theorem State.onMatrix_srv (f : Matrix → Matrix) : (s.onMatrix f).srv = s.srv := rfl
@[simp] theorem State.onMatrix_adm (f : Matrix → Matrix) : (s.onMatrix f).adm = s.adm := rfl
@[simp] theorem State.onMatrix_sup (f : Matrix → Matrix) : (s.onMatrix f).sup = s.sup := rfl
@[simp] theorem State.onMatrix_flt (f : Matrix → Matrix) : (s.onMatrix f).flt = s.flt := rfl
@[simp] theorem State.onMatrix_hs (f : Matrix → Matrix) : (s.onMatrix f).hs = s.hs := rfl
@[simp] theorem State.onMatrix_th (f : Matrix → Matrix) : (s.onMatrix f).th = s.th := rfl
@[simp] theorem State.onMatrix_legs (f : Matrix → Matrix) : (s.onMatrix f).legs = s.legs := rfl
@[simp] theorem State.onMatrix_pairs (f : Matrix → Matrix) : (s.onMatrix f).pairs = s.pairs := rfl
@[simp] theorem State.onMatrix_sout (f : Matrix → Matrix) : (s.onMatrix f).sout = s.sout := rfl
@[simp] theorem State.onMatrix_vd (f : Matrix → Matrix) : (s.onMatrix f).vd = s.vd := rfl
@[simp] theorem State.onMatrix_vb (f : Matrix → Matrix) : (s.onMatrix f).vb = s.vb := rfl
@[simp] theorem State.onMatrix_boost (f : Matrix → Matrix) : (s.onMatrix f).boost = s.boost := rfl
@[simp] theorem State.onMatrix_sinks (f : Matrix → Matrix) : (s.onMatrix f).sinks = s.sinks := rfl
@[simp] theorem State.onMatrix_chain (f : Matrix → Matrix) : (s.onMatrix f).chain = s.chain := rfl
@[simp] theorem State.onMatrix_inputs (f : Matrix → Matrix) : (s.onMatrix f).inputs = s.inputs := rfl
@[simp] theorem State.onMatrix_inLoss (f : Matrix → Matrix) : (s.onMatrix f).inLoss = s.inLoss := rfl
@[simp] theorem State.onMatrix_ios (f : Matrix → Matrix) : (s.onMatrix f).ios = s.ios := rfl
@[simp] theorem State.onMatrix_ans (f : Matrix → Matrix) : (s.onMatrix f).ans = s.ans := rfl
@[simp] theorem State.onMatrix_adc (f : Matrix → Matrix) : (s.onMatrix f).adc = s.adc := rfl
@[simp] theorem State.onMatrix_vq (f : Matrix → Matrix) : (s.onMatrix f).vq = s.vq := rfl
@[simp] theorem State.onMatrix_eng (f : Matrix → Matrix) : (s.onMatrix f).eng = s.eng := rfl
@[simp] theorem State.onMatrix_cans (f : Matrix → Matrix) : (s.onMatrix f).cans = s.cans := rfl
@[simp] theorem State.onMatrix_lins (f : Matrix → Matrix) : (s.onMatrix f).lins = s.lins := rfl
@[simp] theorem State.onMatrix_lq (f : Matrix → Matrix) : (s.onMatrix f).lq = s.lq := rfl
@[simp] theorem State.onMatrix_inq (f : Matrix → Matrix) : (s.onMatrix f).inq = s.inq := rfl
@[simp] theorem State.onMatrix_seqs (f : Matrix → Matrix) : (s.onMatrix f).seqs = s.seqs := rfl
@[simp] theorem State.onMatrix_dom (f : Matrix → Matrix) : (s.onMatrix f).dom = s.dom := rfl
@[simp] theorem State.onMatrix_log (f : Matrix → Matrix) : (s.onMatrix f).log = s.log := rfl
@[simp] theorem State.onMatrix_cores (f : Matrix → Matrix) : (s.onMatrix f).cores = s.cores := rfl
@[simp] theorem State.onMatrix_eth (f : Matrix → Matrix) : (s.onMatrix f).eth = s.eth := rfl
@[simp] theorem State.onMatrix_ring (f : Matrix → Matrix) : (s.onMatrix f).ring = s.ring := rfl
@[simp] theorem State.onMatrix_duo (f : Matrix → Matrix) : (s.onMatrix f).duo = s.duo := rfl
@[simp] theorem State.onMatrix_pwr (f : Matrix → Matrix) : (s.onMatrix f).pwr = s.pwr := rfl
@[simp] theorem State.onMatrix_rst (f : Matrix → Matrix) : (s.onMatrix f).rst = s.rst := rfl
@[simp] theorem State.onMatrix_acs (f : Matrix → Matrix) : (s.onMatrix f).acs = s.acs := rfl
@[simp] theorem State.onMatrix_upd (f : Matrix → Matrix) : (s.onMatrix f).upd = s.upd := rfl
@[simp] theorem State.onMatrix_dbg (f : Matrix → Matrix) : (s.onMatrix f).dbg = s.dbg := rfl

@[simp] theorem State.onLin_pending (k : Fin 8) (f : LinCh → LinCh) : (s.onLin k f).pending = s.pending := rfl
@[simp] theorem State.onLin_free (k : Fin 8) (f : LinCh → LinCh) : (s.onLin k f).free = s.free := rfl
@[simp] theorem State.onLin_time (k : Fin 8) (f : LinCh → LinCh) : (s.onLin k f).time = s.time := rfl
@[simp] theorem State.onLin_fab (k : Fin 8) (f : LinCh → LinCh) : (s.onLin k f).fab = s.fab := rfl
@[simp] theorem State.onLin_mem (k : Fin 8) (f : LinCh → LinCh) : (s.onLin k f).mem = s.mem := rfl
@[simp] theorem State.onLin_srv (k : Fin 8) (f : LinCh → LinCh) : (s.onLin k f).srv = s.srv := rfl
@[simp] theorem State.onLin_adm (k : Fin 8) (f : LinCh → LinCh) : (s.onLin k f).adm = s.adm := rfl
@[simp] theorem State.onLin_sup (k : Fin 8) (f : LinCh → LinCh) : (s.onLin k f).sup = s.sup := rfl
@[simp] theorem State.onLin_flt (k : Fin 8) (f : LinCh → LinCh) : (s.onLin k f).flt = s.flt := rfl
@[simp] theorem State.onLin_hs (k : Fin 8) (f : LinCh → LinCh) : (s.onLin k f).hs = s.hs := rfl
@[simp] theorem State.onLin_th (k : Fin 8) (f : LinCh → LinCh) : (s.onLin k f).th = s.th := rfl
@[simp] theorem State.onLin_legs (k : Fin 8) (f : LinCh → LinCh) : (s.onLin k f).legs = s.legs := rfl
@[simp] theorem State.onLin_pairs (k : Fin 8) (f : LinCh → LinCh) : (s.onLin k f).pairs = s.pairs := rfl
@[simp] theorem State.onLin_sout (k : Fin 8) (f : LinCh → LinCh) : (s.onLin k f).sout = s.sout := rfl
@[simp] theorem State.onLin_vd (k : Fin 8) (f : LinCh → LinCh) : (s.onLin k f).vd = s.vd := rfl
@[simp] theorem State.onLin_vb (k : Fin 8) (f : LinCh → LinCh) : (s.onLin k f).vb = s.vb := rfl
@[simp] theorem State.onLin_boost (k : Fin 8) (f : LinCh → LinCh) : (s.onLin k f).boost = s.boost := rfl
@[simp] theorem State.onLin_sinks (k : Fin 8) (f : LinCh → LinCh) : (s.onLin k f).sinks = s.sinks := rfl
@[simp] theorem State.onLin_chain (k : Fin 8) (f : LinCh → LinCh) : (s.onLin k f).chain = s.chain := rfl
@[simp] theorem State.onLin_matrix (k : Fin 8) (f : LinCh → LinCh) : (s.onLin k f).matrix = s.matrix := rfl
@[simp] theorem State.onLin_inputs (k : Fin 8) (f : LinCh → LinCh) : (s.onLin k f).inputs = s.inputs := rfl
@[simp] theorem State.onLin_inLoss (k : Fin 8) (f : LinCh → LinCh) : (s.onLin k f).inLoss = s.inLoss := rfl
@[simp] theorem State.onLin_ios (k : Fin 8) (f : LinCh → LinCh) : (s.onLin k f).ios = s.ios := rfl
@[simp] theorem State.onLin_ans (k : Fin 8) (f : LinCh → LinCh) : (s.onLin k f).ans = s.ans := rfl
@[simp] theorem State.onLin_adc (k : Fin 8) (f : LinCh → LinCh) : (s.onLin k f).adc = s.adc := rfl
@[simp] theorem State.onLin_vq (k : Fin 8) (f : LinCh → LinCh) : (s.onLin k f).vq = s.vq := rfl
@[simp] theorem State.onLin_eng (k : Fin 8) (f : LinCh → LinCh) : (s.onLin k f).eng = s.eng := rfl
@[simp] theorem State.onLin_cans (k : Fin 8) (f : LinCh → LinCh) : (s.onLin k f).cans = s.cans := rfl
@[simp] theorem State.onLin_lq (k : Fin 8) (f : LinCh → LinCh) : (s.onLin k f).lq = s.lq := rfl
@[simp] theorem State.onLin_inq (k : Fin 8) (f : LinCh → LinCh) : (s.onLin k f).inq = s.inq := rfl
@[simp] theorem State.onLin_seqs (k : Fin 8) (f : LinCh → LinCh) : (s.onLin k f).seqs = s.seqs := rfl
@[simp] theorem State.onLin_dom (k : Fin 8) (f : LinCh → LinCh) : (s.onLin k f).dom = s.dom := rfl
@[simp] theorem State.onLin_log (k : Fin 8) (f : LinCh → LinCh) : (s.onLin k f).log = s.log := rfl
@[simp] theorem State.onLin_cores (k : Fin 8) (f : LinCh → LinCh) : (s.onLin k f).cores = s.cores := rfl
@[simp] theorem State.onLin_eth (k : Fin 8) (f : LinCh → LinCh) : (s.onLin k f).eth = s.eth := rfl
@[simp] theorem State.onLin_ring (k : Fin 8) (f : LinCh → LinCh) : (s.onLin k f).ring = s.ring := rfl
@[simp] theorem State.onLin_duo (k : Fin 8) (f : LinCh → LinCh) : (s.onLin k f).duo = s.duo := rfl
@[simp] theorem State.onLin_pwr (k : Fin 8) (f : LinCh → LinCh) : (s.onLin k f).pwr = s.pwr := rfl
@[simp] theorem State.onLin_rst (k : Fin 8) (f : LinCh → LinCh) : (s.onLin k f).rst = s.rst := rfl
@[simp] theorem State.onLin_acs (k : Fin 8) (f : LinCh → LinCh) : (s.onLin k f).acs = s.acs := rfl
@[simp] theorem State.onLin_upd (k : Fin 8) (f : LinCh → LinCh) : (s.onLin k f).upd = s.upd := rfl
@[simp] theorem State.onLin_dbg (k : Fin 8) (f : LinCh → LinCh) : (s.onLin k f).dbg = s.dbg := rfl

@[simp] theorem State.onEng_pending (f : Engine → Engine) : (s.onEng f).pending = s.pending := rfl
@[simp] theorem State.onEng_free (f : Engine → Engine) : (s.onEng f).free = s.free := rfl
@[simp] theorem State.onEng_time (f : Engine → Engine) : (s.onEng f).time = s.time := rfl
@[simp] theorem State.onEng_fab (f : Engine → Engine) : (s.onEng f).fab = s.fab := rfl
@[simp] theorem State.onEng_mem (f : Engine → Engine) : (s.onEng f).mem = s.mem := rfl
@[simp] theorem State.onEng_srv (f : Engine → Engine) : (s.onEng f).srv = s.srv := rfl
@[simp] theorem State.onEng_adm (f : Engine → Engine) : (s.onEng f).adm = s.adm := rfl
@[simp] theorem State.onEng_sup (f : Engine → Engine) : (s.onEng f).sup = s.sup := rfl
@[simp] theorem State.onEng_flt (f : Engine → Engine) : (s.onEng f).flt = s.flt := rfl
@[simp] theorem State.onEng_hs (f : Engine → Engine) : (s.onEng f).hs = s.hs := rfl
@[simp] theorem State.onEng_th (f : Engine → Engine) : (s.onEng f).th = s.th := rfl
@[simp] theorem State.onEng_legs (f : Engine → Engine) : (s.onEng f).legs = s.legs := rfl
@[simp] theorem State.onEng_pairs (f : Engine → Engine) : (s.onEng f).pairs = s.pairs := rfl
@[simp] theorem State.onEng_sout (f : Engine → Engine) : (s.onEng f).sout = s.sout := rfl
@[simp] theorem State.onEng_vd (f : Engine → Engine) : (s.onEng f).vd = s.vd := rfl
@[simp] theorem State.onEng_vb (f : Engine → Engine) : (s.onEng f).vb = s.vb := rfl
@[simp] theorem State.onEng_boost (f : Engine → Engine) : (s.onEng f).boost = s.boost := rfl
@[simp] theorem State.onEng_sinks (f : Engine → Engine) : (s.onEng f).sinks = s.sinks := rfl
@[simp] theorem State.onEng_chain (f : Engine → Engine) : (s.onEng f).chain = s.chain := rfl
@[simp] theorem State.onEng_matrix (f : Engine → Engine) : (s.onEng f).matrix = s.matrix := rfl
@[simp] theorem State.onEng_inputs (f : Engine → Engine) : (s.onEng f).inputs = s.inputs := rfl
@[simp] theorem State.onEng_inLoss (f : Engine → Engine) : (s.onEng f).inLoss = s.inLoss := rfl
@[simp] theorem State.onEng_ios (f : Engine → Engine) : (s.onEng f).ios = s.ios := rfl
@[simp] theorem State.onEng_ans (f : Engine → Engine) : (s.onEng f).ans = s.ans := rfl
@[simp] theorem State.onEng_adc (f : Engine → Engine) : (s.onEng f).adc = s.adc := rfl
@[simp] theorem State.onEng_vq (f : Engine → Engine) : (s.onEng f).vq = s.vq := rfl
@[simp] theorem State.onEng_cans (f : Engine → Engine) : (s.onEng f).cans = s.cans := rfl
@[simp] theorem State.onEng_lins (f : Engine → Engine) : (s.onEng f).lins = s.lins := rfl
@[simp] theorem State.onEng_lq (f : Engine → Engine) : (s.onEng f).lq = s.lq := rfl
@[simp] theorem State.onEng_inq (f : Engine → Engine) : (s.onEng f).inq = s.inq := rfl
@[simp] theorem State.onEng_seqs (f : Engine → Engine) : (s.onEng f).seqs = s.seqs := rfl
@[simp] theorem State.onEng_dom (f : Engine → Engine) : (s.onEng f).dom = s.dom := rfl
@[simp] theorem State.onEng_log (f : Engine → Engine) : (s.onEng f).log = s.log := rfl
@[simp] theorem State.onEng_cores (f : Engine → Engine) : (s.onEng f).cores = s.cores := rfl
@[simp] theorem State.onEng_eth (f : Engine → Engine) : (s.onEng f).eth = s.eth := rfl
@[simp] theorem State.onEng_ring (f : Engine → Engine) : (s.onEng f).ring = s.ring := rfl
@[simp] theorem State.onEng_duo (f : Engine → Engine) : (s.onEng f).duo = s.duo := rfl
@[simp] theorem State.onEng_pwr (f : Engine → Engine) : (s.onEng f).pwr = s.pwr := rfl
@[simp] theorem State.onEng_rst (f : Engine → Engine) : (s.onEng f).rst = s.rst := rfl
@[simp] theorem State.onEng_acs (f : Engine → Engine) : (s.onEng f).acs = s.acs := rfl
@[simp] theorem State.onEng_upd (f : Engine → Engine) : (s.onEng f).upd = s.upd := rfl
@[simp] theorem State.onEng_dbg (f : Engine → Engine) : (s.onEng f).dbg = s.dbg := rfl

@[simp] theorem State.onLoop_pending (k : Fin 360) (f : Loop → Loop) : (s.onLoop k f).pending = s.pending := rfl
@[simp] theorem State.onLoop_free (k : Fin 360) (f : Loop → Loop) : (s.onLoop k f).free = s.free := rfl
@[simp] theorem State.onLoop_time (k : Fin 360) (f : Loop → Loop) : (s.onLoop k f).time = s.time := rfl
@[simp] theorem State.onLoop_fab (k : Fin 360) (f : Loop → Loop) : (s.onLoop k f).fab = s.fab := rfl
@[simp] theorem State.onLoop_mem (k : Fin 360) (f : Loop → Loop) : (s.onLoop k f).mem = s.mem := rfl
@[simp] theorem State.onLoop_srv (k : Fin 360) (f : Loop → Loop) : (s.onLoop k f).srv = s.srv := rfl
@[simp] theorem State.onLoop_adm (k : Fin 360) (f : Loop → Loop) : (s.onLoop k f).adm = s.adm := rfl
@[simp] theorem State.onLoop_sup (k : Fin 360) (f : Loop → Loop) : (s.onLoop k f).sup = s.sup := rfl
@[simp] theorem State.onLoop_flt (k : Fin 360) (f : Loop → Loop) : (s.onLoop k f).flt = s.flt := rfl
@[simp] theorem State.onLoop_hs (k : Fin 360) (f : Loop → Loop) : (s.onLoop k f).hs = s.hs := rfl
@[simp] theorem State.onLoop_th (k : Fin 360) (f : Loop → Loop) : (s.onLoop k f).th = s.th := rfl
@[simp] theorem State.onLoop_legs (k : Fin 360) (f : Loop → Loop) : (s.onLoop k f).legs = s.legs := rfl
@[simp] theorem State.onLoop_pairs (k : Fin 360) (f : Loop → Loop) : (s.onLoop k f).pairs = s.pairs := rfl
@[simp] theorem State.onLoop_sout (k : Fin 360) (f : Loop → Loop) : (s.onLoop k f).sout = s.sout := rfl
@[simp] theorem State.onLoop_vd (k : Fin 360) (f : Loop → Loop) : (s.onLoop k f).vd = s.vd := rfl
@[simp] theorem State.onLoop_vb (k : Fin 360) (f : Loop → Loop) : (s.onLoop k f).vb = s.vb := rfl
@[simp] theorem State.onLoop_boost (k : Fin 360) (f : Loop → Loop) : (s.onLoop k f).boost = s.boost := rfl
@[simp] theorem State.onLoop_sinks (k : Fin 360) (f : Loop → Loop) : (s.onLoop k f).sinks = s.sinks := rfl
@[simp] theorem State.onLoop_chain (k : Fin 360) (f : Loop → Loop) : (s.onLoop k f).chain = s.chain := rfl
@[simp] theorem State.onLoop_matrix (k : Fin 360) (f : Loop → Loop) : (s.onLoop k f).matrix = s.matrix := rfl
@[simp] theorem State.onLoop_inputs (k : Fin 360) (f : Loop → Loop) : (s.onLoop k f).inputs = s.inputs := rfl
@[simp] theorem State.onLoop_inLoss (k : Fin 360) (f : Loop → Loop) : (s.onLoop k f).inLoss = s.inLoss := rfl
@[simp] theorem State.onLoop_ios (k : Fin 360) (f : Loop → Loop) : (s.onLoop k f).ios = s.ios := rfl
@[simp] theorem State.onLoop_ans (k : Fin 360) (f : Loop → Loop) : (s.onLoop k f).ans = s.ans := rfl
@[simp] theorem State.onLoop_adc (k : Fin 360) (f : Loop → Loop) : (s.onLoop k f).adc = s.adc := rfl
@[simp] theorem State.onLoop_vq (k : Fin 360) (f : Loop → Loop) : (s.onLoop k f).vq = s.vq := rfl
@[simp] theorem State.onLoop_cans (k : Fin 360) (f : Loop → Loop) : (s.onLoop k f).cans = s.cans := rfl
@[simp] theorem State.onLoop_lins (k : Fin 360) (f : Loop → Loop) : (s.onLoop k f).lins = s.lins := rfl
@[simp] theorem State.onLoop_lq (k : Fin 360) (f : Loop → Loop) : (s.onLoop k f).lq = s.lq := rfl
@[simp] theorem State.onLoop_inq (k : Fin 360) (f : Loop → Loop) : (s.onLoop k f).inq = s.inq := rfl
@[simp] theorem State.onLoop_seqs (k : Fin 360) (f : Loop → Loop) : (s.onLoop k f).seqs = s.seqs := rfl
@[simp] theorem State.onLoop_dom (k : Fin 360) (f : Loop → Loop) : (s.onLoop k f).dom = s.dom := rfl
@[simp] theorem State.onLoop_log (k : Fin 360) (f : Loop → Loop) : (s.onLoop k f).log = s.log := rfl
@[simp] theorem State.onLoop_cores (k : Fin 360) (f : Loop → Loop) : (s.onLoop k f).cores = s.cores := rfl
@[simp] theorem State.onLoop_eth (k : Fin 360) (f : Loop → Loop) : (s.onLoop k f).eth = s.eth := rfl
@[simp] theorem State.onLoop_ring (k : Fin 360) (f : Loop → Loop) : (s.onLoop k f).ring = s.ring := rfl
@[simp] theorem State.onLoop_duo (k : Fin 360) (f : Loop → Loop) : (s.onLoop k f).duo = s.duo := rfl
@[simp] theorem State.onLoop_pwr (k : Fin 360) (f : Loop → Loop) : (s.onLoop k f).pwr = s.pwr := rfl
@[simp] theorem State.onLoop_rst (k : Fin 360) (f : Loop → Loop) : (s.onLoop k f).rst = s.rst := rfl
@[simp] theorem State.onLoop_acs (k : Fin 360) (f : Loop → Loop) : (s.onLoop k f).acs = s.acs := rfl
@[simp] theorem State.onLoop_upd (k : Fin 360) (f : Loop → Loop) : (s.onLoop k f).upd = s.upd := rfl
@[simp] theorem State.onLoop_dbg (k : Fin 360) (f : Loop → Loop) : (s.onLoop k f).dbg = s.dbg := rfl

@[simp] theorem State.onTile_pending (k : Fin 16) (f : Tile → Tile) : (s.onTile k f).pending = s.pending := rfl
@[simp] theorem State.onTile_free (k : Fin 16) (f : Tile → Tile) : (s.onTile k f).free = s.free := rfl
@[simp] theorem State.onTile_time (k : Fin 16) (f : Tile → Tile) : (s.onTile k f).time = s.time := rfl
@[simp] theorem State.onTile_fab (k : Fin 16) (f : Tile → Tile) : (s.onTile k f).fab = s.fab := rfl
@[simp] theorem State.onTile_mem (k : Fin 16) (f : Tile → Tile) : (s.onTile k f).mem = s.mem := rfl
@[simp] theorem State.onTile_srv (k : Fin 16) (f : Tile → Tile) : (s.onTile k f).srv = s.srv := rfl
@[simp] theorem State.onTile_adm (k : Fin 16) (f : Tile → Tile) : (s.onTile k f).adm = s.adm := rfl
@[simp] theorem State.onTile_sup (k : Fin 16) (f : Tile → Tile) : (s.onTile k f).sup = s.sup := rfl
@[simp] theorem State.onTile_flt (k : Fin 16) (f : Tile → Tile) : (s.onTile k f).flt = s.flt := rfl
@[simp] theorem State.onTile_hs (k : Fin 16) (f : Tile → Tile) : (s.onTile k f).hs = s.hs := rfl
@[simp] theorem State.onTile_th (k : Fin 16) (f : Tile → Tile) : (s.onTile k f).th = s.th := rfl
@[simp] theorem State.onTile_legs (k : Fin 16) (f : Tile → Tile) : (s.onTile k f).legs = s.legs := rfl
@[simp] theorem State.onTile_pairs (k : Fin 16) (f : Tile → Tile) : (s.onTile k f).pairs = s.pairs := rfl
@[simp] theorem State.onTile_sout (k : Fin 16) (f : Tile → Tile) : (s.onTile k f).sout = s.sout := rfl
@[simp] theorem State.onTile_vd (k : Fin 16) (f : Tile → Tile) : (s.onTile k f).vd = s.vd := rfl
@[simp] theorem State.onTile_vb (k : Fin 16) (f : Tile → Tile) : (s.onTile k f).vb = s.vb := rfl
@[simp] theorem State.onTile_boost (k : Fin 16) (f : Tile → Tile) : (s.onTile k f).boost = s.boost := rfl
@[simp] theorem State.onTile_sinks (k : Fin 16) (f : Tile → Tile) : (s.onTile k f).sinks = s.sinks := rfl
@[simp] theorem State.onTile_chain (k : Fin 16) (f : Tile → Tile) : (s.onTile k f).chain = s.chain := rfl
@[simp] theorem State.onTile_matrix (k : Fin 16) (f : Tile → Tile) : (s.onTile k f).matrix = s.matrix := rfl
@[simp] theorem State.onTile_inputs (k : Fin 16) (f : Tile → Tile) : (s.onTile k f).inputs = s.inputs := rfl
@[simp] theorem State.onTile_inLoss (k : Fin 16) (f : Tile → Tile) : (s.onTile k f).inLoss = s.inLoss := rfl
@[simp] theorem State.onTile_ios (k : Fin 16) (f : Tile → Tile) : (s.onTile k f).ios = s.ios := rfl
@[simp] theorem State.onTile_ans (k : Fin 16) (f : Tile → Tile) : (s.onTile k f).ans = s.ans := rfl
@[simp] theorem State.onTile_adc (k : Fin 16) (f : Tile → Tile) : (s.onTile k f).adc = s.adc := rfl
@[simp] theorem State.onTile_vq (k : Fin 16) (f : Tile → Tile) : (s.onTile k f).vq = s.vq := rfl
@[simp] theorem State.onTile_cans (k : Fin 16) (f : Tile → Tile) : (s.onTile k f).cans = s.cans := rfl
@[simp] theorem State.onTile_lins (k : Fin 16) (f : Tile → Tile) : (s.onTile k f).lins = s.lins := rfl
@[simp] theorem State.onTile_lq (k : Fin 16) (f : Tile → Tile) : (s.onTile k f).lq = s.lq := rfl
@[simp] theorem State.onTile_inq (k : Fin 16) (f : Tile → Tile) : (s.onTile k f).inq = s.inq := rfl
@[simp] theorem State.onTile_seqs (k : Fin 16) (f : Tile → Tile) : (s.onTile k f).seqs = s.seqs := rfl
@[simp] theorem State.onTile_dom (k : Fin 16) (f : Tile → Tile) : (s.onTile k f).dom = s.dom := rfl
@[simp] theorem State.onTile_log (k : Fin 16) (f : Tile → Tile) : (s.onTile k f).log = s.log := rfl
@[simp] theorem State.onTile_cores (k : Fin 16) (f : Tile → Tile) : (s.onTile k f).cores = s.cores := rfl
@[simp] theorem State.onTile_eth (k : Fin 16) (f : Tile → Tile) : (s.onTile k f).eth = s.eth := rfl
@[simp] theorem State.onTile_ring (k : Fin 16) (f : Tile → Tile) : (s.onTile k f).ring = s.ring := rfl
@[simp] theorem State.onTile_duo (k : Fin 16) (f : Tile → Tile) : (s.onTile k f).duo = s.duo := rfl
@[simp] theorem State.onTile_pwr (k : Fin 16) (f : Tile → Tile) : (s.onTile k f).pwr = s.pwr := rfl
@[simp] theorem State.onTile_rst (k : Fin 16) (f : Tile → Tile) : (s.onTile k f).rst = s.rst := rfl
@[simp] theorem State.onTile_acs (k : Fin 16) (f : Tile → Tile) : (s.onTile k f).acs = s.acs := rfl
@[simp] theorem State.onTile_upd (k : Fin 16) (f : Tile → Tile) : (s.onTile k f).upd = s.upd := rfl
@[simp] theorem State.onTile_dbg (k : Fin 16) (f : Tile → Tile) : (s.onTile k f).dbg = s.dbg := rfl

@[simp] theorem State.onSeq_pending (k : Fin 16) (f : Seq → Seq) : (s.onSeq k f).pending = s.pending := rfl
@[simp] theorem State.onSeq_free (k : Fin 16) (f : Seq → Seq) : (s.onSeq k f).free = s.free := rfl
@[simp] theorem State.onSeq_time (k : Fin 16) (f : Seq → Seq) : (s.onSeq k f).time = s.time := rfl
@[simp] theorem State.onSeq_fab (k : Fin 16) (f : Seq → Seq) : (s.onSeq k f).fab = s.fab := rfl
@[simp] theorem State.onSeq_mem (k : Fin 16) (f : Seq → Seq) : (s.onSeq k f).mem = s.mem := rfl
@[simp] theorem State.onSeq_srv (k : Fin 16) (f : Seq → Seq) : (s.onSeq k f).srv = s.srv := rfl
@[simp] theorem State.onSeq_adm (k : Fin 16) (f : Seq → Seq) : (s.onSeq k f).adm = s.adm := rfl
@[simp] theorem State.onSeq_sup (k : Fin 16) (f : Seq → Seq) : (s.onSeq k f).sup = s.sup := rfl
@[simp] theorem State.onSeq_flt (k : Fin 16) (f : Seq → Seq) : (s.onSeq k f).flt = s.flt := rfl
@[simp] theorem State.onSeq_hs (k : Fin 16) (f : Seq → Seq) : (s.onSeq k f).hs = s.hs := rfl
@[simp] theorem State.onSeq_th (k : Fin 16) (f : Seq → Seq) : (s.onSeq k f).th = s.th := rfl
@[simp] theorem State.onSeq_legs (k : Fin 16) (f : Seq → Seq) : (s.onSeq k f).legs = s.legs := rfl
@[simp] theorem State.onSeq_pairs (k : Fin 16) (f : Seq → Seq) : (s.onSeq k f).pairs = s.pairs := rfl
@[simp] theorem State.onSeq_sout (k : Fin 16) (f : Seq → Seq) : (s.onSeq k f).sout = s.sout := rfl
@[simp] theorem State.onSeq_vd (k : Fin 16) (f : Seq → Seq) : (s.onSeq k f).vd = s.vd := rfl
@[simp] theorem State.onSeq_vb (k : Fin 16) (f : Seq → Seq) : (s.onSeq k f).vb = s.vb := rfl
@[simp] theorem State.onSeq_boost (k : Fin 16) (f : Seq → Seq) : (s.onSeq k f).boost = s.boost := rfl
@[simp] theorem State.onSeq_sinks (k : Fin 16) (f : Seq → Seq) : (s.onSeq k f).sinks = s.sinks := rfl
@[simp] theorem State.onSeq_chain (k : Fin 16) (f : Seq → Seq) : (s.onSeq k f).chain = s.chain := rfl
@[simp] theorem State.onSeq_matrix (k : Fin 16) (f : Seq → Seq) : (s.onSeq k f).matrix = s.matrix := rfl
@[simp] theorem State.onSeq_inputs (k : Fin 16) (f : Seq → Seq) : (s.onSeq k f).inputs = s.inputs := rfl
@[simp] theorem State.onSeq_inLoss (k : Fin 16) (f : Seq → Seq) : (s.onSeq k f).inLoss = s.inLoss := rfl
@[simp] theorem State.onSeq_ios (k : Fin 16) (f : Seq → Seq) : (s.onSeq k f).ios = s.ios := rfl
@[simp] theorem State.onSeq_ans (k : Fin 16) (f : Seq → Seq) : (s.onSeq k f).ans = s.ans := rfl
@[simp] theorem State.onSeq_adc (k : Fin 16) (f : Seq → Seq) : (s.onSeq k f).adc = s.adc := rfl
@[simp] theorem State.onSeq_vq (k : Fin 16) (f : Seq → Seq) : (s.onSeq k f).vq = s.vq := rfl
@[simp] theorem State.onSeq_eng (k : Fin 16) (f : Seq → Seq) : (s.onSeq k f).eng = s.eng := rfl
@[simp] theorem State.onSeq_cans (k : Fin 16) (f : Seq → Seq) : (s.onSeq k f).cans = s.cans := rfl
@[simp] theorem State.onSeq_lins (k : Fin 16) (f : Seq → Seq) : (s.onSeq k f).lins = s.lins := rfl
@[simp] theorem State.onSeq_lq (k : Fin 16) (f : Seq → Seq) : (s.onSeq k f).lq = s.lq := rfl
@[simp] theorem State.onSeq_inq (k : Fin 16) (f : Seq → Seq) : (s.onSeq k f).inq = s.inq := rfl
@[simp] theorem State.onSeq_dom (k : Fin 16) (f : Seq → Seq) : (s.onSeq k f).dom = s.dom := rfl
@[simp] theorem State.onSeq_log (k : Fin 16) (f : Seq → Seq) : (s.onSeq k f).log = s.log := rfl
@[simp] theorem State.onSeq_cores (k : Fin 16) (f : Seq → Seq) : (s.onSeq k f).cores = s.cores := rfl
@[simp] theorem State.onSeq_eth (k : Fin 16) (f : Seq → Seq) : (s.onSeq k f).eth = s.eth := rfl
@[simp] theorem State.onSeq_ring (k : Fin 16) (f : Seq → Seq) : (s.onSeq k f).ring = s.ring := rfl
@[simp] theorem State.onSeq_duo (k : Fin 16) (f : Seq → Seq) : (s.onSeq k f).duo = s.duo := rfl
@[simp] theorem State.onSeq_pwr (k : Fin 16) (f : Seq → Seq) : (s.onSeq k f).pwr = s.pwr := rfl
@[simp] theorem State.onSeq_rst (k : Fin 16) (f : Seq → Seq) : (s.onSeq k f).rst = s.rst := rfl
@[simp] theorem State.onSeq_acs (k : Fin 16) (f : Seq → Seq) : (s.onSeq k f).acs = s.acs := rfl
@[simp] theorem State.onSeq_upd (k : Fin 16) (f : Seq → Seq) : (s.onSeq k f).upd = s.upd := rfl
@[simp] theorem State.onSeq_dbg (k : Fin 16) (f : Seq → Seq) : (s.onSeq k f).dbg = s.dbg := rfl

@[simp] theorem State.onCt_pending (k : Fin 256) (f : Contract → Contract) : (s.onCt k f).pending = s.pending := rfl
@[simp] theorem State.onCt_free (k : Fin 256) (f : Contract → Contract) : (s.onCt k f).free = s.free := rfl
@[simp] theorem State.onCt_time (k : Fin 256) (f : Contract → Contract) : (s.onCt k f).time = s.time := rfl
@[simp] theorem State.onCt_fab (k : Fin 256) (f : Contract → Contract) : (s.onCt k f).fab = s.fab := rfl
@[simp] theorem State.onCt_mem (k : Fin 256) (f : Contract → Contract) : (s.onCt k f).mem = s.mem := rfl
@[simp] theorem State.onCt_srv (k : Fin 256) (f : Contract → Contract) : (s.onCt k f).srv = s.srv := rfl
@[simp] theorem State.onCt_sup (k : Fin 256) (f : Contract → Contract) : (s.onCt k f).sup = s.sup := rfl
@[simp] theorem State.onCt_flt (k : Fin 256) (f : Contract → Contract) : (s.onCt k f).flt = s.flt := rfl
@[simp] theorem State.onCt_hs (k : Fin 256) (f : Contract → Contract) : (s.onCt k f).hs = s.hs := rfl
@[simp] theorem State.onCt_th (k : Fin 256) (f : Contract → Contract) : (s.onCt k f).th = s.th := rfl
@[simp] theorem State.onCt_legs (k : Fin 256) (f : Contract → Contract) : (s.onCt k f).legs = s.legs := rfl
@[simp] theorem State.onCt_pairs (k : Fin 256) (f : Contract → Contract) : (s.onCt k f).pairs = s.pairs := rfl
@[simp] theorem State.onCt_sout (k : Fin 256) (f : Contract → Contract) : (s.onCt k f).sout = s.sout := rfl
@[simp] theorem State.onCt_vd (k : Fin 256) (f : Contract → Contract) : (s.onCt k f).vd = s.vd := rfl
@[simp] theorem State.onCt_vb (k : Fin 256) (f : Contract → Contract) : (s.onCt k f).vb = s.vb := rfl
@[simp] theorem State.onCt_boost (k : Fin 256) (f : Contract → Contract) : (s.onCt k f).boost = s.boost := rfl
@[simp] theorem State.onCt_sinks (k : Fin 256) (f : Contract → Contract) : (s.onCt k f).sinks = s.sinks := rfl
@[simp] theorem State.onCt_chain (k : Fin 256) (f : Contract → Contract) : (s.onCt k f).chain = s.chain := rfl
@[simp] theorem State.onCt_matrix (k : Fin 256) (f : Contract → Contract) : (s.onCt k f).matrix = s.matrix := rfl
@[simp] theorem State.onCt_inputs (k : Fin 256) (f : Contract → Contract) : (s.onCt k f).inputs = s.inputs := rfl
@[simp] theorem State.onCt_inLoss (k : Fin 256) (f : Contract → Contract) : (s.onCt k f).inLoss = s.inLoss := rfl
@[simp] theorem State.onCt_ios (k : Fin 256) (f : Contract → Contract) : (s.onCt k f).ios = s.ios := rfl
@[simp] theorem State.onCt_ans (k : Fin 256) (f : Contract → Contract) : (s.onCt k f).ans = s.ans := rfl
@[simp] theorem State.onCt_adc (k : Fin 256) (f : Contract → Contract) : (s.onCt k f).adc = s.adc := rfl
@[simp] theorem State.onCt_vq (k : Fin 256) (f : Contract → Contract) : (s.onCt k f).vq = s.vq := rfl
@[simp] theorem State.onCt_eng (k : Fin 256) (f : Contract → Contract) : (s.onCt k f).eng = s.eng := rfl
@[simp] theorem State.onCt_cans (k : Fin 256) (f : Contract → Contract) : (s.onCt k f).cans = s.cans := rfl
@[simp] theorem State.onCt_lins (k : Fin 256) (f : Contract → Contract) : (s.onCt k f).lins = s.lins := rfl
@[simp] theorem State.onCt_lq (k : Fin 256) (f : Contract → Contract) : (s.onCt k f).lq = s.lq := rfl
@[simp] theorem State.onCt_inq (k : Fin 256) (f : Contract → Contract) : (s.onCt k f).inq = s.inq := rfl
@[simp] theorem State.onCt_seqs (k : Fin 256) (f : Contract → Contract) : (s.onCt k f).seqs = s.seqs := rfl
@[simp] theorem State.onCt_dom (k : Fin 256) (f : Contract → Contract) : (s.onCt k f).dom = s.dom := rfl
@[simp] theorem State.onCt_log (k : Fin 256) (f : Contract → Contract) : (s.onCt k f).log = s.log := rfl
@[simp] theorem State.onCt_cores (k : Fin 256) (f : Contract → Contract) : (s.onCt k f).cores = s.cores := rfl
@[simp] theorem State.onCt_eth (k : Fin 256) (f : Contract → Contract) : (s.onCt k f).eth = s.eth := rfl
@[simp] theorem State.onCt_ring (k : Fin 256) (f : Contract → Contract) : (s.onCt k f).ring = s.ring := rfl
@[simp] theorem State.onCt_duo (k : Fin 256) (f : Contract → Contract) : (s.onCt k f).duo = s.duo := rfl
@[simp] theorem State.onCt_pwr (k : Fin 256) (f : Contract → Contract) : (s.onCt k f).pwr = s.pwr := rfl
@[simp] theorem State.onCt_rst (k : Fin 256) (f : Contract → Contract) : (s.onCt k f).rst = s.rst := rfl
@[simp] theorem State.onCt_acs (k : Fin 256) (f : Contract → Contract) : (s.onCt k f).acs = s.acs := rfl
@[simp] theorem State.onCt_upd (k : Fin 256) (f : Contract → Contract) : (s.onCt k f).upd = s.upd := rfl
@[simp] theorem State.onCt_dbg (k : Fin 256) (f : Contract → Contract) : (s.onCt k f).dbg = s.dbg := rfl

@[simp] theorem State.onRing_pending (f : Ring → Ring) : (s.onRing f).pending = s.pending := rfl
@[simp] theorem State.onRing_free (f : Ring → Ring) : (s.onRing f).free = s.free := rfl
@[simp] theorem State.onRing_time (f : Ring → Ring) : (s.onRing f).time = s.time := rfl
@[simp] theorem State.onRing_fab (f : Ring → Ring) : (s.onRing f).fab = s.fab := rfl
@[simp] theorem State.onRing_mem (f : Ring → Ring) : (s.onRing f).mem = s.mem := rfl
@[simp] theorem State.onRing_srv (f : Ring → Ring) : (s.onRing f).srv = s.srv := rfl
@[simp] theorem State.onRing_adm (f : Ring → Ring) : (s.onRing f).adm = s.adm := rfl
@[simp] theorem State.onRing_sup (f : Ring → Ring) : (s.onRing f).sup = s.sup := rfl
@[simp] theorem State.onRing_flt (f : Ring → Ring) : (s.onRing f).flt = s.flt := rfl
@[simp] theorem State.onRing_hs (f : Ring → Ring) : (s.onRing f).hs = s.hs := rfl
@[simp] theorem State.onRing_th (f : Ring → Ring) : (s.onRing f).th = s.th := rfl
@[simp] theorem State.onRing_legs (f : Ring → Ring) : (s.onRing f).legs = s.legs := rfl
@[simp] theorem State.onRing_pairs (f : Ring → Ring) : (s.onRing f).pairs = s.pairs := rfl
@[simp] theorem State.onRing_sout (f : Ring → Ring) : (s.onRing f).sout = s.sout := rfl
@[simp] theorem State.onRing_vd (f : Ring → Ring) : (s.onRing f).vd = s.vd := rfl
@[simp] theorem State.onRing_vb (f : Ring → Ring) : (s.onRing f).vb = s.vb := rfl
@[simp] theorem State.onRing_boost (f : Ring → Ring) : (s.onRing f).boost = s.boost := rfl
@[simp] theorem State.onRing_sinks (f : Ring → Ring) : (s.onRing f).sinks = s.sinks := rfl
@[simp] theorem State.onRing_chain (f : Ring → Ring) : (s.onRing f).chain = s.chain := rfl
@[simp] theorem State.onRing_matrix (f : Ring → Ring) : (s.onRing f).matrix = s.matrix := rfl
@[simp] theorem State.onRing_inputs (f : Ring → Ring) : (s.onRing f).inputs = s.inputs := rfl
@[simp] theorem State.onRing_inLoss (f : Ring → Ring) : (s.onRing f).inLoss = s.inLoss := rfl
@[simp] theorem State.onRing_ios (f : Ring → Ring) : (s.onRing f).ios = s.ios := rfl
@[simp] theorem State.onRing_ans (f : Ring → Ring) : (s.onRing f).ans = s.ans := rfl
@[simp] theorem State.onRing_adc (f : Ring → Ring) : (s.onRing f).adc = s.adc := rfl
@[simp] theorem State.onRing_vq (f : Ring → Ring) : (s.onRing f).vq = s.vq := rfl
@[simp] theorem State.onRing_eng (f : Ring → Ring) : (s.onRing f).eng = s.eng := rfl
@[simp] theorem State.onRing_cans (f : Ring → Ring) : (s.onRing f).cans = s.cans := rfl
@[simp] theorem State.onRing_lins (f : Ring → Ring) : (s.onRing f).lins = s.lins := rfl
@[simp] theorem State.onRing_lq (f : Ring → Ring) : (s.onRing f).lq = s.lq := rfl
@[simp] theorem State.onRing_inq (f : Ring → Ring) : (s.onRing f).inq = s.inq := rfl
@[simp] theorem State.onRing_seqs (f : Ring → Ring) : (s.onRing f).seqs = s.seqs := rfl
@[simp] theorem State.onRing_dom (f : Ring → Ring) : (s.onRing f).dom = s.dom := rfl
@[simp] theorem State.onRing_log (f : Ring → Ring) : (s.onRing f).log = s.log := rfl
@[simp] theorem State.onRing_cores (f : Ring → Ring) : (s.onRing f).cores = s.cores := rfl
@[simp] theorem State.onRing_eth (f : Ring → Ring) : (s.onRing f).eth = s.eth := rfl
@[simp] theorem State.onRing_duo (f : Ring → Ring) : (s.onRing f).duo = s.duo := rfl
@[simp] theorem State.onRing_pwr (f : Ring → Ring) : (s.onRing f).pwr = s.pwr := rfl
@[simp] theorem State.onRing_rst (f : Ring → Ring) : (s.onRing f).rst = s.rst := rfl
@[simp] theorem State.onRing_acs (f : Ring → Ring) : (s.onRing f).acs = s.acs := rfl
@[simp] theorem State.onRing_upd (f : Ring → Ring) : (s.onRing f).upd = s.upd := rfl
@[simp] theorem State.onRing_dbg (f : Ring → Ring) : (s.onRing f).dbg = s.dbg := rfl

@[simp] theorem State.onUpd_pending (f : Update → Update) : (s.onUpd f).pending = s.pending := rfl
@[simp] theorem State.onUpd_free (f : Update → Update) : (s.onUpd f).free = s.free := rfl
@[simp] theorem State.onUpd_time (f : Update → Update) : (s.onUpd f).time = s.time := rfl
@[simp] theorem State.onUpd_fab (f : Update → Update) : (s.onUpd f).fab = s.fab := rfl
@[simp] theorem State.onUpd_mem (f : Update → Update) : (s.onUpd f).mem = s.mem := rfl
@[simp] theorem State.onUpd_srv (f : Update → Update) : (s.onUpd f).srv = s.srv := rfl
@[simp] theorem State.onUpd_adm (f : Update → Update) : (s.onUpd f).adm = s.adm := rfl
@[simp] theorem State.onUpd_sup (f : Update → Update) : (s.onUpd f).sup = s.sup := rfl
@[simp] theorem State.onUpd_flt (f : Update → Update) : (s.onUpd f).flt = s.flt := rfl
@[simp] theorem State.onUpd_hs (f : Update → Update) : (s.onUpd f).hs = s.hs := rfl
@[simp] theorem State.onUpd_th (f : Update → Update) : (s.onUpd f).th = s.th := rfl
@[simp] theorem State.onUpd_legs (f : Update → Update) : (s.onUpd f).legs = s.legs := rfl
@[simp] theorem State.onUpd_pairs (f : Update → Update) : (s.onUpd f).pairs = s.pairs := rfl
@[simp] theorem State.onUpd_sout (f : Update → Update) : (s.onUpd f).sout = s.sout := rfl
@[simp] theorem State.onUpd_vd (f : Update → Update) : (s.onUpd f).vd = s.vd := rfl
@[simp] theorem State.onUpd_vb (f : Update → Update) : (s.onUpd f).vb = s.vb := rfl
@[simp] theorem State.onUpd_boost (f : Update → Update) : (s.onUpd f).boost = s.boost := rfl
@[simp] theorem State.onUpd_sinks (f : Update → Update) : (s.onUpd f).sinks = s.sinks := rfl
@[simp] theorem State.onUpd_chain (f : Update → Update) : (s.onUpd f).chain = s.chain := rfl
@[simp] theorem State.onUpd_matrix (f : Update → Update) : (s.onUpd f).matrix = s.matrix := rfl
@[simp] theorem State.onUpd_inputs (f : Update → Update) : (s.onUpd f).inputs = s.inputs := rfl
@[simp] theorem State.onUpd_inLoss (f : Update → Update) : (s.onUpd f).inLoss = s.inLoss := rfl
@[simp] theorem State.onUpd_ios (f : Update → Update) : (s.onUpd f).ios = s.ios := rfl
@[simp] theorem State.onUpd_ans (f : Update → Update) : (s.onUpd f).ans = s.ans := rfl
@[simp] theorem State.onUpd_adc (f : Update → Update) : (s.onUpd f).adc = s.adc := rfl
@[simp] theorem State.onUpd_vq (f : Update → Update) : (s.onUpd f).vq = s.vq := rfl
@[simp] theorem State.onUpd_eng (f : Update → Update) : (s.onUpd f).eng = s.eng := rfl
@[simp] theorem State.onUpd_cans (f : Update → Update) : (s.onUpd f).cans = s.cans := rfl
@[simp] theorem State.onUpd_lins (f : Update → Update) : (s.onUpd f).lins = s.lins := rfl
@[simp] theorem State.onUpd_lq (f : Update → Update) : (s.onUpd f).lq = s.lq := rfl
@[simp] theorem State.onUpd_inq (f : Update → Update) : (s.onUpd f).inq = s.inq := rfl
@[simp] theorem State.onUpd_seqs (f : Update → Update) : (s.onUpd f).seqs = s.seqs := rfl
@[simp] theorem State.onUpd_dom (f : Update → Update) : (s.onUpd f).dom = s.dom := rfl
@[simp] theorem State.onUpd_log (f : Update → Update) : (s.onUpd f).log = s.log := rfl
@[simp] theorem State.onUpd_cores (f : Update → Update) : (s.onUpd f).cores = s.cores := rfl
@[simp] theorem State.onUpd_eth (f : Update → Update) : (s.onUpd f).eth = s.eth := rfl
@[simp] theorem State.onUpd_ring (f : Update → Update) : (s.onUpd f).ring = s.ring := rfl
@[simp] theorem State.onUpd_duo (f : Update → Update) : (s.onUpd f).duo = s.duo := rfl
@[simp] theorem State.onUpd_pwr (f : Update → Update) : (s.onUpd f).pwr = s.pwr := rfl
@[simp] theorem State.onUpd_rst (f : Update → Update) : (s.onUpd f).rst = s.rst := rfl
@[simp] theorem State.onUpd_acs (f : Update → Update) : (s.onUpd f).acs = s.acs := rfl
@[simp] theorem State.onUpd_dbg (f : Update → Update) : (s.onUpd f).dbg = s.dbg := rfl

@[simp] theorem State.onLog_pending (f : LogState → LogState) : (s.onLog f).pending = s.pending := rfl
@[simp] theorem State.onLog_free (f : LogState → LogState) : (s.onLog f).free = s.free := rfl
@[simp] theorem State.onLog_time (f : LogState → LogState) : (s.onLog f).time = s.time := rfl
@[simp] theorem State.onLog_fab (f : LogState → LogState) : (s.onLog f).fab = s.fab := rfl
@[simp] theorem State.onLog_mem (f : LogState → LogState) : (s.onLog f).mem = s.mem := rfl
@[simp] theorem State.onLog_srv (f : LogState → LogState) : (s.onLog f).srv = s.srv := rfl
@[simp] theorem State.onLog_adm (f : LogState → LogState) : (s.onLog f).adm = s.adm := rfl
@[simp] theorem State.onLog_sup (f : LogState → LogState) : (s.onLog f).sup = s.sup := rfl
@[simp] theorem State.onLog_flt (f : LogState → LogState) : (s.onLog f).flt = s.flt := rfl
@[simp] theorem State.onLog_hs (f : LogState → LogState) : (s.onLog f).hs = s.hs := rfl
@[simp] theorem State.onLog_th (f : LogState → LogState) : (s.onLog f).th = s.th := rfl
@[simp] theorem State.onLog_legs (f : LogState → LogState) : (s.onLog f).legs = s.legs := rfl
@[simp] theorem State.onLog_pairs (f : LogState → LogState) : (s.onLog f).pairs = s.pairs := rfl
@[simp] theorem State.onLog_sout (f : LogState → LogState) : (s.onLog f).sout = s.sout := rfl
@[simp] theorem State.onLog_vd (f : LogState → LogState) : (s.onLog f).vd = s.vd := rfl
@[simp] theorem State.onLog_vb (f : LogState → LogState) : (s.onLog f).vb = s.vb := rfl
@[simp] theorem State.onLog_boost (f : LogState → LogState) : (s.onLog f).boost = s.boost := rfl
@[simp] theorem State.onLog_sinks (f : LogState → LogState) : (s.onLog f).sinks = s.sinks := rfl
@[simp] theorem State.onLog_chain (f : LogState → LogState) : (s.onLog f).chain = s.chain := rfl
@[simp] theorem State.onLog_matrix (f : LogState → LogState) : (s.onLog f).matrix = s.matrix := rfl
@[simp] theorem State.onLog_inputs (f : LogState → LogState) : (s.onLog f).inputs = s.inputs := rfl
@[simp] theorem State.onLog_inLoss (f : LogState → LogState) : (s.onLog f).inLoss = s.inLoss := rfl
@[simp] theorem State.onLog_ios (f : LogState → LogState) : (s.onLog f).ios = s.ios := rfl
@[simp] theorem State.onLog_ans (f : LogState → LogState) : (s.onLog f).ans = s.ans := rfl
@[simp] theorem State.onLog_adc (f : LogState → LogState) : (s.onLog f).adc = s.adc := rfl
@[simp] theorem State.onLog_vq (f : LogState → LogState) : (s.onLog f).vq = s.vq := rfl
@[simp] theorem State.onLog_eng (f : LogState → LogState) : (s.onLog f).eng = s.eng := rfl
@[simp] theorem State.onLog_cans (f : LogState → LogState) : (s.onLog f).cans = s.cans := rfl
@[simp] theorem State.onLog_lins (f : LogState → LogState) : (s.onLog f).lins = s.lins := rfl
@[simp] theorem State.onLog_lq (f : LogState → LogState) : (s.onLog f).lq = s.lq := rfl
@[simp] theorem State.onLog_inq (f : LogState → LogState) : (s.onLog f).inq = s.inq := rfl
@[simp] theorem State.onLog_seqs (f : LogState → LogState) : (s.onLog f).seqs = s.seqs := rfl
@[simp] theorem State.onLog_dom (f : LogState → LogState) : (s.onLog f).dom = s.dom := rfl
@[simp] theorem State.onLog_cores (f : LogState → LogState) : (s.onLog f).cores = s.cores := rfl
@[simp] theorem State.onLog_eth (f : LogState → LogState) : (s.onLog f).eth = s.eth := rfl
@[simp] theorem State.onLog_ring (f : LogState → LogState) : (s.onLog f).ring = s.ring := rfl
@[simp] theorem State.onLog_duo (f : LogState → LogState) : (s.onLog f).duo = s.duo := rfl
@[simp] theorem State.onLog_pwr (f : LogState → LogState) : (s.onLog f).pwr = s.pwr := rfl
@[simp] theorem State.onLog_rst (f : LogState → LogState) : (s.onLog f).rst = s.rst := rfl
@[simp] theorem State.onLog_acs (f : LogState → LogState) : (s.onLog f).acs = s.acs := rfl
@[simp] theorem State.onLog_upd (f : LogState → LogState) : (s.onLog f).upd = s.upd := rfl
@[simp] theorem State.onLog_dbg (f : LogState → LogState) : (s.onLog f).dbg = s.dbg := rfl

@[simp] theorem State.onDbg_pending (f : Debug → Debug) : (s.onDbg f).pending = s.pending := rfl
@[simp] theorem State.onDbg_free (f : Debug → Debug) : (s.onDbg f).free = s.free := rfl
@[simp] theorem State.onDbg_time (f : Debug → Debug) : (s.onDbg f).time = s.time := rfl
@[simp] theorem State.onDbg_fab (f : Debug → Debug) : (s.onDbg f).fab = s.fab := rfl
@[simp] theorem State.onDbg_mem (f : Debug → Debug) : (s.onDbg f).mem = s.mem := rfl
@[simp] theorem State.onDbg_srv (f : Debug → Debug) : (s.onDbg f).srv = s.srv := rfl
@[simp] theorem State.onDbg_adm (f : Debug → Debug) : (s.onDbg f).adm = s.adm := rfl
@[simp] theorem State.onDbg_sup (f : Debug → Debug) : (s.onDbg f).sup = s.sup := rfl
@[simp] theorem State.onDbg_flt (f : Debug → Debug) : (s.onDbg f).flt = s.flt := rfl
@[simp] theorem State.onDbg_hs (f : Debug → Debug) : (s.onDbg f).hs = s.hs := rfl
@[simp] theorem State.onDbg_th (f : Debug → Debug) : (s.onDbg f).th = s.th := rfl
@[simp] theorem State.onDbg_legs (f : Debug → Debug) : (s.onDbg f).legs = s.legs := rfl
@[simp] theorem State.onDbg_pairs (f : Debug → Debug) : (s.onDbg f).pairs = s.pairs := rfl
@[simp] theorem State.onDbg_sout (f : Debug → Debug) : (s.onDbg f).sout = s.sout := rfl
@[simp] theorem State.onDbg_vd (f : Debug → Debug) : (s.onDbg f).vd = s.vd := rfl
@[simp] theorem State.onDbg_vb (f : Debug → Debug) : (s.onDbg f).vb = s.vb := rfl
@[simp] theorem State.onDbg_boost (f : Debug → Debug) : (s.onDbg f).boost = s.boost := rfl
@[simp] theorem State.onDbg_sinks (f : Debug → Debug) : (s.onDbg f).sinks = s.sinks := rfl
@[simp] theorem State.onDbg_chain (f : Debug → Debug) : (s.onDbg f).chain = s.chain := rfl
@[simp] theorem State.onDbg_matrix (f : Debug → Debug) : (s.onDbg f).matrix = s.matrix := rfl
@[simp] theorem State.onDbg_inputs (f : Debug → Debug) : (s.onDbg f).inputs = s.inputs := rfl
@[simp] theorem State.onDbg_inLoss (f : Debug → Debug) : (s.onDbg f).inLoss = s.inLoss := rfl
@[simp] theorem State.onDbg_ios (f : Debug → Debug) : (s.onDbg f).ios = s.ios := rfl
@[simp] theorem State.onDbg_ans (f : Debug → Debug) : (s.onDbg f).ans = s.ans := rfl
@[simp] theorem State.onDbg_adc (f : Debug → Debug) : (s.onDbg f).adc = s.adc := rfl
@[simp] theorem State.onDbg_vq (f : Debug → Debug) : (s.onDbg f).vq = s.vq := rfl
@[simp] theorem State.onDbg_eng (f : Debug → Debug) : (s.onDbg f).eng = s.eng := rfl
@[simp] theorem State.onDbg_cans (f : Debug → Debug) : (s.onDbg f).cans = s.cans := rfl
@[simp] theorem State.onDbg_lins (f : Debug → Debug) : (s.onDbg f).lins = s.lins := rfl
@[simp] theorem State.onDbg_lq (f : Debug → Debug) : (s.onDbg f).lq = s.lq := rfl
@[simp] theorem State.onDbg_inq (f : Debug → Debug) : (s.onDbg f).inq = s.inq := rfl
@[simp] theorem State.onDbg_seqs (f : Debug → Debug) : (s.onDbg f).seqs = s.seqs := rfl
@[simp] theorem State.onDbg_dom (f : Debug → Debug) : (s.onDbg f).dom = s.dom := rfl
@[simp] theorem State.onDbg_log (f : Debug → Debug) : (s.onDbg f).log = s.log := rfl
@[simp] theorem State.onDbg_cores (f : Debug → Debug) : (s.onDbg f).cores = s.cores := rfl
@[simp] theorem State.onDbg_eth (f : Debug → Debug) : (s.onDbg f).eth = s.eth := rfl
@[simp] theorem State.onDbg_ring (f : Debug → Debug) : (s.onDbg f).ring = s.ring := rfl
@[simp] theorem State.onDbg_duo (f : Debug → Debug) : (s.onDbg f).duo = s.duo := rfl
@[simp] theorem State.onDbg_pwr (f : Debug → Debug) : (s.onDbg f).pwr = s.pwr := rfl
@[simp] theorem State.onDbg_rst (f : Debug → Debug) : (s.onDbg f).rst = s.rst := rfl
@[simp] theorem State.onDbg_acs (f : Debug → Debug) : (s.onDbg f).acs = s.acs := rfl
@[simp] theorem State.onDbg_upd (f : Debug → Debug) : (s.onDbg f).upd = s.upd := rfl

@[simp] theorem State.onVd_pending (k : Fin 12) (f : Valve → Valve) : (s.onVd k f).pending = s.pending := rfl
@[simp] theorem State.onVd_free (k : Fin 12) (f : Valve → Valve) : (s.onVd k f).free = s.free := rfl
@[simp] theorem State.onVd_time (k : Fin 12) (f : Valve → Valve) : (s.onVd k f).time = s.time := rfl
@[simp] theorem State.onVd_fab (k : Fin 12) (f : Valve → Valve) : (s.onVd k f).fab = s.fab := rfl
@[simp] theorem State.onVd_mem (k : Fin 12) (f : Valve → Valve) : (s.onVd k f).mem = s.mem := rfl
@[simp] theorem State.onVd_srv (k : Fin 12) (f : Valve → Valve) : (s.onVd k f).srv = s.srv := rfl
@[simp] theorem State.onVd_adm (k : Fin 12) (f : Valve → Valve) : (s.onVd k f).adm = s.adm := rfl
@[simp] theorem State.onVd_sup (k : Fin 12) (f : Valve → Valve) : (s.onVd k f).sup = s.sup := rfl
@[simp] theorem State.onVd_flt (k : Fin 12) (f : Valve → Valve) : (s.onVd k f).flt = s.flt := rfl
@[simp] theorem State.onVd_hs (k : Fin 12) (f : Valve → Valve) : (s.onVd k f).hs = s.hs := rfl
@[simp] theorem State.onVd_th (k : Fin 12) (f : Valve → Valve) : (s.onVd k f).th = s.th := rfl
@[simp] theorem State.onVd_legs (k : Fin 12) (f : Valve → Valve) : (s.onVd k f).legs = s.legs := rfl
@[simp] theorem State.onVd_pairs (k : Fin 12) (f : Valve → Valve) : (s.onVd k f).pairs = s.pairs := rfl
@[simp] theorem State.onVd_sout (k : Fin 12) (f : Valve → Valve) : (s.onVd k f).sout = s.sout := rfl
@[simp] theorem State.onVd_vb (k : Fin 12) (f : Valve → Valve) : (s.onVd k f).vb = s.vb := rfl
@[simp] theorem State.onVd_boost (k : Fin 12) (f : Valve → Valve) : (s.onVd k f).boost = s.boost := rfl
@[simp] theorem State.onVd_sinks (k : Fin 12) (f : Valve → Valve) : (s.onVd k f).sinks = s.sinks := rfl
@[simp] theorem State.onVd_chain (k : Fin 12) (f : Valve → Valve) : (s.onVd k f).chain = s.chain := rfl
@[simp] theorem State.onVd_matrix (k : Fin 12) (f : Valve → Valve) : (s.onVd k f).matrix = s.matrix := rfl
@[simp] theorem State.onVd_inputs (k : Fin 12) (f : Valve → Valve) : (s.onVd k f).inputs = s.inputs := rfl
@[simp] theorem State.onVd_inLoss (k : Fin 12) (f : Valve → Valve) : (s.onVd k f).inLoss = s.inLoss := rfl
@[simp] theorem State.onVd_ios (k : Fin 12) (f : Valve → Valve) : (s.onVd k f).ios = s.ios := rfl
@[simp] theorem State.onVd_ans (k : Fin 12) (f : Valve → Valve) : (s.onVd k f).ans = s.ans := rfl
@[simp] theorem State.onVd_adc (k : Fin 12) (f : Valve → Valve) : (s.onVd k f).adc = s.adc := rfl
@[simp] theorem State.onVd_vq (k : Fin 12) (f : Valve → Valve) : (s.onVd k f).vq = s.vq := rfl
@[simp] theorem State.onVd_eng (k : Fin 12) (f : Valve → Valve) : (s.onVd k f).eng = s.eng := rfl
@[simp] theorem State.onVd_cans (k : Fin 12) (f : Valve → Valve) : (s.onVd k f).cans = s.cans := rfl
@[simp] theorem State.onVd_lins (k : Fin 12) (f : Valve → Valve) : (s.onVd k f).lins = s.lins := rfl
@[simp] theorem State.onVd_lq (k : Fin 12) (f : Valve → Valve) : (s.onVd k f).lq = s.lq := rfl
@[simp] theorem State.onVd_inq (k : Fin 12) (f : Valve → Valve) : (s.onVd k f).inq = s.inq := rfl
@[simp] theorem State.onVd_seqs (k : Fin 12) (f : Valve → Valve) : (s.onVd k f).seqs = s.seqs := rfl
@[simp] theorem State.onVd_dom (k : Fin 12) (f : Valve → Valve) : (s.onVd k f).dom = s.dom := rfl
@[simp] theorem State.onVd_log (k : Fin 12) (f : Valve → Valve) : (s.onVd k f).log = s.log := rfl
@[simp] theorem State.onVd_cores (k : Fin 12) (f : Valve → Valve) : (s.onVd k f).cores = s.cores := rfl
@[simp] theorem State.onVd_eth (k : Fin 12) (f : Valve → Valve) : (s.onVd k f).eth = s.eth := rfl
@[simp] theorem State.onVd_ring (k : Fin 12) (f : Valve → Valve) : (s.onVd k f).ring = s.ring := rfl
@[simp] theorem State.onVd_duo (k : Fin 12) (f : Valve → Valve) : (s.onVd k f).duo = s.duo := rfl
@[simp] theorem State.onVd_pwr (k : Fin 12) (f : Valve → Valve) : (s.onVd k f).pwr = s.pwr := rfl
@[simp] theorem State.onVd_rst (k : Fin 12) (f : Valve → Valve) : (s.onVd k f).rst = s.rst := rfl
@[simp] theorem State.onVd_acs (k : Fin 12) (f : Valve → Valve) : (s.onVd k f).acs = s.acs := rfl
@[simp] theorem State.onVd_upd (k : Fin 12) (f : Valve → Valve) : (s.onVd k f).upd = s.upd := rfl
@[simp] theorem State.onVd_dbg (k : Fin 12) (f : Valve → Valve) : (s.onVd k f).dbg = s.dbg := rfl

@[simp] theorem State.onVb_pending (k : Fin 4) (f : ValveBank → ValveBank) : (s.onVb k f).pending = s.pending := rfl
@[simp] theorem State.onVb_free (k : Fin 4) (f : ValveBank → ValveBank) : (s.onVb k f).free = s.free := rfl
@[simp] theorem State.onVb_time (k : Fin 4) (f : ValveBank → ValveBank) : (s.onVb k f).time = s.time := rfl
@[simp] theorem State.onVb_fab (k : Fin 4) (f : ValveBank → ValveBank) : (s.onVb k f).fab = s.fab := rfl
@[simp] theorem State.onVb_mem (k : Fin 4) (f : ValveBank → ValveBank) : (s.onVb k f).mem = s.mem := rfl
@[simp] theorem State.onVb_srv (k : Fin 4) (f : ValveBank → ValveBank) : (s.onVb k f).srv = s.srv := rfl
@[simp] theorem State.onVb_adm (k : Fin 4) (f : ValveBank → ValveBank) : (s.onVb k f).adm = s.adm := rfl
@[simp] theorem State.onVb_sup (k : Fin 4) (f : ValveBank → ValveBank) : (s.onVb k f).sup = s.sup := rfl
@[simp] theorem State.onVb_flt (k : Fin 4) (f : ValveBank → ValveBank) : (s.onVb k f).flt = s.flt := rfl
@[simp] theorem State.onVb_hs (k : Fin 4) (f : ValveBank → ValveBank) : (s.onVb k f).hs = s.hs := rfl
@[simp] theorem State.onVb_th (k : Fin 4) (f : ValveBank → ValveBank) : (s.onVb k f).th = s.th := rfl
@[simp] theorem State.onVb_legs (k : Fin 4) (f : ValveBank → ValveBank) : (s.onVb k f).legs = s.legs := rfl
@[simp] theorem State.onVb_pairs (k : Fin 4) (f : ValveBank → ValveBank) : (s.onVb k f).pairs = s.pairs := rfl
@[simp] theorem State.onVb_sout (k : Fin 4) (f : ValveBank → ValveBank) : (s.onVb k f).sout = s.sout := rfl
@[simp] theorem State.onVb_vd (k : Fin 4) (f : ValveBank → ValveBank) : (s.onVb k f).vd = s.vd := rfl
@[simp] theorem State.onVb_boost (k : Fin 4) (f : ValveBank → ValveBank) : (s.onVb k f).boost = s.boost := rfl
@[simp] theorem State.onVb_sinks (k : Fin 4) (f : ValveBank → ValveBank) : (s.onVb k f).sinks = s.sinks := rfl
@[simp] theorem State.onVb_chain (k : Fin 4) (f : ValveBank → ValveBank) : (s.onVb k f).chain = s.chain := rfl
@[simp] theorem State.onVb_matrix (k : Fin 4) (f : ValveBank → ValveBank) : (s.onVb k f).matrix = s.matrix := rfl
@[simp] theorem State.onVb_inputs (k : Fin 4) (f : ValveBank → ValveBank) : (s.onVb k f).inputs = s.inputs := rfl
@[simp] theorem State.onVb_inLoss (k : Fin 4) (f : ValveBank → ValveBank) : (s.onVb k f).inLoss = s.inLoss := rfl
@[simp] theorem State.onVb_ios (k : Fin 4) (f : ValveBank → ValveBank) : (s.onVb k f).ios = s.ios := rfl
@[simp] theorem State.onVb_ans (k : Fin 4) (f : ValveBank → ValveBank) : (s.onVb k f).ans = s.ans := rfl
@[simp] theorem State.onVb_adc (k : Fin 4) (f : ValveBank → ValveBank) : (s.onVb k f).adc = s.adc := rfl
@[simp] theorem State.onVb_vq (k : Fin 4) (f : ValveBank → ValveBank) : (s.onVb k f).vq = s.vq := rfl
@[simp] theorem State.onVb_eng (k : Fin 4) (f : ValveBank → ValveBank) : (s.onVb k f).eng = s.eng := rfl
@[simp] theorem State.onVb_cans (k : Fin 4) (f : ValveBank → ValveBank) : (s.onVb k f).cans = s.cans := rfl
@[simp] theorem State.onVb_lins (k : Fin 4) (f : ValveBank → ValveBank) : (s.onVb k f).lins = s.lins := rfl
@[simp] theorem State.onVb_lq (k : Fin 4) (f : ValveBank → ValveBank) : (s.onVb k f).lq = s.lq := rfl
@[simp] theorem State.onVb_inq (k : Fin 4) (f : ValveBank → ValveBank) : (s.onVb k f).inq = s.inq := rfl
@[simp] theorem State.onVb_seqs (k : Fin 4) (f : ValveBank → ValveBank) : (s.onVb k f).seqs = s.seqs := rfl
@[simp] theorem State.onVb_dom (k : Fin 4) (f : ValveBank → ValveBank) : (s.onVb k f).dom = s.dom := rfl
@[simp] theorem State.onVb_log (k : Fin 4) (f : ValveBank → ValveBank) : (s.onVb k f).log = s.log := rfl
@[simp] theorem State.onVb_cores (k : Fin 4) (f : ValveBank → ValveBank) : (s.onVb k f).cores = s.cores := rfl
@[simp] theorem State.onVb_eth (k : Fin 4) (f : ValveBank → ValveBank) : (s.onVb k f).eth = s.eth := rfl
@[simp] theorem State.onVb_ring (k : Fin 4) (f : ValveBank → ValveBank) : (s.onVb k f).ring = s.ring := rfl
@[simp] theorem State.onVb_duo (k : Fin 4) (f : ValveBank → ValveBank) : (s.onVb k f).duo = s.duo := rfl
@[simp] theorem State.onVb_pwr (k : Fin 4) (f : ValveBank → ValveBank) : (s.onVb k f).pwr = s.pwr := rfl
@[simp] theorem State.onVb_rst (k : Fin 4) (f : ValveBank → ValveBank) : (s.onVb k f).rst = s.rst := rfl
@[simp] theorem State.onVb_acs (k : Fin 4) (f : ValveBank → ValveBank) : (s.onVb k f).acs = s.acs := rfl
@[simp] theorem State.onVb_upd (k : Fin 4) (f : ValveBank → ValveBank) : (s.onVb k f).upd = s.upd := rfl
@[simp] theorem State.onVb_dbg (k : Fin 4) (f : ValveBank → ValveBank) : (s.onVb k f).dbg = s.dbg := rfl

@[simp] theorem State.onBoost_pending (f : Boost → Boost) : (s.onBoost f).pending = s.pending := rfl
@[simp] theorem State.onBoost_free (f : Boost → Boost) : (s.onBoost f).free = s.free := rfl
@[simp] theorem State.onBoost_time (f : Boost → Boost) : (s.onBoost f).time = s.time := rfl
@[simp] theorem State.onBoost_fab (f : Boost → Boost) : (s.onBoost f).fab = s.fab := rfl
@[simp] theorem State.onBoost_mem (f : Boost → Boost) : (s.onBoost f).mem = s.mem := rfl
@[simp] theorem State.onBoost_srv (f : Boost → Boost) : (s.onBoost f).srv = s.srv := rfl
@[simp] theorem State.onBoost_adm (f : Boost → Boost) : (s.onBoost f).adm = s.adm := rfl
@[simp] theorem State.onBoost_sup (f : Boost → Boost) : (s.onBoost f).sup = s.sup := rfl
@[simp] theorem State.onBoost_flt (f : Boost → Boost) : (s.onBoost f).flt = s.flt := rfl
@[simp] theorem State.onBoost_hs (f : Boost → Boost) : (s.onBoost f).hs = s.hs := rfl
@[simp] theorem State.onBoost_th (f : Boost → Boost) : (s.onBoost f).th = s.th := rfl
@[simp] theorem State.onBoost_legs (f : Boost → Boost) : (s.onBoost f).legs = s.legs := rfl
@[simp] theorem State.onBoost_pairs (f : Boost → Boost) : (s.onBoost f).pairs = s.pairs := rfl
@[simp] theorem State.onBoost_sout (f : Boost → Boost) : (s.onBoost f).sout = s.sout := rfl
@[simp] theorem State.onBoost_vd (f : Boost → Boost) : (s.onBoost f).vd = s.vd := rfl
@[simp] theorem State.onBoost_vb (f : Boost → Boost) : (s.onBoost f).vb = s.vb := rfl
@[simp] theorem State.onBoost_sinks (f : Boost → Boost) : (s.onBoost f).sinks = s.sinks := rfl
@[simp] theorem State.onBoost_chain (f : Boost → Boost) : (s.onBoost f).chain = s.chain := rfl
@[simp] theorem State.onBoost_matrix (f : Boost → Boost) : (s.onBoost f).matrix = s.matrix := rfl
@[simp] theorem State.onBoost_inputs (f : Boost → Boost) : (s.onBoost f).inputs = s.inputs := rfl
@[simp] theorem State.onBoost_inLoss (f : Boost → Boost) : (s.onBoost f).inLoss = s.inLoss := rfl
@[simp] theorem State.onBoost_ios (f : Boost → Boost) : (s.onBoost f).ios = s.ios := rfl
@[simp] theorem State.onBoost_ans (f : Boost → Boost) : (s.onBoost f).ans = s.ans := rfl
@[simp] theorem State.onBoost_adc (f : Boost → Boost) : (s.onBoost f).adc = s.adc := rfl
@[simp] theorem State.onBoost_vq (f : Boost → Boost) : (s.onBoost f).vq = s.vq := rfl
@[simp] theorem State.onBoost_eng (f : Boost → Boost) : (s.onBoost f).eng = s.eng := rfl
@[simp] theorem State.onBoost_cans (f : Boost → Boost) : (s.onBoost f).cans = s.cans := rfl
@[simp] theorem State.onBoost_lins (f : Boost → Boost) : (s.onBoost f).lins = s.lins := rfl
@[simp] theorem State.onBoost_lq (f : Boost → Boost) : (s.onBoost f).lq = s.lq := rfl
@[simp] theorem State.onBoost_inq (f : Boost → Boost) : (s.onBoost f).inq = s.inq := rfl
@[simp] theorem State.onBoost_seqs (f : Boost → Boost) : (s.onBoost f).seqs = s.seqs := rfl
@[simp] theorem State.onBoost_dom (f : Boost → Boost) : (s.onBoost f).dom = s.dom := rfl
@[simp] theorem State.onBoost_log (f : Boost → Boost) : (s.onBoost f).log = s.log := rfl
@[simp] theorem State.onBoost_cores (f : Boost → Boost) : (s.onBoost f).cores = s.cores := rfl
@[simp] theorem State.onBoost_eth (f : Boost → Boost) : (s.onBoost f).eth = s.eth := rfl
@[simp] theorem State.onBoost_ring (f : Boost → Boost) : (s.onBoost f).ring = s.ring := rfl
@[simp] theorem State.onBoost_duo (f : Boost → Boost) : (s.onBoost f).duo = s.duo := rfl
@[simp] theorem State.onBoost_pwr (f : Boost → Boost) : (s.onBoost f).pwr = s.pwr := rfl
@[simp] theorem State.onBoost_rst (f : Boost → Boost) : (s.onBoost f).rst = s.rst := rfl
@[simp] theorem State.onBoost_acs (f : Boost → Boost) : (s.onBoost f).acs = s.acs := rfl
@[simp] theorem State.onBoost_upd (f : Boost → Boost) : (s.onBoost f).upd = s.upd := rfl
@[simp] theorem State.onBoost_dbg (f : Boost → Boost) : (s.onBoost f).dbg = s.dbg := rfl

@[simp] theorem State.onQueues_pending (f : EvQ → EvQ) : (s.onQueues f).pending = s.pending := rfl
@[simp] theorem State.onQueues_free (f : EvQ → EvQ) : (s.onQueues f).free = s.free := rfl
@[simp] theorem State.onQueues_time (f : EvQ → EvQ) : (s.onQueues f).time = s.time := rfl
@[simp] theorem State.onQueues_fab (f : EvQ → EvQ) : (s.onQueues f).fab = s.fab := rfl
@[simp] theorem State.onQueues_mem (f : EvQ → EvQ) : (s.onQueues f).mem = s.mem := rfl
@[simp] theorem State.onQueues_srv (f : EvQ → EvQ) : (s.onQueues f).srv = s.srv := rfl
@[simp] theorem State.onQueues_sup (f : EvQ → EvQ) : (s.onQueues f).sup = s.sup := rfl
@[simp] theorem State.onQueues_hs (f : EvQ → EvQ) : (s.onQueues f).hs = s.hs := rfl
@[simp] theorem State.onQueues_th (f : EvQ → EvQ) : (s.onQueues f).th = s.th := rfl
@[simp] theorem State.onQueues_legs (f : EvQ → EvQ) : (s.onQueues f).legs = s.legs := rfl
@[simp] theorem State.onQueues_pairs (f : EvQ → EvQ) : (s.onQueues f).pairs = s.pairs := rfl
@[simp] theorem State.onQueues_sout (f : EvQ → EvQ) : (s.onQueues f).sout = s.sout := rfl
@[simp] theorem State.onQueues_vd (f : EvQ → EvQ) : (s.onQueues f).vd = s.vd := rfl
@[simp] theorem State.onQueues_vb (f : EvQ → EvQ) : (s.onQueues f).vb = s.vb := rfl
@[simp] theorem State.onQueues_boost (f : EvQ → EvQ) : (s.onQueues f).boost = s.boost := rfl
@[simp] theorem State.onQueues_sinks (f : EvQ → EvQ) : (s.onQueues f).sinks = s.sinks := rfl
@[simp] theorem State.onQueues_chain (f : EvQ → EvQ) : (s.onQueues f).chain = s.chain := rfl
@[simp] theorem State.onQueues_matrix (f : EvQ → EvQ) : (s.onQueues f).matrix = s.matrix := rfl
@[simp] theorem State.onQueues_inputs (f : EvQ → EvQ) : (s.onQueues f).inputs = s.inputs := rfl
@[simp] theorem State.onQueues_inLoss (f : EvQ → EvQ) : (s.onQueues f).inLoss = s.inLoss := rfl
@[simp] theorem State.onQueues_ios (f : EvQ → EvQ) : (s.onQueues f).ios = s.ios := rfl
@[simp] theorem State.onQueues_ans (f : EvQ → EvQ) : (s.onQueues f).ans = s.ans := rfl
@[simp] theorem State.onQueues_adc (f : EvQ → EvQ) : (s.onQueues f).adc = s.adc := rfl
@[simp] theorem State.onQueues_eng (f : EvQ → EvQ) : (s.onQueues f).eng = s.eng := rfl
@[simp] theorem State.onQueues_cans (f : EvQ → EvQ) : (s.onQueues f).cans = s.cans := rfl
@[simp] theorem State.onQueues_lins (f : EvQ → EvQ) : (s.onQueues f).lins = s.lins := rfl
@[simp] theorem State.onQueues_seqs (f : EvQ → EvQ) : (s.onQueues f).seqs = s.seqs := rfl
@[simp] theorem State.onQueues_dom (f : EvQ → EvQ) : (s.onQueues f).dom = s.dom := rfl
@[simp] theorem State.onQueues_log (f : EvQ → EvQ) : (s.onQueues f).log = s.log := rfl
@[simp] theorem State.onQueues_cores (f : EvQ → EvQ) : (s.onQueues f).cores = s.cores := rfl
@[simp] theorem State.onQueues_eth (f : EvQ → EvQ) : (s.onQueues f).eth = s.eth := rfl
@[simp] theorem State.onQueues_ring (f : EvQ → EvQ) : (s.onQueues f).ring = s.ring := rfl
@[simp] theorem State.onQueues_duo (f : EvQ → EvQ) : (s.onQueues f).duo = s.duo := rfl
@[simp] theorem State.onQueues_pwr (f : EvQ → EvQ) : (s.onQueues f).pwr = s.pwr := rfl
@[simp] theorem State.onQueues_rst (f : EvQ → EvQ) : (s.onQueues f).rst = s.rst := rfl
@[simp] theorem State.onQueues_acs (f : EvQ → EvQ) : (s.onQueues f).acs = s.acs := rfl
@[simp] theorem State.onQueues_upd (f : EvQ → EvQ) : (s.onQueues f).upd = s.upd := rfl
@[simp] theorem State.onQueues_dbg (f : EvQ → EvQ) : (s.onQueues f).dbg = s.dbg := rfl

@[simp] theorem State.raise_pending (b k : Nat) : (s.raise b k).pending = s.pending := rfl
@[simp] theorem State.raise_free (b k : Nat) : (s.raise b k).free = s.free := rfl
@[simp] theorem State.raise_time (b k : Nat) : (s.raise b k).time = s.time := rfl
@[simp] theorem State.raise_fab (b k : Nat) : (s.raise b k).fab = s.fab := rfl
@[simp] theorem State.raise_mem (b k : Nat) : (s.raise b k).mem = s.mem := rfl
@[simp] theorem State.raise_srv (b k : Nat) : (s.raise b k).srv = s.srv := rfl
@[simp] theorem State.raise_adm (b k : Nat) : (s.raise b k).adm = s.adm := rfl
@[simp] theorem State.raise_sup (b k : Nat) : (s.raise b k).sup = s.sup := rfl
@[simp] theorem State.raise_hs (b k : Nat) : (s.raise b k).hs = s.hs := rfl
@[simp] theorem State.raise_th (b k : Nat) : (s.raise b k).th = s.th := rfl
@[simp] theorem State.raise_legs (b k : Nat) : (s.raise b k).legs = s.legs := rfl
@[simp] theorem State.raise_pairs (b k : Nat) : (s.raise b k).pairs = s.pairs := rfl
@[simp] theorem State.raise_sout (b k : Nat) : (s.raise b k).sout = s.sout := rfl
@[simp] theorem State.raise_vd (b k : Nat) : (s.raise b k).vd = s.vd := rfl
@[simp] theorem State.raise_vb (b k : Nat) : (s.raise b k).vb = s.vb := rfl
@[simp] theorem State.raise_boost (b k : Nat) : (s.raise b k).boost = s.boost := rfl
@[simp] theorem State.raise_sinks (b k : Nat) : (s.raise b k).sinks = s.sinks := rfl
@[simp] theorem State.raise_chain (b k : Nat) : (s.raise b k).chain = s.chain := rfl
@[simp] theorem State.raise_matrix (b k : Nat) : (s.raise b k).matrix = s.matrix := rfl
@[simp] theorem State.raise_inputs (b k : Nat) : (s.raise b k).inputs = s.inputs := rfl
@[simp] theorem State.raise_inLoss (b k : Nat) : (s.raise b k).inLoss = s.inLoss := rfl
@[simp] theorem State.raise_ios (b k : Nat) : (s.raise b k).ios = s.ios := rfl
@[simp] theorem State.raise_ans (b k : Nat) : (s.raise b k).ans = s.ans := rfl
@[simp] theorem State.raise_adc (b k : Nat) : (s.raise b k).adc = s.adc := rfl
@[simp] theorem State.raise_vq (b k : Nat) : (s.raise b k).vq = s.vq := rfl
@[simp] theorem State.raise_eng (b k : Nat) : (s.raise b k).eng = s.eng := rfl
@[simp] theorem State.raise_cans (b k : Nat) : (s.raise b k).cans = s.cans := rfl
@[simp] theorem State.raise_lins (b k : Nat) : (s.raise b k).lins = s.lins := rfl
@[simp] theorem State.raise_lq (b k : Nat) : (s.raise b k).lq = s.lq := rfl
@[simp] theorem State.raise_inq (b k : Nat) : (s.raise b k).inq = s.inq := rfl
@[simp] theorem State.raise_seqs (b k : Nat) : (s.raise b k).seqs = s.seqs := rfl
@[simp] theorem State.raise_dom (b k : Nat) : (s.raise b k).dom = s.dom := rfl
@[simp] theorem State.raise_log (b k : Nat) : (s.raise b k).log = s.log := rfl
@[simp] theorem State.raise_cores (b k : Nat) : (s.raise b k).cores = s.cores := rfl
@[simp] theorem State.raise_eth (b k : Nat) : (s.raise b k).eth = s.eth := rfl
@[simp] theorem State.raise_ring (b k : Nat) : (s.raise b k).ring = s.ring := rfl
@[simp] theorem State.raise_duo (b k : Nat) : (s.raise b k).duo = s.duo := rfl
@[simp] theorem State.raise_pwr (b k : Nat) : (s.raise b k).pwr = s.pwr := rfl
@[simp] theorem State.raise_rst (b k : Nat) : (s.raise b k).rst = s.rst := rfl
@[simp] theorem State.raise_acs (b k : Nat) : (s.raise b k).acs = s.acs := rfl
@[simp] theorem State.raise_upd (b k : Nat) : (s.raise b k).upd = s.upd := rfl
@[simp] theorem State.raise_dbg (b k : Nat) : (s.raise b k).dbg = s.dbg := rfl

@[simp] theorem State.toFlow_pending (n : Fin 256) (l : List Word) : (s.toFlow n l).pending = s.pending := rfl
@[simp] theorem State.toFlow_free (n : Fin 256) (l : List Word) : (s.toFlow n l).free = s.free := rfl
@[simp] theorem State.toFlow_time (n : Fin 256) (l : List Word) : (s.toFlow n l).time = s.time := rfl
@[simp] theorem State.toFlow_mem (n : Fin 256) (l : List Word) : (s.toFlow n l).mem = s.mem := rfl
@[simp] theorem State.toFlow_srv (n : Fin 256) (l : List Word) : (s.toFlow n l).srv = s.srv := rfl
@[simp] theorem State.toFlow_adm (n : Fin 256) (l : List Word) : (s.toFlow n l).adm = s.adm := rfl
@[simp] theorem State.toFlow_sup (n : Fin 256) (l : List Word) : (s.toFlow n l).sup = s.sup := rfl
@[simp] theorem State.toFlow_flt (n : Fin 256) (l : List Word) : (s.toFlow n l).flt = s.flt := rfl
@[simp] theorem State.toFlow_hs (n : Fin 256) (l : List Word) : (s.toFlow n l).hs = s.hs := rfl
@[simp] theorem State.toFlow_th (n : Fin 256) (l : List Word) : (s.toFlow n l).th = s.th := rfl
@[simp] theorem State.toFlow_legs (n : Fin 256) (l : List Word) : (s.toFlow n l).legs = s.legs := rfl
@[simp] theorem State.toFlow_pairs (n : Fin 256) (l : List Word) : (s.toFlow n l).pairs = s.pairs := rfl
@[simp] theorem State.toFlow_sout (n : Fin 256) (l : List Word) : (s.toFlow n l).sout = s.sout := rfl
@[simp] theorem State.toFlow_vd (n : Fin 256) (l : List Word) : (s.toFlow n l).vd = s.vd := rfl
@[simp] theorem State.toFlow_vb (n : Fin 256) (l : List Word) : (s.toFlow n l).vb = s.vb := rfl
@[simp] theorem State.toFlow_boost (n : Fin 256) (l : List Word) : (s.toFlow n l).boost = s.boost := rfl
@[simp] theorem State.toFlow_sinks (n : Fin 256) (l : List Word) : (s.toFlow n l).sinks = s.sinks := rfl
@[simp] theorem State.toFlow_chain (n : Fin 256) (l : List Word) : (s.toFlow n l).chain = s.chain := rfl
@[simp] theorem State.toFlow_matrix (n : Fin 256) (l : List Word) : (s.toFlow n l).matrix = s.matrix := rfl
@[simp] theorem State.toFlow_inputs (n : Fin 256) (l : List Word) : (s.toFlow n l).inputs = s.inputs := rfl
@[simp] theorem State.toFlow_inLoss (n : Fin 256) (l : List Word) : (s.toFlow n l).inLoss = s.inLoss := rfl
@[simp] theorem State.toFlow_ios (n : Fin 256) (l : List Word) : (s.toFlow n l).ios = s.ios := rfl
@[simp] theorem State.toFlow_ans (n : Fin 256) (l : List Word) : (s.toFlow n l).ans = s.ans := rfl
@[simp] theorem State.toFlow_adc (n : Fin 256) (l : List Word) : (s.toFlow n l).adc = s.adc := rfl
@[simp] theorem State.toFlow_vq (n : Fin 256) (l : List Word) : (s.toFlow n l).vq = s.vq := rfl
@[simp] theorem State.toFlow_eng (n : Fin 256) (l : List Word) : (s.toFlow n l).eng = s.eng := rfl
@[simp] theorem State.toFlow_cans (n : Fin 256) (l : List Word) : (s.toFlow n l).cans = s.cans := rfl
@[simp] theorem State.toFlow_lins (n : Fin 256) (l : List Word) : (s.toFlow n l).lins = s.lins := rfl
@[simp] theorem State.toFlow_lq (n : Fin 256) (l : List Word) : (s.toFlow n l).lq = s.lq := rfl
@[simp] theorem State.toFlow_inq (n : Fin 256) (l : List Word) : (s.toFlow n l).inq = s.inq := rfl
@[simp] theorem State.toFlow_seqs (n : Fin 256) (l : List Word) : (s.toFlow n l).seqs = s.seqs := rfl
@[simp] theorem State.toFlow_dom (n : Fin 256) (l : List Word) : (s.toFlow n l).dom = s.dom := rfl
@[simp] theorem State.toFlow_log (n : Fin 256) (l : List Word) : (s.toFlow n l).log = s.log := rfl
@[simp] theorem State.toFlow_cores (n : Fin 256) (l : List Word) : (s.toFlow n l).cores = s.cores := rfl
@[simp] theorem State.toFlow_eth (n : Fin 256) (l : List Word) : (s.toFlow n l).eth = s.eth := rfl
@[simp] theorem State.toFlow_ring (n : Fin 256) (l : List Word) : (s.toFlow n l).ring = s.ring := rfl
@[simp] theorem State.toFlow_duo (n : Fin 256) (l : List Word) : (s.toFlow n l).duo = s.duo := rfl
@[simp] theorem State.toFlow_pwr (n : Fin 256) (l : List Word) : (s.toFlow n l).pwr = s.pwr := rfl
@[simp] theorem State.toFlow_rst (n : Fin 256) (l : List Word) : (s.toFlow n l).rst = s.rst := rfl
@[simp] theorem State.toFlow_acs (n : Fin 256) (l : List Word) : (s.toFlow n l).acs = s.acs := rfl
@[simp] theorem State.toFlow_upd (n : Fin 256) (l : List Word) : (s.toFlow n l).upd = s.upd := rfl
@[simp] theorem State.toFlow_dbg (n : Fin 256) (l : List Word) : (s.toFlow n l).dbg = s.dbg := rfl

@[simp] theorem State.setObj_pending (i k : Nat) (v : Val) : (s.setObj i k v).pending = s.pending := rfl
@[simp] theorem State.setObj_free (i k : Nat) (v : Val) : (s.setObj i k v).free = s.free := rfl
@[simp] theorem State.setObj_time (i k : Nat) (v : Val) : (s.setObj i k v).time = s.time := rfl
@[simp] theorem State.setObj_fab (i k : Nat) (v : Val) : (s.setObj i k v).fab = s.fab := rfl
@[simp] theorem State.setObj_mem (i k : Nat) (v : Val) : (s.setObj i k v).mem = s.mem := rfl
@[simp] theorem State.setObj_adm (i k : Nat) (v : Val) : (s.setObj i k v).adm = s.adm := rfl
@[simp] theorem State.setObj_sup (i k : Nat) (v : Val) : (s.setObj i k v).sup = s.sup := rfl
@[simp] theorem State.setObj_flt (i k : Nat) (v : Val) : (s.setObj i k v).flt = s.flt := rfl
@[simp] theorem State.setObj_hs (i k : Nat) (v : Val) : (s.setObj i k v).hs = s.hs := rfl
@[simp] theorem State.setObj_th (i k : Nat) (v : Val) : (s.setObj i k v).th = s.th := rfl
@[simp] theorem State.setObj_legs (i k : Nat) (v : Val) : (s.setObj i k v).legs = s.legs := rfl
@[simp] theorem State.setObj_pairs (i k : Nat) (v : Val) : (s.setObj i k v).pairs = s.pairs := rfl
@[simp] theorem State.setObj_sout (i k : Nat) (v : Val) : (s.setObj i k v).sout = s.sout := rfl
@[simp] theorem State.setObj_vd (i k : Nat) (v : Val) : (s.setObj i k v).vd = s.vd := rfl
@[simp] theorem State.setObj_vb (i k : Nat) (v : Val) : (s.setObj i k v).vb = s.vb := rfl
@[simp] theorem State.setObj_boost (i k : Nat) (v : Val) : (s.setObj i k v).boost = s.boost := rfl
@[simp] theorem State.setObj_sinks (i k : Nat) (v : Val) : (s.setObj i k v).sinks = s.sinks := rfl
@[simp] theorem State.setObj_chain (i k : Nat) (v : Val) : (s.setObj i k v).chain = s.chain := rfl
@[simp] theorem State.setObj_matrix (i k : Nat) (v : Val) : (s.setObj i k v).matrix = s.matrix := rfl
@[simp] theorem State.setObj_inputs (i k : Nat) (v : Val) : (s.setObj i k v).inputs = s.inputs := rfl
@[simp] theorem State.setObj_inLoss (i k : Nat) (v : Val) : (s.setObj i k v).inLoss = s.inLoss := rfl
@[simp] theorem State.setObj_ios (i k : Nat) (v : Val) : (s.setObj i k v).ios = s.ios := rfl
@[simp] theorem State.setObj_ans (i k : Nat) (v : Val) : (s.setObj i k v).ans = s.ans := rfl
@[simp] theorem State.setObj_adc (i k : Nat) (v : Val) : (s.setObj i k v).adc = s.adc := rfl
@[simp] theorem State.setObj_vq (i k : Nat) (v : Val) : (s.setObj i k v).vq = s.vq := rfl
@[simp] theorem State.setObj_eng (i k : Nat) (v : Val) : (s.setObj i k v).eng = s.eng := rfl
@[simp] theorem State.setObj_cans (i k : Nat) (v : Val) : (s.setObj i k v).cans = s.cans := rfl
@[simp] theorem State.setObj_lins (i k : Nat) (v : Val) : (s.setObj i k v).lins = s.lins := rfl
@[simp] theorem State.setObj_lq (i k : Nat) (v : Val) : (s.setObj i k v).lq = s.lq := rfl
@[simp] theorem State.setObj_inq (i k : Nat) (v : Val) : (s.setObj i k v).inq = s.inq := rfl
@[simp] theorem State.setObj_seqs (i k : Nat) (v : Val) : (s.setObj i k v).seqs = s.seqs := rfl
@[simp] theorem State.setObj_dom (i k : Nat) (v : Val) : (s.setObj i k v).dom = s.dom := rfl
@[simp] theorem State.setObj_log (i k : Nat) (v : Val) : (s.setObj i k v).log = s.log := rfl
@[simp] theorem State.setObj_cores (i k : Nat) (v : Val) : (s.setObj i k v).cores = s.cores := rfl
@[simp] theorem State.setObj_eth (i k : Nat) (v : Val) : (s.setObj i k v).eth = s.eth := rfl
@[simp] theorem State.setObj_ring (i k : Nat) (v : Val) : (s.setObj i k v).ring = s.ring := rfl
@[simp] theorem State.setObj_duo (i k : Nat) (v : Val) : (s.setObj i k v).duo = s.duo := rfl
@[simp] theorem State.setObj_pwr (i k : Nat) (v : Val) : (s.setObj i k v).pwr = s.pwr := rfl
@[simp] theorem State.setObj_rst (i k : Nat) (v : Val) : (s.setObj i k v).rst = s.rst := rfl
@[simp] theorem State.setObj_acs (i k : Nat) (v : Val) : (s.setObj i k v).acs = s.acs := rfl
@[simp] theorem State.setObj_upd (i k : Nat) (v : Val) : (s.setObj i k v).upd = s.upd := rfl
@[simp] theorem State.setObj_dbg (i k : Nat) (v : Val) : (s.setObj i k v).dbg = s.dbg := rfl

@[simp] theorem State.onTime_time (f : TimeState → TimeState) : (s.onTime f).time = f s.time := rfl
@[simp] theorem State.onFab_fab (f : Fabric → Fabric) : (s.onFab f).fab = f s.fab := rfl
@[simp] theorem State.onMem_mem (f : Memory → Memory) : (s.onMem f).mem = f s.mem := rfl
@[simp] theorem State.onSrv_srv (f : Server → Server) : (s.onSrv f).srv = f s.srv := rfl
@[simp] theorem State.onAdm_adm (f : Admission → Admission) : (s.onAdm f).adm = f s.adm := rfl
@[simp] theorem State.onSup_sup (f : Supply → Supply) : (s.onSup f).sup = f s.sup := rfl
@[simp] theorem State.onFlt_flt (f : FaultState → FaultState) : (s.onFlt f).flt = f s.flt := rfl
@[simp] theorem State.onPair_pairs (k : Fin 8) (f : Pair → Pair) : (s.onPair k f).pairs = bmod s.pairs k f := rfl
@[simp] theorem State.onLeg_legs (k : Fin 16) (f : Leg → Leg) : (s.onLeg k f).legs = bmod s.legs k f := rfl
@[simp] theorem State.onCan_cans (k : Fin 8) (f : CanCh → CanCh) : (s.onCan k f).cans = bmod s.cans k f := rfl
@[simp] theorem State.onAcs_acs (f : AccessState → AccessState) : (s.onAcs f).acs = f s.acs := rfl
@[simp] theorem State.onPwr_pwr (f : Power → Power) : (s.onPwr f).pwr = f s.pwr := rfl
@[simp] theorem State.onRst_rst (f : ResetState → ResetState) : (s.onRst f).rst = f s.rst := rfl
@[simp] theorem State.onCore_cores (k : Fin 2) (f : Core → Core) : (s.onCore k f).cores = bmod s.cores k f := rfl
@[simp] theorem State.onDuo_duo (f : Duo → Duo) : (s.onDuo f).duo = f s.duo := rfl
@[simp] theorem State.onEth_eth (f : Ethernet → Ethernet) : (s.onEth f).eth = f s.eth := rfl
@[simp] theorem State.onHs_hs (k : Fin 72) (f : HsChannel → HsChannel) : (s.onHs k f).hs = bmod s.hs k f := rfl
@[simp] theorem State.onTh_th (k : ThermGrp) (f : ThermState → ThermState) : (s.onTh k f).th = bmod s.th k f := rfl
@[simp] theorem State.onIn_inputs (k : Fin 80) (f : Input → Input) : (s.onIn k f).inputs = bmod s.inputs k f := rfl
@[simp] theorem State.onIo_ios (k : Fin 16) (f : IoPin → IoPin) : (s.onIo k f).ios = bmod s.ios k f := rfl
@[simp] theorem State.onAn_ans (k : Fin 16) (f : Analog → Analog) : (s.onAn k f).ans = bmod s.ans k f := rfl
@[simp] theorem State.onAdc_adc (f : AdcState → AdcState) : (s.onAdc f).adc = f s.adc := rfl
@[simp] theorem State.onSink_sinks (k : Fin 24) (f : Sink → Sink) : (s.onSink k f).sinks = bmod s.sinks k f := rfl
@[simp] theorem State.onChain_chain (f : Chain → Chain) : (s.onChain f).chain = f s.chain := rfl
@[simp] theorem State.onMatrix_matrix (f : Matrix → Matrix) : (s.onMatrix f).matrix = f s.matrix := rfl
@[simp] theorem State.onLin_lins (k : Fin 8) (f : LinCh → LinCh) : (s.onLin k f).lins = bmod s.lins k f := rfl
@[simp] theorem State.onEng_eng (f : Engine → Engine) : (s.onEng f).eng = f s.eng := rfl
@[simp] theorem State.onSeq_seqs (k : Fin 16) (f : Seq → Seq) : (s.onSeq k f).seqs = bmod s.seqs k f := rfl
@[simp] theorem State.onRing_ring (f : Ring → Ring) : (s.onRing f).ring = f s.ring := rfl
@[simp] theorem State.onUpd_upd (f : Update → Update) : (s.onUpd f).upd = f s.upd := rfl
@[simp] theorem State.onLog_log (f : LogState → LogState) : (s.onLog f).log = f s.log := rfl
@[simp] theorem State.onDbg_dbg (f : Debug → Debug) : (s.onDbg f).dbg = f s.dbg := rfl
@[simp] theorem State.onVd_vd (k : Fin 12) (f : Valve → Valve) : (s.onVd k f).vd = bmod s.vd k f := rfl
@[simp] theorem State.onVb_vb (k : Fin 4) (f : ValveBank → ValveBank) : (s.onVb k f).vb = bmod s.vb k f := rfl
@[simp] theorem State.onBoost_boost (f : Boost → Boost) : (s.onBoost f).boost = f s.boost := rfl

end Sys2Proof.Machine
end

