-- ==== Sys2Proof/Laws/Myuno.lean ====
section
/-!
SUPPORT. The Myuno-36: what issue, its cycles and its flags do, once for every instruction (R301, R308, R313).
-/
namespace Sys2Proof.Machine

/-! Flags -/

@[simp] theorem b1_true : b1 true = 1 := rfl
@[simp] theorem b1_false : b1 false = 0 := rfl

/-- The PSW bits of a mask take the bits of a value, the others stay. -/
theorem Core.setPsw_bit (c : Core) (m v : BitVec 11) (i : Nat) :
    (c.setPsw m v).psw.getLsbD i = if m.getLsbD i then v.getLsbD i else c.psw.getLsbD i := by
  by_cases h : i < 11
  · cases hm : m.getLsbD i <;> simp only [Core.setPsw, BitVec.getLsbD_or, BitVec.getLsbD_and, BitVec.getLsbD_not, hm, h] <;> simp
  · have h' : 11 ≤ i := by omega
    simp [BitVec.getLsbD_of_ge _ _ h']

/-- Z and N stand in bits 0 and 1. -/
theorem znBits_bit (r : Word) (i : Nat) : (znBits r).getLsbD i = if i = 0 then r == 0 else if i = 1 then r.msb else false := by
  unfold znBits
  by_cases h : i < 11
  · cases hz : (r == 0) <;> cases hm : r.msb <;> (interval_cases i <;> rfl)
  · rw [BitVec.getLsbD_of_ge _ _ (by omega)]
    simp only [show i ≠ 0 by omega, show i ≠ 1 by omega, if_false]

/-- Z, N, C and V of a result stand in bits 0 to 3. -/
theorem zncv_bit (r : Word) (cy ov : Bool) (i : Nat) :
    (znBits r ||| BitVec.ofNat 11 (4 * b1 cy + 8 * b1 ov)).getLsbD i =
      if i = 0 then r == 0 else if i = 1 then r.msb else if i = 2 then cy else if i = 3 then ov else false := by
  rw [BitVec.getLsbD_or, znBits_bit]
  by_cases h : i < 11
  · cases cy <;> cases ov <;> (interval_cases i <;> simp)
  · rw [BitVec.getLsbD_of_ge _ _ (by omega)]
    simp only [show i ≠ 0 by omega, show i ≠ 1 by omega, show i ≠ 2 by omega, show i ≠ 3 by omega, if_false, Bool.or_false]

/-- The bits of the masks that instructions write. -/
theorem mask3_bit (i : Nat) : (0x003 : BitVec 11).getLsbD i = decide (i < 2) := by
  by_cases h : i < 11
  · interval_cases i <;> rfl
  · rw [BitVec.getLsbD_of_ge _ _ (by omega)]; simp; omega

theorem maskF_bit (i : Nat) : (0x00F : BitVec 11).getLsbD i = decide (i < 4) := by
  by_cases h : i < 11
  · interval_cases i <;> rfl
  · rw [BitVec.getLsbD_of_ge _ _ (by omega)]; simp; omega

/-! Registers -/

@[simp] theorem Core.dreg_setD (c : Core) (d : DReg) (w : Word) : (c.setD d w).dreg d = w := bget_bset_same ..
@[simp] theorem Core.dreg_setD_ne (c : Core) {d k : DReg} (w : Word) (h : k ≠ d) : (c.setD d w).dreg k = c.dreg k := bget_bset_ne _ _ h

@[simp] theorem State.core_onCore (s : State) (p : Fin 2) (f : Core → Core) : bget (s.onCore p f).cores p = f (bget s.cores p) := bget_bmod_same ..
@[simp] theorem State.core_onCore_ne (s : State) {p q : Fin 2} (f : Core → Core) (h : q ≠ p) :
    bget (s.onCore p f).cores q = bget s.cores q := bget_bmod_ne _ _ h

/-! Issue -/

/-- Products that land touch MH, ML and the products in flight alone. -/
theorem Core.land_eq (c : Core) (n : Nat) : ∃ mh ml pr, c.land n = { c with mh := mh, ml := ml, prods := pr } := by
  unfold Core.land
  dsimp only
  split
  · exact ⟨_, _, _, rfl⟩
  · exact ⟨c.mh, c.ml, c.prods, rfl⟩

/-- A ready pair fetches from its cache, which leaves the machine. -/
theorem State.fetch_ready {s : State} {p : Fin 2} (h : s.Ready p) : ∃ w, s.fetch p (bget s.cores p).pc = (some w, s) := by
  obtain ⟨x, hx⟩ := Option.isSome_iff_exists.mp h.2
  refine ⟨x.words[(bget s.cores p).pc.toNat % 8]'(Nat.mod_lt _ (by decide)), ?_⟩
  unfold State.fetch
  simp only [hx]
  rw [Vector.getElem?_eq_getElem]

/-- What a ready pair does with an instruction. -/
theorem State.insn_ready {s : State} {p : Fin 2} (h : s.Ready p) (n : Nat) (r : Core → Nat) (f : State → Done) :
    s.insn p n r f = match f (s.beginIssue p r) with
      | .ok t => t.complete p n ((bget s.cores p).pc + 1)
      | .jump a t => t.complete p n a
      | .trap v ea t => t.except p v 0 (bget s.cores p).pc ea
      | .post v k a t => (t.complete p n a).except p v k a none
      | .wait t => t
      | .dead t => t.doubleFault p := by
  obtain ⟨w, hw⟩ := State.fetch_ready h
  unfold State.insn
  simp only [h.1, hw]
  rfl

/-- At issue a pair has its cycle and the products that landed, and all else as before. -/
theorem State.beginIssue_eq (s : State) (p : Fin 2) (r : Core → Nat) :
    ∃ cy mh ml pr, s.beginIssue p r = s.onCore p fun c => { c with cyc := cy, mh := mh, ml := ml, prods := pr } := by
  obtain ⟨mh, ml, pr, e⟩ := Core.land_eq { bget s.cores p with cyc := Nat.max (s.cycleOf p) (r (bget s.cores p)) } (Nat.max (s.cycleOf p) (r (bget s.cores p)))
  refine ⟨Nat.max (s.cycleOf p) (r (bget s.cores p)), mh, ml, pr, ?_⟩
  simp only [State.beginIssue, State.onCore, bmod, e]

/-- A register instruction of a ready pair. -/
theorem State.alu_ready {s : State} {p : Fin 2} (h : s.Ready p) (src : List DReg) (g : Core → Core) :
    ∃ cy mh ml pr, s.alu p src g = s.onCore p fun c =>
      let c1 := g { c with cyc := cy, mh := mh, ml := ml, prods := pr }
      { c1 with pcs := c1.pc, pc := (bget s.cores p).pc + 1, cyc := c1.cyc + 1 } := by
  obtain ⟨cy, mh, ml, pr, e⟩ := s.beginIssue_eq p (rdD src)
  refine ⟨cy, mh, ml, pr, ?_⟩
  unfold State.alu
  rw [State.insn_ready h, e]
  simp only [State.complete, State.onCore, bmod, bget_bset_same]
  simp only [bset, Vector.set_set]

end Sys2Proof.Machine
end

