-- ==== Sys2Proof/Laws/Time.lean ====
section
/-!
SUPPORT. TIME set and moved on: what it is afterwards, and all that the move leaves; event queues: what is read of them.
-/
namespace Sys2Proof.Machine
variable (s : State) (t : Nat)

/-- All that setting TIME does: TIME itself, and marks in the event queues. -/
theorem State.setTime_eq : ∃ (tm : TimeState) (g : EvQ → EvQ), tm.time = BitVec.ofNat 72 t ∧ s.setTime t = ({ s with time := tm } : State).onQueues g := by
  unfold State.setTime
  dsimp only
  let tm : TimeState := { s.time with time := BitVec.ofNat 72 t, strobed := s.time.strobed && t / 100000 == s.now / 100000 }
  by_cases h0 : t / 2 ^ 36 - s.now / 2 ^ 36 = 0
  · rw [if_pos h0]; exact ⟨tm, id, rfl, rfl⟩
  · rw [if_neg h0]
    by_cases h1 : t / 2 ^ 36 - s.now / 2 ^ 36 = 1
    · rw [if_pos h1]; exact ⟨tm, EvQ.mark false (wd (t / 2 ^ 36)), rfl, rfl⟩
    · rw [if_neg h1]; exact ⟨tm, fun q => EvQ.mark false (wd (t / 2 ^ 36)) (EvQ.mark false (wd (t / 2 ^ 36) - 1) q), rfl, rfl⟩

/-- TIME once set, which has 72 bits. -/
@[simp] theorem State.setTime_now : (s.setTime t).now = t % 2 ^ 72 := by
  obtain ⟨tm, g, h, e⟩ := s.setTime_eq t
  rw [e]
  show tm.time.toNat = _
  rw [h, BitVec.toNat_ofNat]

/-- TIME never goes back to the instant of an event. -/
theorem State.at_now (h : t < 2 ^ 72) : (s.at t).now = max s.now t := by
  unfold State.at
  split
  · rw [State.setTime_now, Nat.mod_eq_of_lt h]; omega
  · omega

/-- An instant that has been reached changes nothing. -/
@[simp] theorem State.at_reached (h : t ≤ s.now) : s.at t = s := by
  unfold State.at
  rw [if_neg (by omega)]

@[simp] theorem State.setTime_pending : (s.setTime t).pending = s.pending := by obtain ⟨_, _, _, e⟩ := s.setTime_eq t; rw [e]; rfl
@[simp] theorem State.setTime_free : (s.setTime t).free = s.free := by obtain ⟨_, _, _, e⟩ := s.setTime_eq t; rw [e]; rfl
@[simp] theorem State.setTime_fab : (s.setTime t).fab = s.fab := by obtain ⟨_, _, _, e⟩ := s.setTime_eq t; rw [e]; rfl
@[simp] theorem State.setTime_mem : (s.setTime t).mem = s.mem := by obtain ⟨_, _, _, e⟩ := s.setTime_eq t; rw [e]; rfl
@[simp] theorem State.setTime_srv : (s.setTime t).srv = s.srv := by obtain ⟨_, _, _, e⟩ := s.setTime_eq t; rw [e]; rfl
@[simp] theorem State.setTime_sup : (s.setTime t).sup = s.sup := by obtain ⟨_, _, _, e⟩ := s.setTime_eq t; rw [e]; rfl
@[simp] theorem State.setTime_hs : (s.setTime t).hs = s.hs := by obtain ⟨_, _, _, e⟩ := s.setTime_eq t; rw [e]; rfl
@[simp] theorem State.setTime_th : (s.setTime t).th = s.th := by obtain ⟨_, _, _, e⟩ := s.setTime_eq t; rw [e]; rfl
@[simp] theorem State.setTime_legs : (s.setTime t).legs = s.legs := by obtain ⟨_, _, _, e⟩ := s.setTime_eq t; rw [e]; rfl
@[simp] theorem State.setTime_pairs : (s.setTime t).pairs = s.pairs := by obtain ⟨_, _, _, e⟩ := s.setTime_eq t; rw [e]; rfl
@[simp] theorem State.setTime_sout : (s.setTime t).sout = s.sout := by obtain ⟨_, _, _, e⟩ := s.setTime_eq t; rw [e]; rfl
@[simp] theorem State.setTime_vd : (s.setTime t).vd = s.vd := by obtain ⟨_, _, _, e⟩ := s.setTime_eq t; rw [e]; rfl
@[simp] theorem State.setTime_vb : (s.setTime t).vb = s.vb := by obtain ⟨_, _, _, e⟩ := s.setTime_eq t; rw [e]; rfl
@[simp] theorem State.setTime_boost : (s.setTime t).boost = s.boost := by obtain ⟨_, _, _, e⟩ := s.setTime_eq t; rw [e]; rfl
@[simp] theorem State.setTime_sinks : (s.setTime t).sinks = s.sinks := by obtain ⟨_, _, _, e⟩ := s.setTime_eq t; rw [e]; rfl
@[simp] theorem State.setTime_chain : (s.setTime t).chain = s.chain := by obtain ⟨_, _, _, e⟩ := s.setTime_eq t; rw [e]; rfl
@[simp] theorem State.setTime_matrix : (s.setTime t).matrix = s.matrix := by obtain ⟨_, _, _, e⟩ := s.setTime_eq t; rw [e]; rfl
@[simp] theorem State.setTime_inputs : (s.setTime t).inputs = s.inputs := by obtain ⟨_, _, _, e⟩ := s.setTime_eq t; rw [e]; rfl
@[simp] theorem State.setTime_inLoss : (s.setTime t).inLoss = s.inLoss := by obtain ⟨_, _, _, e⟩ := s.setTime_eq t; rw [e]; rfl
@[simp] theorem State.setTime_ios : (s.setTime t).ios = s.ios := by obtain ⟨_, _, _, e⟩ := s.setTime_eq t; rw [e]; rfl
@[simp] theorem State.setTime_ans : (s.setTime t).ans = s.ans := by obtain ⟨_, _, _, e⟩ := s.setTime_eq t; rw [e]; rfl
@[simp] theorem State.setTime_adc : (s.setTime t).adc = s.adc := by obtain ⟨_, _, _, e⟩ := s.setTime_eq t; rw [e]; rfl
@[simp] theorem State.setTime_eng : (s.setTime t).eng = s.eng := by obtain ⟨_, _, _, e⟩ := s.setTime_eq t; rw [e]; rfl
@[simp] theorem State.setTime_cans : (s.setTime t).cans = s.cans := by obtain ⟨_, _, _, e⟩ := s.setTime_eq t; rw [e]; rfl
@[simp] theorem State.setTime_lins : (s.setTime t).lins = s.lins := by obtain ⟨_, _, _, e⟩ := s.setTime_eq t; rw [e]; rfl
@[simp] theorem State.setTime_seqs : (s.setTime t).seqs = s.seqs := by obtain ⟨_, _, _, e⟩ := s.setTime_eq t; rw [e]; rfl
@[simp] theorem State.setTime_dom : (s.setTime t).dom = s.dom := by obtain ⟨_, _, _, e⟩ := s.setTime_eq t; rw [e]; rfl
@[simp] theorem State.setTime_log : (s.setTime t).log = s.log := by obtain ⟨_, _, _, e⟩ := s.setTime_eq t; rw [e]; rfl
@[simp] theorem State.setTime_cores : (s.setTime t).cores = s.cores := by obtain ⟨_, _, _, e⟩ := s.setTime_eq t; rw [e]; rfl
@[simp] theorem State.setTime_eth : (s.setTime t).eth = s.eth := by obtain ⟨_, _, _, e⟩ := s.setTime_eq t; rw [e]; rfl
@[simp] theorem State.setTime_ring : (s.setTime t).ring = s.ring := by obtain ⟨_, _, _, e⟩ := s.setTime_eq t; rw [e]; rfl
@[simp] theorem State.setTime_duo : (s.setTime t).duo = s.duo := by obtain ⟨_, _, _, e⟩ := s.setTime_eq t; rw [e]; rfl
@[simp] theorem State.setTime_pwr : (s.setTime t).pwr = s.pwr := by obtain ⟨_, _, _, e⟩ := s.setTime_eq t; rw [e]; rfl
@[simp] theorem State.setTime_rst : (s.setTime t).rst = s.rst := by obtain ⟨_, _, _, e⟩ := s.setTime_eq t; rw [e]; rfl
@[simp] theorem State.setTime_acs : (s.setTime t).acs = s.acs := by obtain ⟨_, _, _, e⟩ := s.setTime_eq t; rw [e]; rfl
@[simp] theorem State.setTime_upd : (s.setTime t).upd = s.upd := by obtain ⟨_, _, _, e⟩ := s.setTime_eq t; rw [e]; rfl
@[simp] theorem State.setTime_dbg : (s.setTime t).dbg = s.dbg := by obtain ⟨_, _, _, e⟩ := s.setTime_eq t; rw [e]; rfl

@[simp] theorem State.at_pending : (s.at t).pending = s.pending := by unfold State.at; split <;> simp
@[simp] theorem State.at_free : (s.at t).free = s.free := by unfold State.at; split <;> simp
@[simp] theorem State.at_fab : (s.at t).fab = s.fab := by unfold State.at; split <;> simp
@[simp] theorem State.at_mem : (s.at t).mem = s.mem := by unfold State.at; split <;> simp
@[simp] theorem State.at_srv : (s.at t).srv = s.srv := by unfold State.at; split <;> simp
@[simp] theorem State.at_sup : (s.at t).sup = s.sup := by unfold State.at; split <;> simp
@[simp] theorem State.at_hs : (s.at t).hs = s.hs := by unfold State.at; split <;> simp
@[simp] theorem State.at_th : (s.at t).th = s.th := by unfold State.at; split <;> simp
@[simp] theorem State.at_legs : (s.at t).legs = s.legs := by unfold State.at; split <;> simp
@[simp] theorem State.at_pairs : (s.at t).pairs = s.pairs := by unfold State.at; split <;> simp
@[simp] theorem State.at_sout : (s.at t).sout = s.sout := by unfold State.at; split <;> simp
@[simp] theorem State.at_vd : (s.at t).vd = s.vd := by unfold State.at; split <;> simp
@[simp] theorem State.at_vb : (s.at t).vb = s.vb := by unfold State.at; split <;> simp
@[simp] theorem State.at_boost : (s.at t).boost = s.boost := by unfold State.at; split <;> simp
@[simp] theorem State.at_sinks : (s.at t).sinks = s.sinks := by unfold State.at; split <;> simp
@[simp] theorem State.at_chain : (s.at t).chain = s.chain := by unfold State.at; split <;> simp
@[simp] theorem State.at_matrix : (s.at t).matrix = s.matrix := by unfold State.at; split <;> simp
@[simp] theorem State.at_inputs : (s.at t).inputs = s.inputs := by unfold State.at; split <;> simp
@[simp] theorem State.at_inLoss : (s.at t).inLoss = s.inLoss := by unfold State.at; split <;> simp
@[simp] theorem State.at_ios : (s.at t).ios = s.ios := by unfold State.at; split <;> simp
@[simp] theorem State.at_ans : (s.at t).ans = s.ans := by unfold State.at; split <;> simp
@[simp] theorem State.at_adc : (s.at t).adc = s.adc := by unfold State.at; split <;> simp
@[simp] theorem State.at_eng : (s.at t).eng = s.eng := by unfold State.at; split <;> simp
@[simp] theorem State.at_cans : (s.at t).cans = s.cans := by unfold State.at; split <;> simp
@[simp] theorem State.at_lins : (s.at t).lins = s.lins := by unfold State.at; split <;> simp
@[simp] theorem State.at_seqs : (s.at t).seqs = s.seqs := by unfold State.at; split <;> simp
@[simp] theorem State.at_dom : (s.at t).dom = s.dom := by unfold State.at; split <;> simp
@[simp] theorem State.at_log : (s.at t).log = s.log := by unfold State.at; split <;> simp
@[simp] theorem State.at_cores : (s.at t).cores = s.cores := by unfold State.at; split <;> simp
@[simp] theorem State.at_eth : (s.at t).eth = s.eth := by unfold State.at; split <;> simp
@[simp] theorem State.at_ring : (s.at t).ring = s.ring := by unfold State.at; split <;> simp
@[simp] theorem State.at_duo : (s.at t).duo = s.duo := by unfold State.at; split <;> simp
@[simp] theorem State.at_pwr : (s.at t).pwr = s.pwr := by unfold State.at; split <;> simp
@[simp] theorem State.at_rst : (s.at t).rst = s.rst := by unfold State.at; split <;> simp
@[simp] theorem State.at_acs : (s.at t).acs = s.acs := by unfold State.at; split <;> simp
@[simp] theorem State.at_upd : (s.at t).upd = s.upd := by unfold State.at; split <;> simp
@[simp] theorem State.at_dbg : (s.at t).dbg = s.dbg := by unfold State.at; split <;> simp

/-! Event queues (R39 to R41) -/

/-- A queue with room takes an entry behind the others. -/
theorem EvQ.push_items {cap : Nat} {q : EvQ} (e : List Word) (h : q.items.length < cap) :
    q.push cap e = { q with items := q.items ++ [{ marker := false, words := e }] } := by
  unfold EvQ.push EvQ.full
  rw [if_neg (by simpa using h)]

/-- A full queue counts it as lost. -/
theorem EvQ.push_full {cap : Nat} {q : EvQ} (e : List Word) (h : cap ≤ q.items.length) : q.push cap e = { q with lost := satInc q.lost } := by
  unfold EvQ.push EvQ.full
  rw [if_pos (by simpa using h)]

end Sys2Proof.Machine
end

