-- ==== Sys2Proof/WellFormed.lean ====
section
/-!
DEFINITION. Commands whose operands the outside world can present: what a medium carries, what a word holds.  A command that fails a check
stands for nothing that happens; its meaning is total all the same.
-/
namespace Sys2Proof

/-- The octets that a CAN FD length code stands for (R377). -/
def dlcOctets (fdf : Bool) (dlc : Nat) : Nat :=
  if dlc ≤ 8 then dlc
  else if !fdf then 8
  else ([12, 16, 20, 24, 32, 48, 64] : List Nat).getD (dlc - 9) 64

/-- A CAN frame: a remote frame is classical and holds no octets; a base identifier stands in bits 28 to 18 (R377). -/
def CanFrame.ok (f : CanFrame) : Bool :=
  (if f.rtr then !f.fdf && f.data.isEmpty else f.data.length == dlcOctets f.fdf f.dlc.toNat) && (f.ide || f.id.toNat % 2 ^ 18 == 0) && (f.fdf || !f.brs)

/-- A fabric write carries its words, a read none (R13). -/
def FabTx.ok (x : FabTx) : Bool := if x.write then x.data.length == x.len.val + 1 else x.data.isEmpty

/-- A ZOP request holds at most 255 data octets (R71). -/
def octetsOk (l : List Byte) : Bool := l.length ≤ 255

/-- A bit field lies in its word (R312). -/
def bitsOk (pos wid : Fin 64) : Bool := 1 ≤ wid.val && pos.val + wid.val ≤ 36

/-- An address-register field names A0 to A7 or SP (R311). -/
def afldOk (n : AFld) : Bool := n.val ≤ 8

/-- A command that can come. -/
def WellFormed : Instr → Bool
  | .fabricTransaction x => x.ok
  | .zopWrite _ os => octetsOk os
  | .blockSeg _ _ ws => ws.length ≤ 56
  | .zopMalformed _ _ os => os.length ≤ 1500
  | .matrixFrameStart rows => rows.all (· < 128)
  | .loopStreamArrival _ ws => 1 ≤ ws.length && ws.length ≤ 8
  | .lea _ an _ _ => afldOk an
  | .addar _ an ab _ => afldOk an && afldOk ab
  | .mova _ an _ => afldOk an
  | .movd _ _ aa => afldOk aa
  | .cmpa _ aa ab => afldOk aa && afldOk ab
  | .lda _ an _ _ _ => afldOk an
  | .sta _ an _ _ _ => afldOk an
  | .bfi _ _ _ pos wid => bitsOk pos wid
  | .bfx _ _ _ pos wid _ => bitsOk pos wid
  | .canFrameReceive _ f => f.ok
  | .canWufDetect _ f _ => f.ok
  | .linResponseComplete _ os _ => os.length ≤ 9
  | .ethFrameReceive _ f => 14 ≤ f.octets.length
  | .ringFrameReceive f => f.words.length ≤ 256
  | .imageVerifyDone v => v.toNat ≤ 6
  | .romBootVerifyDone v => v.toNat ≤ 6
  | _ => true

end Sys2Proof
end

