-- ==== Sys2Proof/Tests/Slice0.lean ====
section
/-!
SUPPORT. Tests: an ill-formed term for each check of WellFormed; worked values of standards and of the spec; and for each statement a state and
operands that meet its hypotheses.
-/
namespace Sys2Proof.Tests
set_option Elab.async false
open Sys2Proof.Machine

/-! Statements: the Myuno-36 (R294 to R324) -/

/-- A line of the instruction cache that holds the same word eight times. -/
def line (n : Nat) (w : Word) : CacheLine := { line := n, dirty := false, words := Vector.replicate 8 w }

/-- Pair 0 right after its release, with PC 0 and the vectors 0 to 23 in its instruction cache, changed by f. -/
def pair0 (f : Core → Core) : State :=
  State.reset.onCore 0 fun c => f { c with icache := [line 0 0, line 0x780 0x3C0, line 0x781 0x3C8, line 0x782 0x3D0] }

theorem test_meets_StepRunsFront : ({ State.reset with pending := [.nop 0] } : State).pending = .nop 0 :: [] := rfl

theorem pair0_ready : (pair0 id).Ready 0 := ⟨rfl, rfl⟩

theorem test_meets_AddSubCompare : (pair0 id).Ready 0 ∧ (8 : AFld).val ≤ 8 ∧ (0 : AFld).val ≤ 8 := ⟨pair0_ready, by decide, by decide⟩
theorem test_meets_MinMaxAndFields : (pair0 id).Ready 0 ∧ (36 : Fin 64).val ≤ 36 ∧ (0 : Fin 64).val + (36 : Fin 64).val ≤ 36 ∧
    ∀ i, 36 - 36 ≤ i → ((bget (pair0 id).cores 0).dreg 0).getLsbD i = false := ⟨pair0_ready, by decide, by decide, fun i _ => BitVec.getLsbD_zero⟩
theorem test_meets_LogicAndShift : (pair0 id).Ready 0 := pair0_ready
theorem test_meets_AddressRegisters : (pair0 id).Ready 0 ∧ (8 : AFld).val ≤ 8 := ⟨pair0_ready, by decide⟩
theorem test_meets_Multiply :
    let s := pair0 fun c => { c with prods := [{ value := 6, lands := 0 }] }
    s.Ready 0 ∧ (bget s.cores 0).prods = [{ value := 6, lands := 0 }] := ⟨⟨rfl, rfl⟩, rfl⟩

/-- Pair 0 with A0 = 0x800000, whose line stands in its data cache. -/
def pairData (dirty : Bool) : State :=
  pair0 fun c => { c with a := bset c.a 0 0x800000, sp := 0x800001, dcache := [{ line := 0x100000, dirty := dirty, words := Vector.replicate 8 7 }] }

theorem test_meets_DataAccess :
    (pairData true).Ready 0 ∧ (pairData true).up 2 = true ∧ (pairData true).guarded ((bget (pairData true).cores 0).place 0 0) = false ∧
      (bget (pairData true).cores 0).place 0 0 = 0x800000 ∧ ((bget (pairData true).cores 0).dline 0x800000).isSome = true ∧
      (pairData true).guarded (bget (pairData true).cores 0).sp = false ∧ ((bget (pairData true).cores 0).dline 0x800001).isSome = true :=
  ⟨⟨rfl, rfl⟩, rfl, rfl, rfl, rfl, rfl, rfl⟩
theorem test_meets_DataAccess_frame :
    let s := pair0 fun c => { c with a := bset c.a 0 0x877FFF }
    s.Ready 0 ∧ s.up 2 = true ∧ s.closed 0x41 = false ∧ Memory.wf s.mem = true ∧ s.guarded ((bget s.cores 0).place 0 0) = false ∧
      ((bget s.cores 0).place 0 0).toNat < 0x878000 := ⟨⟨rfl, rfl⟩, rfl, rfl, rfl, rfl, by decide⟩
theorem test_meets_DataAccess_lines : (pairData true).closed 0x08 = false ∧ Memory.wf (pairData true).mem = true := ⟨rfl, rfl⟩
theorem test_meets_Flow :
    let s := pair0 fun c => { c with rs := [0x800000010] }
    s.Ready 0 ∧ (bget s.cores 0).rs.length < 32 ∧ (bget s.cores 0).rs = 0x800000010 :: [] := ⟨⟨rfl, rfl⟩, by decide, rfl⟩
theorem test_meets_Spill :
    let s := pair0 fun c => { c with rs := List.replicate 32 0 }
    let c := bget s.cores 0
    s.Ready 0 ∧ s.closed 0x08 = false ∧ Memory.wf s.mem = true ∧ c.rs.length = 32 ∧ 0x800000 ≤ c.ssp.toNat ∧ c.ssp.toNat % 8 = 0 ∧
      c.ssp.toNat + 24 ≤ c.rshi.toNat + 1 ∧ c.rshi.toNat < 0x860000 := ⟨⟨rfl, rfl⟩, rfl, rfl, rfl, by decide, by decide, by decide, by decide⟩
theorem test_meets_Spill_guard :
    let s := pair0 fun c => { c with a := bset c.a 0 0x85C000, sp := 0x85D000 }
    s.Ready 0 ∧ (bget s.cores 0).rs.length < 32 ∧ s.HasVector 0 2 0x3C0 ∧ s.guarded ((bget s.cores 0).place 0 0) = true ∧
      s.guarded (bget s.cores 0).sp = true ∧ s.guarded ((bget s.cores 0).sp - 1) = true :=
  ⟨⟨rfl, rfl⟩, by decide, ⟨_, rfl, rfl⟩, rfl, rfl, rfl⟩
theorem test_meets_Exceptions :
    let s := pair0 id
    s.Ready 0 ∧ (bget s.cores 0).rs.length < 32 ∧ s.HasVector 0 8 0x3C8 ∧ s.HasVector 0 9 0x3C8 ∧ s.HasVector 0 1 0x3C0 ∧ s.dbgAttached = false :=
  ⟨⟨rfl, rfl⟩, by decide, ⟨_, rfl, rfl⟩, ⟨_, rfl, rfl⟩, ⟨_, rfl, rfl⟩, rfl⟩
theorem test_meets_Exceptions_debug : ({ pair0 id with dbg := { Debug.reset with level := 1 } } : State).dbgAttached = true := rfl
theorem test_meets_Interrupts :
    let s := pair0 fun c => { c with psw := 0x020, irq := bset c.irq 16 { en := true, level := 15, pend := true } }
    (bget s.cores 0).run = .running ∧ s.served_ 0 = false ∧ s.pwr.mode = .run ∧ (bget s.cores 0).rs.length < 32 ∧ s.HasVector 0 16 0x3D0 ∧
      s.takeable 0 16 = true := ⟨rfl, rfl, rfl, by decide, ⟨_, rfl, rfl⟩, rfl⟩
theorem test_meets_Interrupts_lockstep : State.reset.up 6 = true ∧ State.reset.rst.blocks.any (·.blk == 0x0B) = false ∧
    (bget State.reset.cores 0).run ≠ .reset := ⟨rfl, rfl, by decide⟩
theorem test_meets_SpecialRegisters :
    let s := pair0 fun c => { c with d := bset c.d 0 543 }
    let c := bget s.cores 0
    s.Ready 0 ∧ c.prods = [] ∧ c.rslock = false ∧ c.ssp = c.rslo ∧ 16 ≤ (c.dreg 0).toNat ∧ (c.dreg 0).toNat ≤ 543 :=
  ⟨⟨rfl, rfl⟩, rfl, rfl, rfl, by decide, by decide⟩

/-- A read of DEVICE by pair 0 waits for the server. -/
def ldoWaits : State := (pair0 id).onSrv fun v => { v with queue := [.core { pair := 0, write := false, reg := 1, index := 0x1000, sub := 1, value := 0 }] }
theorem test_meets_ObjectAccess :
    let s := ldoWaits
    (pair0 id).srvBusy = false ∧ s.up 2 = true ∧ bget s.srv.ldo 0 = none ∧ bget s.srv.half 0 = none ∧ s.waits (.pair 0) = false ∧
      ∃ x s', State.serveRead { s with srv := { s.srv with queue := [], ldo := bset s.srv.ldo 0 none, half := bset s.srv.half 0 none } } (.pair 0) none 0x1000 1
        false = (some x, s') := ⟨rfl, rfl, rfl, rfl, rfl, _, _, rfl⟩
theorem test_meets_ObjectAccess_half :
    let s := (pair0 id).onSrv fun v => { v with half := bset v.half 0 (some (0x100004, 1, 8000)) }
    bget s.srv.half 0 = some (0x100004, 1, 8000) ∧ s.now ≤ 8000 + 100000 := ⟨rfl, by decide⟩

/-- Contract 5 is an admitted flow of pair 0 from its port to CAN 0. -/
def stfFlow : State :=
  (((pair0 id).setObj (ctIdx 5) 1 [0x0B00]).setObj (ctIdx 5) 5 [1]).setObj (ctIdx 5) 7 [8] |>.onCt 5 fun c =>
    { c with state := 1, inForce := true, tok := 100000000 }
theorem test_meets_StreamToFlow :
    let s := stfFlow
    s.Ready 0 ∧ (s.ct 5).state = 1 ∧ s.cfg (ctIdx 5) 1 = 0x0B00 ∧ (bget s.cores 0).stf = [] ∧ 2 ≤ s.cfg (ctIdx 5) 7 ∧ 1 ≤ s.cfg (ctIdx 5) 5 ∧ (s.ct 5).inForce = true ∧
      100000000 ≤ (s.ct 5).tok ∧ ¬(((pair0 id).ct 6).state = 1 ∧ (pair0 id).cfg (ctIdx 6) 1 = 0x0B00) :=
  ⟨⟨rfl, rfl⟩, rfl, rfl, rfl, by decide, by decide, rfl, by decide, by decide⟩

/-! The Lyssouf-18 (R325 to R347) -/

/-- A user set runs on sequencer 15: slot 0 is periodic with C = 40, and is active, with what f says of it. -/
def seq15 (f : Seq → Seq) : State :=
  (State.reset.onMem fun m => memWriteN (memWrite m 0x897808 0x980000000) 0x897810 [0x800020000, 39 * 2 ^ 25 + 1000]).onSeq 15 fun q =>
    f { q with src := .user, admitted := true, started := true, act := some { slot := 0, s0 := 0, cycles := 0, branch := none } }

theorem test_meets_LysAlu : (seq15 id).LysReady 15 { slot := 0, s0 := 0, cycles := 0, branch := none } 1 := ⟨rfl, rfl, rfl, rfl, by decide⟩
theorem test_meets_LysMemoryPorts :
    (seq15 id).LysReady 15 { slot := 0, s0 := 0, cycles := 0, branch := none } 3 ∧ ((seq15 id).seq 15).src = .user ∧ Memory.wf (seq15 id).mem = true ∧
      (seq15 id).binding 15 0 = some (0x30, 0) := ⟨⟨rfl, rfl, rfl, rfl, by decide⟩, rfl, by decide, by decide⟩
theorem test_meets_LysFlow : (seq15 id).LysReady 15 { slot := 0, s0 := 0, cycles := 0, branch := none } 1 ∧ bget ((seq15 id).seq 15).aborts 0 ≠ 2 ∧
    (seq15 id).binding 15 7 = none := ⟨⟨rfl, rfl, rfl, rfl, by decide⟩, by decide, by decide⟩
theorem test_meets_LysSlots :
    let s := seq15 fun q => { q with act := none, elig := [(0, 0)] }
    s.up 3 = true ∧ (s.seq 15).elig = [(0, 0)] ∧ (s.seq 15).waitT = [] ∧ (s.seq 15).act = none ∧ (s.seq 15).held = [] ∧ s.slotRuns 15 0 = true ∧
      s.pwr.mode = .run := ⟨rfl, rfl, rfl, rfl, rfl, by decide, rfl⟩
theorem test_meets_LysSlots_abort :
    let s := seq15 fun q => { q with aborts := bset q.aborts 0 2 }
    (s.seq 15).act = some { slot := 0, s0 := 0, cycles := 0, branch := none } ∧ s.up 3 = true ∧ bget (s.seq 15).aborts 0 = 2 := ⟨rfl, rfl, rfl⟩

/-! The fabric and the management tree (R13 to R41) -/

/-- A read of 8 words of main SRAM by pair 0. -/
def read8 : FabTx := { ini := 0, cls := 3, write := false, posted := false, addr := 0x800000, len := 7, data := [], flow := none }

theorem test_meets_Fabric :
    State.reset.up 2 = true ∧ State.reset.fab.waiting = [] ∧ read8.addr.toNat % 8 + 8 ≤ 8 ∧ (State.reset.drawTag read8).isSome = true ∧
      (State.reset.txTarget read8).isSome = true ∧ 8 ≤ bget State.reset.fab.credits (subHop 8 0 3) := by
  decide +kernel
theorem test_meets_Fabric_grant :
    let s := State.reset.onFab fun f => { f with subq := [{ egress := 8, tx := read8, tag := some 32, born := 0 }] }
    s.up 2 = true ∧ s.fab.subq = [{ egress := 8, tx := read8, tag := some 32, born := 0 }] ∧ s.downFits 8 read8 = true ∧ s.closed 0x08 = false :=
  ⟨rfl, rfl, by decide, rfl⟩
theorem test_meets_Fabric_response :
    let r : Resp := { error := false, wrapped := none, data := [1] }
    let s := State.reset.onFab fun f => { f with tags := bset f.tags 32 { gen := 1, tx := some read8, issued := 6320, resp := some r, late := 1, born := 0 } }
    (bget s.fab.tags 32).tx = some read8 ∧ (bget s.fab.tags 32).resp = some r ∧ max 1 r.data.length ≤ bget s.fab.credits (respHop 0) ∧
      0 < (bget s.fab.tags 32).late := ⟨rfl, rfl, by decide, by decide⟩
theorem test_meets_Fabric_timeout :
    let s := State.reset.onFab fun f => { f with tags := bset f.tags 32 { gen := 1, tx := some read8, issued := 6320, resp := none, late := 0, born := 0 } }
    (bget s.fab.tags 32).resp = none ∧ s.now = (bget s.fab.tags 32).issued + 2000 := ⟨rfl, rfl⟩
theorem test_meets_TimeAndQueues :
    State.reset.up 2 = true ∧ State.reset.closed 0x01 = false ∧ State.reset.closed (evPlace .input).1 = false ∧ (State.reset.evq .loop).items = [] ∧
      (∃ m w l r, (State.reset.evq .input).items = { marker := m, words := w :: l } :: r) ∧ State.reset.now < 2 ^ 72 - 2 ^ 36 :=
  ⟨rfl, rfl, rfl, rfl, ⟨_, _, _, _, rfl⟩, by decide⟩

/-! Loads (R99 to R250) -/

theorem unruled_reset (code : Nat) (h : code < 0x48) : State.reset.Unruled code := by
  refine ⟨?_, ?_, ?_, ?_, rfl, ?_, rfl⟩ <;> interval_cases code <;> decide

/-! Values of the standards that the spec names -/

/-- FIPS 197, appendix B. -/
theorem test_aes : aes 0x2B7E151628AED2A6ABF7158809CF4F3C 0x3243F6A8885A308D313198A2E0370734 = 0x3925841D02DC09FBDC118597196A0B32 := by decide +kernel
/-- NIST SP 800-38B, example 1 (an empty message) and example 2 (one block). -/
theorem test_cmac :
    cmac 0x2B7E151628AED2A6ABF7158809CF4F3C [] = 0xBB1D6929E95937287FA37D129B756746 ∧
      cmac 0x2B7E151628AED2A6ABF7158809CF4F3C [0x6B, 0xC1, 0xBE, 0xE2, 0x2E, 0x40, 0x9F, 0x96, 0xE9, 0x3D, 0x7E, 0x11, 0x73, 0x93, 0x17, 0x2A] =
        0x070A16B46B4D4144F79BDD9DD04A287C := by decide +kernel
/-- FIPS 180-4: the digest of "abc". -/
theorem test_sha256 : digestOctets (sha256 [0x61, 0x62, 0x63]) = [0xBA, 0x78, 0x16, 0xBF, 0x8F, 0x01, 0xCF, 0xEA, 0x41, 0x41, 0x40, 0xDE, 0x5D, 0xAE, 0x22, 0x23,
    0xB0, 0x03, 0x61, 0xA3, 0x96, 0x17, 0x7A, 0x9C, 0xB4, 0x10, 0xFF, 0x61, 0xF2, 0x00, 0x15, 0xAD] := by decide +kernel

/-- A write of an object reaches its block. -/
def takesB (s : State) (r : Requester) (idx sub : Nat) (v : Val) : Bool :=
  s.srvFree r && match s.writeCheck r idx sub v with
    | .inl (f, n, row) => famOf idx == some (f, n) && s.served r f && s.reaches f n && (!row.prot || decide (s.log.queue.length < 32))
    | .inr _ => false

theorem takes_of {s : State} {r : Requester} {idx sub : Nat} {v : Val} (h : takesB s r idx sub v = true) : s.Takes r idx sub v := by
  unfold takesB at h
  split at h
  · rename_i f n row hw
    simp only [Bool.and_eq_true, beq_iff_eq] at h
    obtain ⟨h1, ⟨⟨h2, h3⟩, h4⟩, h5⟩ := h
    refine ⟨h1, f, n, row, hw, h2, h3, h4, fun hp => ?_⟩
    simpa [hp] using h5
  · simp at h

/-- Pair 0 is a requester. -/
abbrev byPair : Requester := .pair 0

theorem test_meets_HighSideCommands :
    let s := State.reset
    let ch := hsOf 0 0
    let h := bget s.hs ch
    s.iop = true ∧ (s.Unruled ch.val ∧ h.base = none ∧ h.lcause = 0 ∧ h.act = .off ∧ h.next = none ∧ h.out = false ∧ h.paused = false ∧
      (bget s.th (grpTh 0)).hot = false) ∧ s.Fits (s.hsCharge ch .on) ∧ s.Fits (s.hsCharge ch .pwm) ∧ s.Fits (s.hsCharge ch (.duty 65535)) ∧
      h.offAt = none ∧ s.quiet 0 = false ∧ s.cfg (hsIdx ch) 0x0C ≠ 0 ∧ bget s.sup.tj (grpTh 0) < 2400 := by
  refine ⟨rfl, ⟨unruled_reset _ (by decide), rfl, rfl, rfl, rfl, rfl, rfl, rfl⟩, ?_, ?_, ?_, rfl, rfl, ?_, ?_⟩ <;>
    (try unfold State.Fits) <;> decide +kernel
theorem test_meets_HighSideCommands_latched :
    let s := (State.reset.onHs 0 fun h => { h with lcause := 4, offAt := some 8000 }).onSup fun u => { u with tj := bset u.tj (grpTh 0) 2400 }
    (bget s.hs 0).lcause = 4 ∧ 2400 ≤ bget s.sup.tj (grpTh 0) ∧ (bget s.hs 0).offAt = some 8000 ∧ s.now < 8000 + msT 20 := by decide +kernel
theorem test_meets_HighSideCommands_object :
    State.reset.Takes byPair (hsIdx 0) 2 [0] ∧ State.reset.Takes byPair (hsIdx 0) 2 [1] ∧ State.reset.Takes byPair (hsIdx 0) 2 [2] ∧
      State.reset.Takes byPair (hsIdx 0) 3 [1] :=
  ⟨takes_of (by decide +kernel), takes_of (by decide +kernel), takes_of (by decide +kernel), takes_of (by decide +kernel)⟩

/-- Channel 71, the last one, changed by f. -/
def hs71 (f : HsChannel → HsChannel) : State := State.reset.onHs 71 f

/-- An inrush window that ends at TIME 9000. -/
def window (frozen : Option Nat) : Inrush := { retry := 0, ends := 9000, frozen := frozen, missed := false }

theorem test_meets_HighSideEvents :
    let s := hs71 fun h => { h with act := .pwm }
    let h := bget s.hs 71
    s.Ahead s.now ∧ h.act = .pwm ∧ h.lcause = 0 ∧ h.supp = false ∧ s.heldOff = false ∧ s.safeOff 71 = false ∧ h.paused = false ∧ h.next = none ∧ h.trans = none ∧
      h.lastBnd = none ∧ (bget s.th (grpTh 8)).hot = false ∧ s.srv.commits = [] ∧ h.period = s.cfg (hsIdx 71) 7 ∧ h.phase = s.cfg (hsIdx 71) 9 ∧
      h.phase < h.period ∧ s.now + h.period * 1000 < 2 ^ 72 := by unfold State.Ahead; decide +kernel
theorem test_meets_HighSideEvents_ends :
    let s := hs71 fun h => { h with act := .on, onEnds := some 9000, offEnds := some 9000, win := some (window none), offAt := some 8000 }
    let h := bget s.hs 71
    s.Ahead 9000 ∧ h.onEnds = some 9000 ∧ h.offEnds = some 9000 ∧ h.win.any (fun w => w.frozen.isSome || w.missed) = false ∧ h.act = .on ∧
      h.out = false ∧ (bget s.th (grpTh 8)).hot = false ∧ h.win = some (window none) ∧ (window none).ends = 9000 ∧ 9000 < 8000 + msT 20 := by
  unfold State.Ahead; decide +kernel
theorem test_meets_HighSideEvents_trip :
    let s := hs71 fun h => { h with act := .on, out := true, win := some (window none) }
    let u := s.onSeq 8 fun q => { q with started := false }
    (bget s.hs 71).win = some (window none) ∧ (bget s.hs 71).out = true ∧ (window none).frozen = none ∧ s.ladderRuns 8 = true ∧
      (window none).retry < s.cfg (hsIdx 71) 0x0E ∧ u.ladderRuns 8 = false ∧ (bget u.hs 71).win = some (window none) ∧ (bget u.hs 71).out = true := by
  decide +kernel
theorem test_meets_HighSideEvents_last_retry :
    let s := hs71 fun h => { h with act := .on, out := true, win := some { window none with retry := 15 } }
    s.ladderRuns 8 = true ∧ s.cfg (hsIdx 71) 0x0E ≤ 15 := by decide +kernel
theorem test_meets_HighSideEvents_low :
    let s := (hs71 fun h => { h with out := true, lowAt := some 9000 }).setObj (hsIdx 71) 0x11 [1]
    s.Ahead (9000 + msT 20) ∧ (bget s.hs 71).lowAt = some 9000 ∧ (bget s.hs 71).out = true ∧ s.cfg (hsIdx 71) 0x11 ≠ 0 ∧ (bget s.hs 71).lowi = false := by
  unfold State.Ahead; decide +kernel
theorem test_meets_HighSideEvents_quiet :
    let s := (hs71 fun h => { h with act := .on, out := true, win := some (window (some 9000)) }).onTh (grpTh 8) fun t => { t with quiet := some 9000 }
    s.Ahead 9000 ∧ (bget s.th (grpTh 8)).quiet = some 9000 ∧ (∀ k, hsGroup k = 8 → k ≠ 71 → (bget s.hs k).win.any (·.frozen.isSome) = false) ∧
      (window none).missed = false ∧ s.Fits (s.hsCharge 71 .on) := by unfold State.Ahead State.Fits; decide +kernel

theorem test_meets_LoadDiagnostics :
    let s := hs71 fun h => { h with act := .on, out := true, policy := .hold .on 9000 }
    s.Ahead 9000 ∧ s.iop = true ∧ (bget s.hs 71).out = true ∧ (bget s.hs 71).act = .on ∧ (bget s.hs 71).policy = .hold .on 9000 ∧
      bget s.adm.level (tgtFin 71) = none ∧ bget s.adm.edge (tgtFin 71) = none ∧ (bget s.hs 71).lcause = 0 ∧ s.adc.bad.getLsbD 7 = false ∧
      (bget s.th 8).twarn = false ∧ (bget s.th 8).hot = false ∧ (bget s.th 8).sensf = false ∧ s.estTj 8 < 2400 ∧
      s.Takes byPair (soutKey (.hs 71)).1 (soutKey (.hs 71)).2 [1] := by
  refine ⟨?_, rfl, rfl, rfl, rfl, rfl, rfl, rfl, ?_, rfl, rfl, rfl, ?_, takes_of ?_⟩ <;> (try unfold State.Ahead) <;> decide +kernel

/-- Leg 0, the A leg of pair 0, converts in slot 33 of ADC 0. -/
def legPlaced : State :=
  State.reset.onAdc fun a => { a with places := [{ req := .load (.leg 0), adc := 0, slot := 33, phase := 0, period := 100 }] }

theorem test_meets_LoadDiagnostics_conversion :
    let p : AdcPlace := { req := .load (.leg 0), adc := 0, slot := 33, phase := 0, period := 100 }
    legPlaced.adc.places = [p] ∧ p.slot = (33 : Fin 34).val ∧ p.adc = (0 : Fin 8).val ∧ bget legPlaced.adc.last 33 ≤ legPlaced.now ∧ legPlaced.Ahead (p.nextEnd legPlaced.now) ∧
      legPlaced.motor 0 = true ∧ (legPlaced.setObj (pairIdx 0) 1 [0]).motor 0 = false ∧ SenseItem.leg 0 = .leg (legA 0) ∧ legPlaced.isPlaced (.leg 0) = true := by
  unfold State.Ahead; decide +kernel
theorem test_meets_LoadDiagnostics_tests :
    let s (t : TestState) := hs71 fun h => { h with test := t }
    let e := msT (State.reset.cfg (hsIdx 71) 0x10)
    State.reset.Ahead e ∧ State.reset.cfg (hsIdx 71) 0x0F % 4 = 1 ∧ State.reset.duoHeld 71 = false ∧ (bget (s .idle).hs 71).testAt = 0 ∧
      (bget (s (.phaseA 9000)).hs 71).test = .phaseA 9000 ∧ (bget (s (.phaseB 9000 true)).hs 71).test = .phaseB 9000 true := by
  unfold State.Ahead; decide +kernel

/-- Pair 7 in MODE 1, changed by f. -/
def pair7 (f : Pair → Pair) : State := (State.reset.setObj (pairIdx 7) 1 [1]).onPair 7 f

theorem test_meets_BridgeCommands :
    let s := pair7 fun p => { p with posok := true }
    let p := bget s.pairs 7
    s.iop = true ∧ pairIn 1 3 = 7 ∧ (s.motor 7 = true ∧ s.pairLevel 7 = none ∧ s.safeOf (pairCode 7) = none ∧ p.base = none) ∧ s.Unruled (pairCode 7) ∧
      s.pairLatched 7 = false ∧ s.pairInh 7 = false ∧ p.rev = none ∧ p.stage = .free ∧ s.pairHot 7 = false ∧ p.dwellAt ≤ s.now ∧
      (s.pairCharge 7).risesOver (s.charged (pairCode 7)) = true ∧ s.Fits (s.pairCharge 7) ∧ p.posok = true ∧
      s.operandIn (s.cfg (pairIdx 7) 0x1C) = false := by unfold State.Unruled State.Fits; decide +kernel
theorem test_meets_BridgeCommands_hot :
    let s := (State.reset.onLeg 15 fun l => { l with lcause := 4 }).onSup fun u => { u with tj := bset u.tj (pairTh 7) 2400 }
    legB 7 = 15 ∧ (bget s.legs 15).lcause = 4 ∧ 2400 ≤ bget s.sup.tj (pairTh 7) ∧ bget State.reset.sup.tj (pairTh 7) < 2400 := by decide +kernel
theorem test_meets_BridgeCommands_nop :
    let s := pair7 id
    (∀ i : Fin 4, (8 : BitVec 4).getLsbD i.val = true → s.motor (pairIn 1 i) = true) ∧ (State.reset.setObj (pairIdx 7) 1 [0]).motor (pairIn 1 3) = false ∧
      (∀ i : Fin 4, State.reset.motor (pairIn 1 i) = true) := by decide +kernel
theorem test_meets_BridgeCommands_object :
    let s := pair7 fun p => { p with posok := true }
    s.Takes byPair (pairIdx 7) 2 [pairWord 3 true 65535] ∧ s.Takes byPair (pairIdx 7) 2 [pairWord 6 true 0] ∧ s.Takes byPair (pairIdx 7) 2 [pairWord 5 true 5000] ∧
      s.Takes byPair (pairIdx 7) 2 [pairWord 4 false 0xFFFFFF] ∧ s.Takes byPair (pairIdx 7) 2 [0x100000000] ∧
      s.Takes byPair (pairIdx 7) 2 [0x200000000] ∧ s.Takes byPair (pairIdx 7) 2 [0x700000000] := by
  refine ⟨takes_of ?_, takes_of ?_, takes_of ?_, takes_of ?_, takes_of ?_, takes_of ?_, takes_of ?_⟩ <;> decide +kernel
theorem test_meets_LegCommands :
    let s := State.reset.setObj (pairIdx 7) 1 [0]
    let l := bget s.legs 15
    s.motor (pairOf 15) = false ∧ s.Unruled (legCode 15) ∧ l.base = none ∧ l.lcause = 0 ∧ l.act = .off ∧ s.pairHot (pairOf 15) = false ∧
      s.Fits (s.legCharge 15 .highOn) ∧ s.Fits (s.legCharge 15 .lowOn) ∧ s.Fits (s.legCharge 15 .pwm) ∧ State.reset.motor (pairOf 15) = true := by
  unfold State.Unruled State.Fits; decide +kernel
theorem test_meets_LegCommands_object : ∀ v : Fin 4, State.reset.Takes byPair (legIdx 15) 1 [BitVec.ofNat 36 v.val] :=
  fun v => takes_of (by revert v; decide +kernel)
theorem test_meets_PairEvents_limiter :
    let s (u w : Int) := pair7 fun p => { p with stage := .drive, act := .run (decide (w < 0)) 1000, u := u, ustar := w, stepAt := 8000 }
    State.reset.Ahead (8000 + usT 100) ∧ (s 0 65535000).motor 7 = true ∧ (65535000 : Int) ≤ 1000 * (s 0 65535000).ceiling 7 ∧ 0 < (s 1 (-1)).ceiling 7 := by
  unfold State.Ahead; decide +kernel
theorem test_meets_PairEvents_zero :
    let s := (pair7 fun p => { p with stage := .braking, brakeAt := 8000, act := .run true 1000, ustar := -1000000 }).setObj (pairIdx 7) 0x0D [0]
    let d := pair7 fun p => { p with stage := .dwell 9000, act := .run true 1000, ustar := -1000000 }
    s.Ahead (8000 + msT 500) ∧ (bget s.pairs 7).stage = .braking ∧ s.cfg (pairIdx 7) 0x0D = 0 ∧ d.Ahead 9000 ∧ (bget d.pairs 7).rev = none ∧
      d.pairInh 7 = false := by unfold State.Ahead; decide +kernel
theorem test_meets_PairEvents_position :
    let s (src : Word) := (pair7 fun p => { p with act := .run false 1000, u := 5000 }).setObj (pairIdx 7) 0x0D [src]
    (s 2).cfg (pairIdx 7) 0x0D = 2 ∧ (s 3).cfg (pairIdx 7) 0x0D = 3 ∧ (s 2).iop = true ∧ -(2 ^ 30) < (s 2).pos 7 ∧ (s 2).pos 7 < 2 ^ 30 ∧
      (bget (pair7 id).pairs 7).u = 0 ∧ (bget (s 2).pairs 7).u ≠ 0 := by decide +kernel
theorem test_meets_PairEvents_write : (pair7 id).Takes byPair (pairIdx 7) 6 [0x800000000] := takes_of (by decide +kernel)

/-- Pair 7 drives toward the end of its range, 0 to 1000 with an end zone of 20, from position p. -/
def drives (dir : Bool) (p : Int) : State :=
  ((((pair7 fun q => { q with stage := .drive, act := .run dir 1000, u := if dir then -1000 else 1000, dir := dir, posok := true }).setObj (pairIdx 7) 0x11 [1000]).setObj
    (pairIdx 7) 0x12 [20]).setPos 7 p).onSeq 10 fun q => { q with stopped := 0 }

theorem test_meets_PairEvents_kink :
    let near (s : State) (end_ : Int) : Prop := (s.pos 7 - end_).natAbs ≤ s.endZ 7
    (drives false 979).moving 7 = true ∧ (drives false 979).programRuns 7 = true ∧ ¬near (drives false 979) ((drives false 979).endP 7) ∧
      near (drives false 980) ((drives false 980).endP 7) ∧ near (drives false 1020) ((drives false 1020).endP 7) ∧
      (drives true 21).moving 7 = true ∧ ¬near (drives true 21) ((drives true 21).endN 7) ∧ near (drives true 20) ((drives true 20).endN 7) ∧
      (drives true 20).Ahead (0 + msT ((drives true 20).cfg (pairIdx 7) 0x13)) := by unfold State.Ahead; decide +kernel
theorem test_meets_PairEvents_pinch :
    let s := ((drives false 500).setObj (pairIdx 7) 0x15 [1]).onPair 7 fun q => { q with fAt := some 20000000 }
    let e := 20000000 + msT (s.cfg (pairIdx 7) 0x18)
    s.Ahead e ∧ (bget s.pairs 7).fAt = some 20000000 ∧ (s.at e).pinchZone 7 = true := by unfold State.Ahead; decide +kernel
theorem test_meets_PairEvents_ends :
    let s := ((drives false 500).onPair 7 fun q => { q with act := .park false, park := some 9000, pulse := some 9000 }).onAdm fun a => { a with swRep := 0x20 }
    let u := (s.setObj (pairIdx 7) 0x1C [5]).setObj (pairIdx 7) 9 [1]
    u.Ahead 9000 ∧ (bget u.pairs 7).act = .park false ∧ (bget u.pairs 7).stage = .drive ∧ u.operandIn (u.cfg (pairIdx 7) 0x1C) = true ∧
      (bget u.pairs 7).park = some 9000 ∧ (bget u.pairs 7).pulse = some 9000 ∧ u.cfg (pairIdx 7) 9 ≠ 0 ∧ u.srv.commits = [] ∧
      (15 : Fin 16).val / 2 = (7 : Fin 8).val := by unfold State.Ahead; decide +kernel

/-! Valves and light (R191 to R250) -/

/-- Bank 3 is enabled, and channel 11 of it is changed by f. -/
def valve11 (f : Valve → Valve) : State := (State.reset.setObj (bankIdx 3) 1 [1]).onVd 11 f

theorem test_meets_ValveCommands :
    let s := valve11 id
    let v := bget s.vd 11
    bankOf 11 = 3 ∧ s.iop = true ∧ bget s.adm.level (tgtFin (valveCode 11)) = none ∧ s.safeOf (valveCode 11) = none ∧ v.base = none ∧
      s.Unruled (valveCode 11) ∧ v.lcause = 0 ∧ (bget s.vb 3).latch = false ∧ s.bankOn 3 = true ∧ v.stage = .off ∧ v.again = none ∧
      (bget s.th 11).hot = false ∧ s.Fits (s.valveCharge 11) ∧ (s.cfg (valveIdx 11) 0x0A = 0 ∨ s.startDelay 3 ≤ msT (s.cfg (valveIdx 11) 0x0A)) ∧
      s.bankOwner 3 = none ∧ ((valve11 id).onVd 10 fun q => { q with stage := .peak 8000 }).bankOwner 3 = some 10 := by
  unfold State.Unruled State.Fits; decide +kernel
theorem test_meets_ValveCommands_off :
    let s := ((valve11 fun v => { v with stage := .peak 8000 }).onVd 10 fun v => { v with stage := .queued }).onVb 3 fun b => { b with queue := [10] }
    (bget s.vd 11).stage = .peak 8000 ∧ (bget s.vb 3).queue = [10] ∧ bankOf 10 = 3 ∧ s.mayPeak 10 = true ∧ (bget s.vd 10).stage = .queued ∧
      (bget s.vd 10).again = none ∧ (bget (valve11 fun v => { v with stage := .hold }).vd 11).stage = .hold := by decide +kernel
theorem test_meets_ValveCommands_latch :
    let s := (valve11 fun v => { v with lcause := 3 }).onSup fun u => { u with tj := bset u.tj 11 2400 }
    (bget s.vd 11).lcause = 3 ∧ 2400 ≤ bget s.sup.tj 11 ∧ bget State.reset.sup.tj 11 < 2400 ∧
      (fld (0x30000EA61 : Word) 35 32 = 3 ∧ 60000 < fld (0x30000EA61 : Word) 15 0) := by decide +kernel
theorem test_meets_ValveCommands_object :
    (valve11 id).Takes byPair (valveIdx 11) 1 [0] ∧ (valve11 id).Takes byPair (valveIdx 11) 1 [1] ∧ (valve11 id).Takes byPair (valveIdx 11) 2 [1] := by
  refine ⟨takes_of ?_, takes_of ?_, takes_of ?_⟩ <;> decide +kernel
theorem test_meets_ValveEvents_pull :
    let s := valve11 fun v => { v with stage := .peak 8000 }
    let last := 8000 + hundredUs (s.valveSet 11).pkmax
    s.Ahead last ∧ (bget s.vd 11).stage = .peak 8000 ∧ (bget s.vd 11).pulled = none ∧ s.peakHold 3 = true ∧ 8000 + usT (10 * 1) ≤ last ∧
      s.Ahead (8000 + usT (10 * 1)) ∧ (bget s.vb 3).queue = [] ∧ s.iop = true ∧ (bget s.vd 11).unseen = false ∧ (bget s.vd 11).fb = false ∧
      0 ≤ (s.valveSet 11).epk := by unfold State.Ahead; decide +kernel
theorem test_meets_ValveEvents_pulled :
    let s (p : Nat) := (valve11 fun v => { v with stage := .peak 8000, pulled := some p }).setObj (valveIdx 11) 9 [1]
    let u := valve11 fun v => { v with stage := .peak 8000 }
    let last := 8000 + hundredUs ((s 9000).valveSet 11).pkmax
    ((s 9000).valveSet 11).pidet = true ∧ 9000 + hundredUs ((s 9000).valveSet 11).pkext ≤ last ∧ (s 9000).Ahead (9000 + hundredUs ((s 9000).valveSet 11).pkext) ∧
      ((u.setObj (valveIdx 11) 9 [0]).valveSet 11).pidet = false ∧ (s 9000).peakHold 3 = true := by unfold State.Ahead; decide +kernel
theorem test_meets_ValveEvents_queue :
    let s := (((valve11 fun v => { v with stage := .peak 8000 }).onVd 10 fun v => { v with stage := .queued }).onVb 3 fun b => { b with queue := [10] }).setObj
      (valveIdx 11) 9 [0]
    (bget s.vd 11).stage = .peak 8000 ∧ (bget s.vb 3).queue = [10] ∧ s.mayPeak 10 = true ∧ (s.valveSet 11).pidet = false := by decide +kernel
theorem test_meets_ValveEvents_decay :
    let s (z : Option Nat) := (valve11 fun v => { v with stage := .decay z, offAt := 8000, epk := 65535 })
    let relt := ((s none).valveSet 11).relt
    (bget (s none).vd 11).stage = .decay none ∧ (bget (s none).vd 11).again = none ∧ (bget (s none).vd 11).bat = false ∧
      (bget (s none).vd 11).epk < 2 ^ 16 ∧ (bget (s (some 8320)).vd 11).stage = .decay (some 8320) ∧ (s (some 8320)).peakHold 3 = true ∧
      (s (some 8320)).now ≤ 8320 + msT relt ∧ (bget (s (some 8320)).vd 11).offAt ≤ (s (some 8320)).now ∧ State.reset.Ahead (8320 + msT relt) := by
  unfold State.Ahead; decide +kernel
theorem test_meets_ValveEvents_hold :
    let s := (valve11 fun v => { v with stage := .hold, pulse := some 9000, onFrom := some 8000 }).setObj (valveIdx 11) 0x0D [50]
    let e := dutyReach (bget s.vd 11) (s.valveSet 11).dwin (s.valveSet 11).dutyLimit 6002 s.now
    (bget s.vd 11).pulse = some 9000 ∧ (bget s.vd 11).onFrom.isSome = true ∧ (s.valveSet 11).dlim ≠ 100 ∧ e.isSome = true ∧ e.all (fun e => decide (s.now ≤ e ∧ e < 2 ^ 72)) = true := by
  decide +kernel
theorem test_meets_ValveEvents_cool :
    let s := (valve11 fun v => { v with lcause := 4, onLog := [(7000, 8000)] }).setObj (valveIdx 11) 0x0D [50]
    let e := dutyCool (bget s.vd 11) (s.valveSet 11).dwin (s.valveSet 11).dutyLimit 6002 s.now
    (bget s.vd 11).lcause = 4 ∧ e.isSome = true := by decide +kernel

/-- Bank 3 is enabled; channel 11 is in its peak, channel 10 waits. -/
def banks : State :=
  ((valve11 fun v => { v with stage := .peak 8000 }).onVd 10 fun v => { v with stage := .queued }).onVb 3 fun b => { b with queue := [10] }

theorem test_meets_BanksAndBoost : banks.bankOn 3 = true ∧ (bget banks.vb 3).latch = false ∧ banks.ValvesLined ∧ banks.bankOwner 3 = some 11 := by
  refine ⟨by decide +kernel, by decide +kernel, ?_, by decide +kernel⟩
  have h : ∀ b m, m ∈ (bget banks.vb b).queue → bankOf m = b ∧ (bget banks.vd m).stage = .queued := by decide +kernel
  exact fun b m hm => ⟨(h b m hm).1, .inl (h b m hm).2⟩

/-- The boost converter is enabled. -/
def boosts (f : Boost → Boost) : State := (State.reset.setObj boostIdx 1 [1]).onBoost f

theorem test_meets_BanksAndBoost_boost :
    let s := boosts fun u => { u with run := true, chEnds := some 9000 }
    let vset := s.cfg boostIdx 2
    s.Ahead 9000 ∧ s.boost.run = true ∧ s.boost.reached = false ∧ 100 * s.cfg boostIdx 3 ≤ 98 * vset ∧ s.boost.chEnds = some 9000 ∧
      100 * (vset + 3) < 6801 ∧ 100 * s.cfg boostIdx 3 ≤ 6801 := by unfold State.Ahead; decide +kernel
theorem test_meets_BanksAndBoost_clear :
    let s := boosts fun u => { u with latched := true }
    s.Takes byPair boostIdx 0x0A [1] ∧ s.boost.latched = true ∧ s.boost.run = false ∧ s.cfgB boostIdx 1 = true ∧ s.heldOff = false ∧ s.sup.crank = false ∧
      s.asleep = false ∧ (bget s.th 12).hot = false ∧ s.isShed 0xAB = false ∧ s.isDeferred 0xAB = false ∧ s.Fits s.boostCharge ∧
      banks.Takes byPair (bankIdx 3) 3 [1] := by
  refine ⟨takes_of ?_, rfl, rfl, ?_, ?_, ?_, ?_, ?_, ?_, ?_, ?_, takes_of ?_⟩ <;> (try unfold State.Fits) <;> decide +kernel
theorem test_meets_BanksAndBoost_rail :
    let s (run : Bool) (v : Nat) := banks.onBoost fun u => { u with run := run, vout := v }
    let vbmin := 100 * banks.cfg boostIdx 3
    vbmin - 1 < vbmin ∧ (s true vbmin).boost.run = true ∧ vbmin ≤ (s true vbmin).boost.vout ∧ (s true vbmin).bankOwner 3 = some 11 ∧
      (∀ a, a ≠ 3 → (s true vbmin).bankOwner a = none) ∧ (bget (s true vbmin).vd 11).bat = false ∧ (s false (vbmin - 1)).boost.vout < vbmin ∧
      (s false 500).boostSink = true ∧ 500 ≤ (s false 500).boost.vout := by decide +kernel

/-- Sink 23, changed by f. -/
def sink23 (f : Sink → Sink) : State := State.reset.onSink 23 f

theorem test_meets_LedSinks :
    let s := sink23 fun k => { k with x := 65535, goal := 65535 }
    s.safeOf (sinkCode 23) = none ∧ s.sinkL 23 65535 ≤ s.sinkDuty 23 ∧ s.iop = true ∧ (2047 : BitVec 16).toNat < 2048 ∧
      s.Takes byPair (sinkIdx 23) 1 [wd 65535] ∧ s.Takes byPair (sinkIdx 23) 3 [1] := by
  refine ⟨?_, ?_, rfl, by decide, takes_of ?_, takes_of ?_⟩ <;> decide +kernel
theorem test_meets_LedSinks_rise :
    let s := sink23 id
    s.Unruled (sinkCode 23) ∧ s.sinkDuty 23 < s.sinkL 23 65535 ∧ s.sup.ov = false ∧ (bget s.sinks 23).lcause = 0 ∧
      s.Fits (s.sinkCharge 23 (s.sinkL 23 65535)) := by unfold State.Unruled State.Fits; decide +kernel
theorem test_meets_LedSinks_latch :
    let s (hot : Bool) := sink23 fun k => { k with lcause := 2, hot := hot }
    (bget (s true).sinks 23).lcause = 2 ∧ (bget (s true).sinks 23).hot = true ∧ (bget (s false).sinks 23).hot = false ∧
      24 ≤ fld (0x1C0000000 : Word) 31 27 := by decide +kernel
theorem test_meets_LedSinks_boundary :
    let s := sink23 fun k => { k with x := 1, goal := 65535, x0 := 1, steps := 1 }
    (bget s.sinks 23).lastBnd = none ∧ s.srv.commits = [] ∧ 0 < s.sinkPeriod 23 ∧ s.now + s.sinkPeriod 23 < 2 ^ 72 := by decide +kernel
theorem test_meets_LedSinks_short :
    let s := sink23 fun k => { k with lastBnd := some 8000, onTicks := usT 50 }
    s.sinkLit 23 = true ∧ usT 50 ≤ (bget s.sinks 23).onTicks := by decide +kernel
theorem test_meets_LedSinks_shed :
    let s := ((sink23 fun k => { k with shedAt := some 8000 }).onChain fun c => { c with shedAt := some 8000 }).onMatrix fun m => { m with shedAt := some 8000 }
    s.Ahead (8000 + secT (s.cfg (sinkIdx 23) 0x0C)) ∧ (bget s.sinks 23).shoff = false ∧ (∀ m, m ≠ 23 → (bget s.sinks m).shedAt = none) ∧
      s.Ahead (8000 + secT (s.cfg chainIdx 8)) ∧ s.chain.shoff = false ∧ s.Ahead (8000 + secT (s.cfg matrixIdx 0x0E)) ∧ s.matrix.shoff = false := by
  unfold State.Ahead; decide +kernel
theorem test_meets_ChainAndMatrix :
    let s := (State.reset.setObj chainIdx 1 [1]).onChain fun c => { c with cgo := true }
    s.Ahead s.now ∧ s.iop = true ∧ s.srv.commits = [] ∧ s.cfgB chainIdx 1 = true ∧ s.chain.lastAt = none ∧ 0 < msT (s.cfg chainIdx 4) ∧
      s.now + msT (s.cfg chainIdx 4) < 2 ^ 72 ∧ s.chain.cgo = true ∧ s.safeOf 0x98 = none := by unfold State.Ahead; decide +kernel
theorem test_meets_ChainAndMatrix_object :
    State.reset.Takes byPair chainIdx 9 [1] ∧ State.reset.Takes byPair matrixIdx 0x0F [wd 1] := ⟨takes_of (by decide +kernel), takes_of (by decide +kernel)⟩
theorem test_meets_ChainAndMatrix_frame :
    let s := State.reset.setObj matrixIdx 1 [1]
    s.cfgB matrixIdx 1 = true ∧ s.srv.per = [] ∧ s.safeOf 0x99 = none ∧ s.fsync = false ∧ s.matrix.start = none ∧ 0 < s.mfp ∧ s.now + s.mfp < 2 ^ 72 := by
  decide +kernel

/-- The matrix is scanned from FSYNC; a frame began at TIME 8000 and its scan ends at TIME e. -/
def synced (e : Nat) : State :=
  (((State.reset.setObj matrixIdx 1 [1]).setObj matrixIdx 0x0A [1]).setObj (ioIdx 0) 1 [8]).onMatrix fun m => { m with start := some 8000, ends := e, watch := 8000 }

theorem test_meets_ChainAndMatrix_fsync :
    (synced 8320).fsync = true ∧ (synced 8320).matrix.start = some 8000 ∧ 8000 + usT 1 ≤ (synced 8320).now ∧ (synced 8320).matrix.ends ≤ (synced 8320).now ∧
      (synced 8321).now < (synced 8321).matrix.ends ∧ (synced 8321).Ahead (rowEnd (synced 8321).mtimes 8000 (synced 8321).now) ∧
      (synced 8320).matrix.fslost = false ∧ (synced 8320).Ahead (8000 + msT ((synced 8320).cfg matrixIdx 0x0B)) := by unfold State.Ahead; decide +kernel


/-! Loops, inputs and speedwell (R108 to R115, R253 to R293, R348 to R366) -/

/-- Loop 0 is placed in slot 23 of tile 14, and changed by f. -/
def loop0 (f : Loop → Loop) : State :=
  (State.reset.onTile 14 fun t => { t with role := .scheduled }).onLoop 0 fun l => f { l with place := some (14, 23), mode := 2 }

theorem test_meets_Loops_release :
    let s := loop0 id
    let l := s.loop 0
    s.Ahead s.now ∧ s.up 3 = true ∧ l.place = some (14, 23) ∧ (s.tile 14).role = .scheduled ∧ l.held = false ∧ s.pwr.mode = .run ∧ s.srv.commits = [] ∧
      l.out = none ∧ l.rel = none ∧ l.safe = none ∧ l.modeReq = false ∧ l.lastRel = none ∧ l.from_ ≤ s.now ∧
      s.cfg (loopIdx 0) 6 < s.cfg (loopIdx 0) 5 ∧ s.cfg (loopIdx 0) 0x1D = 0 ∧ s.now + s.cfg (loopIdx 0) 5 < 2 ^ 72 ∧ l.mode ≠ 0 := by
  exact ⟨⟨by decide +kernel, by decide +kernel⟩, by decide +kernel⟩

/-- A step of it is released; its inputs are y = 1 and sp = 2. -/
def released (rel : LoopRel) : State := loop0 fun l => { l with rel := some rel }

/-- Inputs that are all valid. -/
def inputs : LoopInputs := { y := some 1, sp := some 2, w := some 0, sch := some 0 }

theorem test_meets_Loops_step :
    let r : LoopRel := { at_ := 8000, deadline := 108000, inputs := some inputs }
    let s := released r
    let l := s.loop 0
    let g := s.loopCfg 0
    s.nextStep 14 = some (0, r, inputs) ∧ (s.tile 14).again = none ∧ l.mode = 2 ∧ g.law = 0 ∧ g.nreg = 1 ∧ l.core.region = 0 ∧ g.sprate = 0 ∧ g.rth = 0 ∧
      l.remap = false ∧ l.entry = false ∧ l.restart = false ∧ l.vref = none ∧ l.fresh = false ∧ s.holdsBack 0 = 0 ∧ s.cfg (loopIdx 0) 0x18 = 0 ∧
      s.cfg (loopIdx 0) 0x1B = 0 ∧ (s.tile 14).retry < 10 := by decide +kernel
theorem test_meets_Loops_wait :
    let s (n : Nat) := ((released { at_ := 8000, deadline := 108000, inputs := none }).onLoop 0 fun l => { l with core := { l.core with missc := n } }).setObj
      (loopIdx 0) 0x1D [1000]
    (s 1).Ahead (8000 + (s 1).cfg (loopIdx 0) 0x1D) ∧ ((s 1).loop 0).core.missc < 2 ∧ 2 ≤ ((s 2).loop 0).core.missc ∧ (s 2).cfg (loopIdx 0) 0x1E = 0 := by
  exact ⟨⟨by decide +kernel, by decide +kernel⟩, by decide +kernel⟩
theorem test_meets_Loops_deadline :
    let s := released { at_ := 8000, deadline := 108000, inputs := some inputs }
    let u := loop0 fun l => { l with out := some (1, 9000) }
    s.Ahead 108000 ∧ (s.loop 0).out = none ∧ (s.loop 0).core.missc < 2 ∧ u.Ahead 9000 ∧ (u.loop 0).out = some (1, 9000) ∧ (u.loop 0).rel = none ∧
      u.cfg (loopIdx 0) 0x18 = 0 := by unfold State.Ahead; decide +kernel
theorem test_meets_Loops_stream : ∀ n, (State.reset.loop n).rel.any (·.inputs.isNone) = false := by
  intro n
  simp only [State.loop, State.reset, bget_replicate]
  rfl
theorem test_meets_Loops_mode : ∀ v : Fin 3, (loop0 id).Takes byPair (loopIdx 0) 1 [wd v.val] := fun v => takes_of (by revert v; decide +kernel)

/-- Tile 14 is scheduled, tile 15 the only spare. -/
def spared (f : Loop → Loop) : State :=
  let s := (loop0 f).onEng fun e => { e with tiles := Vector.ofFn fun i => { bget e.tiles i with role := if i = 15 then .spare else .scheduled } }
  s

theorem test_meets_Loops_fail :
    let s := spared fun l => { l with rel := some { at_ := 8000, deadline := 108000, inputs := some inputs } }
    let u := s.onTile 14 fun t => { t with retry := 10 }
    s.up 3 = true ∧ s.eng.remap = none ∧ (s.loop 0).place = some (14, 23) ∧ (s.loop 0).safe = none ∧ (s.tile 14).role = .scheduled ∧ s.loopsOn 14 ≠ [] ∧
      (s.tile 15).role = .spare ∧ (∀ x, x ≠ 15 → (s.tile x).role ≠ .spare) ∧ (u.stepNow 14).isSome = true ∧ 10 ≤ (u.tile 14).retry := by decide +kernel
theorem test_meets_Loops_load :
    let c (v : Bool) : Checkpoint := { core := LoopCore.zero, cycle := 0, valid := v }
    let s (v : Bool) := spared fun l => { l with place := some (15, 23), held := true, ckpt := some (c v) }
    (s true).Ahead (8000 + usT 20) ∧ ((s true).loop 0).place = some (15, 23) ∧ ((s true).loop 0).held = true ∧ ((s true).loop 0).ckpt = some (c true) ∧
      ((s false).loop 0).ckpt = some (c false) ∧ ((s false).loop 0).mode = 2 := by exact ⟨⟨by decide +kernel, by decide +kernel⟩, by decide +kernel⟩

/-- SW63, changed by f. -/
def sw63 (f : Input → Input) : State := State.reset.onIn 63 f

theorem test_meets_InputsAndPins :
    let s := sw63 fun u => { u with cls := .active, since := 8000 }
    let u := bget s.inputs 63
    s.inRuns 63 = true ∧ u.fb = false ∧ u.cls ≠ u.rep ∧ s.Ahead (8000 + usT (s.cfg (inIdx 63) 4)) ∧ s.iop = true ∧ s.inEven 63 = true ∧
      s.flowFrom 0x3D00 = none ∧ s.inq.items.length + 2 < 512 ∧ s.inUse 63 = true ∧ u.lowv = false ∧ (s.setObj (inIdx 63) 2 [1]).cfgB (inIdx 63) 2 = true := by
  unfold State.Ahead; decide +kernel
theorem test_meets_InputsAndPins_full :
    let s := { sw63 id with inq := { items := List.replicate 512 { marker := false, words := [0, 0] }, lost := 0 } }
    512 ≤ s.inq.items.length := by decide +kernel
theorem test_meets_InputsAndPins_chatter :
    let s := (sw63 fun u => { u with cls := .active, since := 50000000, chat := some 8000 })
    let u := bget s.inputs 63
    s.Ahead (8000 + msT (s.cfg (inIdx 63) 5)) ∧ u.chat = some 8000 ∧ msT (s.cfg (inIdx 63) 5) ≠ 0 ∧
      8000 + msT (s.cfg (inIdx 63) 5) < u.since + usT (s.cfg (inIdx 63) 4) ∨ u.fb = false ∧ u.chat.isSome = true := by unfold State.Ahead; decide +kernel
theorem test_meets_InputsAndPins_filter :
    let s := sw63 fun u => { u with fb := true, cls := .active, k := 0, kAt := 8000, since := 8000 }
    let u := bget s.inputs 63
    s.inRuns 63 = true ∧ u.fb = true ∧ u.cls ≠ u.rep ∧ s.Ahead ((u.kAt / 100 + (s.cfg (inIdx 63) 4 - u.k)) * 100) ∧
      s.Ahead (u.since + msT (s.cfg (inIdx 63) 5)) := by unfold State.Ahead; decide +kernel

/-- IO15 is an output. -/
def io15 (f : IoPin → IoPin) : State := (State.reset.setObj (ioIdx 15) 1 [3]).onIo 15 f

theorem test_meets_InputsAndPins_out :
    let s := io15 id
    let p := bget s.ios 15
    s.ioOut 15 = true ∧ p.on = false ∧ p.lcause = 0 ∧ s.safeOf (ioCode 15) = none ∧ s.duoHeld (ioCode 15) = false ∧ s.isShed (ioCode 15) = false ∧
      s.heldOff = false ∧ s.isDeferred (ioCode 15) = false ∧ s.Fits (s.ioCharge 15) ∧ State.reset.ioOut 15 = false ∧
      (bget (io15 fun p => { p with on := true }).ios 15).on = true ∧ s.iop = true ∧ s.adc.lowref = false := by unfold State.Fits; decide +kernel
theorem test_meets_InputsAndPins_object :
    (io15 id).Takes byPair (ioIdx 15) 9 [1] ∧ (io15 id).Takes byPair (ioIdx 15) 9 [0] ∧ (io15 id).Takes byPair (ioIdx 15) 0x0A [1] ∧
      State.reset.Takes byPair (ioIdx 15) 9 [1] ∧ State.reset.Takes byPair (ioIdx 15) 9 [0] := by
  refine ⟨takes_of ?_, takes_of ?_, takes_of ?_, takes_of ?_, takes_of ?_⟩ <;> decide +kernel
theorem test_meets_IdleAndStrobe :
    let s (m : PowerMode) := State.reset.onPwr fun p => { p with mode := m }
    (s .run).pending = [] ∧ (s .run).now + 3053 < 2 ^ 72 ∧ (s .off).pwr.mode = .off ∧ (s .park).pwr.mode = .park ∧ (s .park).time.aonAcc < 128 ∧
      (s .run).time.bkAcc < 4 ∧ (State.reset.onRst fun r => { r with bkup := true }).rst.bkup = true ∧ (s .run).rst.bkup = false ∧ (s .run).time.offset = 0 ∧
      1999 ≤ (State.reset.onTime fun t => { t with since := 1999, offset := -1 }).time.since := by decide +kernel
theorem test_meets_IdleAndStrobe_strobe :
    let s := State.reset
    let u := s.onTime fun t => { t with strobed := true, step := -1 }
    s.time.strobed = true ∧ s.time.step = 0 ∧ max s.now ((s.now / 100000 + 1) * 100000) = 100000 ∧ u.time.step ≠ 0 ∧ u.duo.role ≠ .active ∧
      (0 : Int) = max (u.now : Int) ((u.now / 100000 + 1) * 100000 : Nat) + 100000 * u.time.step := by decide +kernel
theorem test_meets_IdleAndStrobe_cyc :
    let s := State.reset.onSrv fun v => { v with cyc := [(okey (pairIdx 0) 0x23, byPair, List.replicate 32 0)] }
    s.up 2 = true ∧ s.srv.commits = [] ∧ famOf (pairIdx 0) = some (.pair, 0) ∧ (findRow .pair 0x23).map (fun r => (r.sub, r.apply)) = some (0x23, .cyc) := by
  decide +kernel
theorem test_meets_IdleAndStrobe_commit :
    let s := State.reset.onSrv fun v => { v with staged := [(okey (0x2300 + 63) 9, [8])], commits := [{ owner := byPair, indices := [0x2300 + 63], started := 8320, hdr := none, checked := true, strobed := false }] }
    s.srv.cyc = [] ∧ s.now = 8320 ∧ s.srv.staged = [(okey (0x2300 + (63 : Fin 64).val) 9, [8])] ∧ s.srv.commits.map (·.started) = [s.now] := by decide +kernel

/-- The table in force has one rule, number 255, with the first word w: its operands are always true, its target is HS71 and its action ON. -/
def ruled (w : Word) : State :=
  (State.reset.setObj 0x2700 1 (List.replicate 510 0 ++ [w, 0xFFFF04700])).onAdm fun a => { a with bk := 15 }

theorem test_meets_SpeedwellPass :
    let s := ruled 0x8FFFFFFFF
    let r := s.rule 255
    s.up 1 = true ∧ ruleOn r = true ∧ ruleValid r = true ∧ fld r.1 34 33 = 0 ∧ fld r.2 15 8 = 71 ∧ s.ruleTrue r = true ∧ fld r.2 19 16 = 0 ∧
      (∀ n : Fin 255, ruleOn (s.rule n.val) = false) ∧ s.adm.fresh = true ∧ (∀ i : Fin 4, s.adm.bk.getLsbD i.val = s.blinkOn i.val) ∧ s.Unruled 71 ∧
      (bget s.hs 71).base = none ∧ (bget s.hs 71).lcause = 0 ∧ (bget s.hs 71).act = .off ∧ (bget s.hs 71).next = none ∧ (bget s.hs 71).out = false ∧
      (bget s.hs 71).paused = false ∧ (bget s.th (grpTh (hsGroup 71))).hot = false ∧ s.Fits (s.hsCharge 71 .on) := by
  unfold State.Unruled State.Fits; decide +kernel
theorem test_meets_SpeedwellPass_edge :
    let s := (ruled 0xEFFFFFFFF).onAdm fun a => { a with fresh := false }
    let r := s.rule 255
    ruleOn r = true ∧ ruleValid r = true ∧ s.adm.fresh = false ∧ s.ruleTrue r ≠ s.adm.prev.getLsbD 255 ∧ fld r.1 34 33 = 3 := by decide +kernel


/-! The object server (R49 to R84) -/

/-- The header of an open message to the UDP port. -/
def asks (idx : BitVec 16) (sub : Byte) : ZopHdr :=
  { medium := .udp 0xC1F0, peer := 9, trailer := none, vouched := false, stg := false, node := 0, rqid := 7, index := idx, sub := sub }

/-- An open message that can be served at once. -/
def heardB (s : State) (h : ZopHdr) (data : List Byte) : Bool :=
  s.zopMedium h && decide (data.length ≤ zopMax h) && h.node == 0 && !s.upd.recov && s.srvFree (openOf h) && h.trailer.isNone && !h.vouched

theorem hears_of {s : State} {h : ZopHdr} {data : List Byte} (svc : Nat) (hb : heardB s h data = true) : s.Hears h svc data (openOf h) s := by
  simp only [heardB, Bool.and_eq_true, decide_eq_true_eq, beq_iff_eq, Bool.not_eq_true', Option.isNone_iff_eq_none] at hb
  obtain ⟨⟨⟨⟨⟨⟨h1, h2⟩, h3⟩, h4⟩, h5⟩, h6⟩, h7⟩ := hb
  exact ⟨h1, h2, h3, h4, h5, .inl ⟨h6, rfl, .inl ⟨h7, rfl⟩⟩⟩

/-- Key slot 31 holds a key; session 8, the last one, uses it. -/
def keyed (proven : Bool) : State :=
  (State.reset.onUpd fun u => { u with keys := bset u.keys 31 (some 0x2B7E151628AED2A6ABF7158809CF4F3C) }).onSrv fun v => { v with
    sess := bset v.sess 7 (some { proven := proven, slot := 31, chal := 5, peer := openOf (asks 0 0), rx := 5, tx := 5, opened := 8000, lastUse := 8000, fails := 15 }) }

/-- The session's MAC of a message that the host sends with FRESH. -/
def signed (h : ZopHdr) (svc : Nat) (data : List Byte) (fresh : Word) : ZopHdr :=
  let t : Trailer := { sid := 8, fresh := fresh, mac := 0 }
  let m := ((keyed true).zopMac 31 8 0 (reqHead { h with trailer := some t } svc data.length) data fresh).getD 0
  { h with trailer := some { t with mac := m } }

/-- A message of the session passes the screening. -/
theorem test_meets_Hears_session :
    let h := signed (asks 0x1000 1) 1 [] 6
    let tr : Trailer := h.trailer.getD { sid := 0, fresh := 0, mac := 0 }
    let x : Session := { proven := true, slot := 31, chal := 5, peer := openOf (asks 0 0), rx := 5, tx := 5, opened := 8000, lastUse := 8000, fails := 15 }
    (keyed true).Hears h 1 [] (.session 7) ((keyed true).onSrv fun v => { v with sess := bset v.sess 7 (some { x with rx := tr.fresh, fails := 0, lastUse := 8320 }) }) := by
  refine ⟨by decide +kernel, by decide +kernel, rfl, rfl, by decide +kernel, .inr ⟨_, 7, _, rfl, by decide +kernel, rfl, rfl, ?_, ?_, ?_, ?_, rfl, rfl⟩⟩ <;>
    decide +kernel
theorem test_meets_ZopRequests_trailer :
    let h := { asks 0x1000 1 with trailer := some { sid := 8, fresh := 5, mac := 0 } }
    ((bget (keyed true).srv.sess 7).map fun x => (x.proven, x.fails)) = some (true, 15) ∧ (5 : Word) ≤ 5 ∧ (keyed true).zopMedium h = true := by decide +kernel
theorem test_meets_ZopRequests_read :
    let h := asks 0x1000 1
    State.reset.Hears h 1 [] (openOf h) State.reset ∧ isFw 0x1000 = false ∧ (State.reset.access (openOf h) 0x1000 0xFF false).isRight = true ∧
      (State.reset.access (openOf h) 0x1000 1 false).isLeft = true ∧ State.reset.reaches .ident 0 = true :=
  ⟨hears_of 1 (by decide +kernel), by decide, by decide +kernel, by decide +kernel, by decide +kernel⟩
theorem test_meets_ZopRequests_staged :
    let h := asks (BitVec.ofNat 16 (hsIdx 71)) 7
    let b (r : Requester) : BundleOwn := { index := hsIdx 71, owner := r, since := 8000, phase := .staging }
    let s (r : Requester) := State.reset.onSrv fun v => { v with bundles := [b r] }
    (s (openOf h)).Hears { h with stg := true } 1 [] (openOf h) (s (openOf h)) ∧ (∃ b ∈ (s (openOf h)).srv.bundles, b.index = hsIdx 71 ∧ b.owner = openOf h) ∧
      ∀ b ∈ (s byPair).srv.bundles, b.index = hsIdx 71 → b.owner ≠ openOf h :=
  ⟨hears_of 1 (by decide +kernel), ⟨_, List.mem_singleton_self _, rfl, rfl⟩, by decide +kernel⟩
theorem test_meets_ZopRequests_write :
    let h := asks 0x10F0 1
    let ty := State.reset.typeOf 0x10F0 1
    State.reset.Hears h 2 (netOctets ty [0xFFFF]) (openOf h) State.reset ∧ ty ≠ .str ∧ ty ≠ .dom ∧ typeOk ty [0xFFFF] = true ∧
      State.reset.Hears h 7 [] (openOf h) State.reset ∧ famOf 0x10F0 = some (.bundle, 0) ∧ (findRow .bundle 1).isSome = true ∧
      State.reset.Hears h 5 [] (openOf h) State.reset :=
  ⟨hears_of 2 (by decide +kernel), by decide +kernel, by decide +kernel, by decide +kernel, hears_of 7 (by decide +kernel), by decide, by decide +kernel,
    hears_of 5 (by decide +kernel)⟩
theorem test_meets_ZopRequests_commit :
    let h := signed (asks 0x10F0 0x10) 3 (1 :: numOcts 0x2047 2 ++ numOcts 0 2) 6
    let u := keyed true
    u.zopMedium h = true ∧ (u.writeCheck (.session 7) bundleIdx 0x10 [wd 1]).isLeft = true ∧ (u.writeCheck (.session 7) bundleIdx 0x10 [wd 2]).isLeft = true ∧
      hasRwc 0x2047 = true ∧ u.bundleBusy (.session 7) 0x2047 = false := by decide +kernel
theorem test_meets_ZopRequests_subscribe :
    let h := asks (BitVec.ofNat 16 (hsIdx 71)) 4
    State.reset.Hears h 4 (numOcts 1 2) (openOf h) State.reset ∧ isFw (hsIdx 71) = false ∧
      (match State.reset.access (openOf h) (hsIdx 71) 4 false with | .inl (_, _, row) => row.subs | .inr _ => false) = true ∧
      (∀ k, bget State.reset.srv.subs k = none) :=
  ⟨hears_of 4 (by decide +kernel), by decide, by decide +kernel, by decide +kernel⟩
theorem test_meets_ZopRequests_notify :
    let x : Sub := { owner := openOf (asks 0 0), key := okey (hsIdx 71) 4, minMs := 1, last := some 8000, seen := [1], stamp := none, force := false }
    let s := State.reset.onSrv fun v => { v with subs := bset v.subs 63 (some x) }
    bget s.srv.subs 63 = some x ∧ s.up 2 = true ∧ s.value x.owner (x.key / 256) (x.key % 256) ≠ x.seen ∧ 8000 + msT 1 < 2 ^ 72 := by decide +kernel
theorem test_meets_ZopRequests_malformed :
    let e := { asks 0 0 with rqid := 7 }
    State.reset.zopMedium e = true ∧ State.reset.srvFree (openOf e) = true ∧ (0x41 : Byte).toNat / 64 = 1 ∧ (0x4E : Byte).toNat % 64 = 14 ∧
      ([] : List Byte).length < (1 : Byte).toNat + 0 := by decide +kernel

/-- A transfer of IREF of pair 7 by an open requester. -/
def transfer (write : Bool) (words : List Word) : Block :=
  let h := asks (BitVec.ofNat 16 (pairIdx 7)) 0x23
  { owner := openOf h, key := okey (pairIdx 7) 0x23, write := write, len := 32, next := 0, words := words, crc := BitVec.allOnes 32, last := 8000, hdr := h, acked := 0,
    sent := 0, out := [] }
def transfers (b : Block) : State := State.reset.onSrv fun v => { v with blocks := [b] }

theorem test_meets_Transfers_start :
    let h := signed (asks (BitVec.ofNat 16 (pairIdx 7)) 0x23) 8 (0 :: numOcts 32 5) 6
    okey (pairIdx 7) 0x23 ≠ imageKey ∧ (keyed true).zopMedium h = true ∧ (keyed true).blockAccess (.session 7) (pairIdx 7) 0x23 true = .inl (some 32) ∧
      State.reset.Hears (asks (BitVec.ofNat 16 (pairIdx 7)) 0x23) 8 (1 :: numOcts 32 5) (openOf (asks 0 0)) State.reset ∧
      State.reset.blockAccess (openOf (asks 0 0)) (pairIdx 7) 0x23 false = .inl (some 32) ∧
      32 ≤ (State.reset.value (openOf (asks 0 0)) (pairIdx 7) 0x23).length :=
  ⟨by decide, by decide +kernel, by decide +kernel, hears_of 8 (by decide +kernel), by decide +kernel, by decide +kernel⟩
theorem test_meets_Transfers_image :
    let u := (keyed true).onUpd fun x => { x with banks := bset x.banks (otherBank x.mapped) .empty }
    u.blockAccess (.session 7) updIdx 1 true = .inl none ∧ u.upd.busy = .none ∧ u.bankIn .trial = none ∧
      u.bankState (otherBank u.upd.mapped) ≠ .confirmed ∧ lenOk 0x100000 = true ∧ lenOk 0x100 = true := by decide +kernel
theorem test_meets_Transfers_seg :
    let h := asks (BitVec.ofNat 16 (pairIdx 7)) 0x23
    let b := transfer true []
    let c := transfer true (List.replicate 31 0)
    (transfers b).Hears h 9 (numOcts 0 2 ++ segOctets (List.replicate 32 1)) (openOf h) (transfers b) ∧ (transfers b).blockOf (openOf h) h = some b ∧
      (List.replicate 32 (1 : Word)).length ≤ segMax h ∧ b.words.length + (padWords (List.replicate 32 1)).length ≤ b.len ∧ c.words ≠ [] :=
  ⟨hears_of 9 (by decide +kernel), by decide +kernel, by decide, by decide, by decide⟩
theorem test_meets_Transfers_window :
    let h := asks (BitVec.ofNat 16 (pairIdx 7)) 0x23
    let b : Block := { transfer false (List.replicate 32 0) with acked := 0, sent := 1, out := [[]] }
    (transfers b).Hears h 9 (numOcts 0 2 ++ segOctets []) (openOf h) (transfers b) ∧ (transfers b).blockOf (openOf h) h = some b ∧
      b.acked + ((0 : BitVec 16) + 1 - BitVec.ofNat 16 b.acked).toNat ≤ b.sent ∧ b.sent < b.acked + ((1 : BitVec 16) + 1 - BitVec.ofNat 16 b.acked).toNat :=
  ⟨hears_of 9 (by decide +kernel), by decide +kernel, by decide, by decide⟩
theorem test_meets_Transfers_end :
    let h := asks (BitVec.ofNat 16 (pairIdx 7)) 0x23
    let b := transfer true (List.replicate 32 0)
    (transfers b).Hears h 0x0A (numOcts (crcShow b.crc).toNat 4) (openOf h) (transfers b) ∧ (transfers b).blockOf (openOf h) h = some b ∧ b.len ≤ b.words.length ∧
      (transfers b).Ahead (8000 + secT 1) ∧ b.key ≠ imageKey :=
  ⟨hears_of 0x0A (by decide +kernel), by decide +kernel, by decide, ⟨by decide +kernel, by decide +kernel⟩, by decide⟩
theorem test_meets_Transfers_open :
    let h := asks 0 0
    let u := keyed false
    u.Hears h 0x0B [31] (openOf h) u ∧ (bget u.upd.keys 31).isSome = true ∧ bget u.srv.sess 0 = none ∧ (bget u.srv.sess 7).isSome = true ∧
      (bget u.srv.sess 7).map (·.proven) = some false :=
  ⟨hears_of 0x0B (by decide +kernel), by decide, by decide, by decide, by decide⟩
theorem test_meets_Transfers_proof :
    let h := signed (asks 0 0) 0x0C [] 5
    let tr : Trailer := h.trailer.getD { sid := 0, fresh := 0, mac := 0 }
    let x : Session := { proven := false, slot := 31, chal := 5, peer := openOf (asks 0 0), rx := 5, tx := 5, opened := 8000, lastUse := 8000, fails := 15 }
    bget (keyed false).srv.sess 7 = some x ∧ h.trailer = some tr ∧ tr.sid.toNat = (7 : Fin 8).val + 1 ∧ tr.fresh = x.chal ∧ (keyed false).macOk x tr h 0x0C [] = true ∧
      (keyed false).zopMedium h = true := by decide +kernel
theorem test_meets_Transfers_timeouts :
    (bget (keyed false).srv.sess 7).map (fun x => (x.proven, x.opened)) = some (false, 8000) ∧ (keyed false).Ahead (8000 + secT 1) ∧
      (bget (keyed true).srv.sess 7).map (fun x => (x.proven, x.lastUse)) = some (true, 8000) ∧ (keyed true).Ahead (8000 + secT ((keyed true).cfg profIdx 5)) :=
  ⟨by decide +kernel, ⟨by decide +kernel, by decide +kernel⟩, by decide +kernel, ⟨by decide +kernel, by decide +kernel⟩⟩

/-- The row of a member. -/
def rowOf (f : Fam) (sub : Nat) : ObjRow := (findRow f sub).getD ⟨0, .u8, 0, .ro, .one 0, .none, .volatile, false, false, .any⟩

theorem test_meets_Writes :
    let s := State.reset
    let b (r : Requester) : BundleOwn := { index := hsIdx 71, owner := r, since := 8000, phase := .staging }
    let owned (r : Requester) := State.reset.onSrv fun v => { v with bundles := [b r] }
    s.srvFree byPair = true ∧ s.fwAsked byPair (hsIdx 71) 7 = none ∧ isFw (hsIdx 71) = false ∧
      s.checkWrite byPair (hsIdx 71) 7 [65535] = .inl (.hs, 71, rowOf .hs 7) ∧ (rowOf .hs 7).apply = .cmt ∧ (rowOf .hs 7).prot = false ∧
      (∀ b ∈ s.srv.bundles, b.index ≠ hsIdx 71) ∧ (owned byPair).srv.bundles = [b byPair] ∧ (owned .debug).srv.bundles = [b .debug] ∧
      (owned byPair).checkWrite byPair (hsIdx 71) 7 [65535] = .inl (.hs, 71, rowOf .hs 7) ∧ .debug ≠ byPair := by decide +kernel
theorem test_meets_Writes_points :
    let s := State.reset
    let held := s.onRst fun r => { r with blocks := [{ blk := 0x40, since := 8000, lock := false }] }
    s.checkWrite byPair 0x1010 5 [3600] = .inl (.prof, 0, rowOf .prof 5) ∧ (rowOf .prof 5).apply = .cyc ∧
      s.checkWrite byPair matrixIdx 0x0C [255] = .inl (.matrix, 0, rowOf .matrix 0x0C) ∧ (rowOf .matrix 0x0C).apply = .per ∧
      s.checkWrite byPair (inIdx 63) 0x0A [0] = .inl (.sw, 63, rowOf .sw 0x0A) ∧ (rowOf .sw 0x0A).apply = .imm ∧ (rowOf .sw 0x0A).sub = 0x0A ∧
      s.reaches .sw 63 = true ∧ s.writeEffect byPair .sw 63 0x0A [0] = none ∧ s.obj (inIdx 63) 0x0A ≠ [0] ∧ held.reaches .sink 23 = false ∧
      (s.checkWrite byPair 0x1000 1 [1]).isRight = true := by decide +kernel
theorem test_meets_Writes_busy :
    let a : HeldAcc := { by_ := byPair, hdr := none, index := hsIdx 71, sub := 2, value := some [0] }
    let s (n : Nat) := State.reset.onSrv fun v => { v with queue := List.replicate n (.acc a) }
    (s 16).srvBusy = true ∧ (s 15).srvBusy = false ∧ (s 15).srvFree byPair = false := by decide +kernel
theorem test_meets_Writes_handler :
    let q (w : Bool) : FwReq := { by_ := .debug, hdr := none, write := w, key := okey 0x4FFF 1, value := [], since := 8320 }
    let s (w : Bool) := State.reset.onSrv fun v => { v with fw := [q w] }
    (s true).fwAsked byPair 0x4FFF 1 = some (q true) ∧ (s false).fwAsked byPair 0x4FFF 1 = some (q false) ∧
      (s true).now ≤ 8320 + msT 1 ∧ 8320 + msT 1 < 2 ^ 72 := by decide +kernel
theorem test_meets_Writes_commit :
    let s := State.reset.onSrv fun v => { v with insts := bmod v.insts 0 fun x => { x with clist := bset x.clist 7 0x2047 } }
    let busy := s.onSrv fun v => { v with bundles := [{ index := 0x2047, owner := .debug, since := 8000, phase := .staging }] }
    instOf byPair = some 0 ∧ s.clist byPair = [0x2047] ∧ State.reset.clist byPair = [] ∧ s.bundleBusy byPair 0x2047 = false ∧ s.srvFree byPair = true ∧
      (s.writeCheck byPair 0x10F0 0x10 [1]).isLeft = true ∧ (s.writeCheck byPair 0x10F0 0x10 [2]).isLeft = true ∧ busy.bundleBusy byPair 0x2047 = true := by
  decide +kernel
theorem test_meets_Writes_check :
    let c : Commit := { owner := byPair, indices := [hsIdx 71], started := 8320, hdr := none, checked := false, strobed := false }
    let s (v : Word) := State.reset.onSrv fun x => { x with commits := [c], staged := [(okey (hsIdx 71) 8, [v]), (okey (hsIdx 71) 9, [v])] }
    ((s 499).checkCommit c.indices).1 = [] ∧ ((s 500).checkCommit c.indices).1 = [hsIdx 71] := by decide +kernel
theorem test_meets_Writes_staging :
    let b : BundleOwn := { index := hsIdx 71, owner := byPair, since := 8000, phase := .staging }
    let s := State.reset.onSrv fun v => { v with bundles := [b], dirty := some 8000, storing := true }
    s.Ahead (b.since + msT (s.cfg 0x10F0 0x14)) ∧ s.srv.dirty = some 8000 ∧ s.Ahead (8000 + secT 2) ∧ s.srv.storing = true ∧ s.pwr.storing = false ∧
      State.reset.Takes byPair profIdx 3 [1] :=
  ⟨⟨by decide +kernel, by decide +kernel⟩, rfl, ⟨by decide +kernel, by decide +kernel⟩, rfl, rfl, takes_of (by decide +kernel)⟩


/-! Media (R374 to R423) -/

/-- The state after reset with some members of an object set. -/
def withObj (idx : Nat) (l : List (Nat × Val)) : State := l.foldl (fun s e => s.setObj idx e.1 e.2) State.reset

/-- A standard frame with identifier 0x123 and no data. -/
def frame123 (fdf : Bool) : CanFrame := { ide := false, fdf := fdf, brs := false, esi := false, rtr := false, id := 0x123, dlc := 0, data := [] }

/-- Channel 7 runs in MODE m with FDMODE fd; buffer 65 takes frames of its filter, buffer 0 is in use for transmission. -/
def can7 (m fd : Word) (f : CanCh → CanCh) : State :=
  (withObj (canIdx 7) [(1, [m]), (3, [fd]), (6, [0xC00000000] ++ List.replicate 64 0 ++ [0x800000000]), (9, [0x800000123, 0x1FFFFFFF])]).onCan 7 fun c =>
    f { c with ready := true }

theorem test_meets_CanChannels :
    let s := can7 1 1 id
    s.canLive 7 = true ∧ s.canFd 7 = 1 ∧ s.abdRuns 7 = false ∧ (s.can 7).recnt ≤ 127 ∧ s.canRoute 7 (frame123 true) = .buffer 65 0x7F ∧ s.bufRx 7 65 = true ∧
      s.flowOf (canEp 7 65) = none ∧ (s.can 7).new.getLsbD 65 = false ∧ s.canRoute 7 { frame123 false with id := 0x124 } = .nowhere ∧
      (can7 1 1 fun c => { c with new := 2 ^ 65 }).canRoute 7 (frame123 true) = .buffer 65 0x7F ∧ (can7 1 0 id).canFd 7 = 0 ∧ (can7 1 2 id).canFd 7 = 2 := by
  decide +kernel
theorem test_meets_CanChannels_zop :
    let s := withObj (canIdx 0) [(1, [1]), (0x0D, [0x800000123])]
    s.canRoute 0 (frame123 true) = .zop ∧ (s.zopRx 0).getLsbD 35 = true := by decide +kernel
theorem test_meets_CanChannels_request :
    let m : CtlBits := { hi := true, bits := 0x20000000 }
    let s (bus : Option (Fin 66)) := can7 1 1 fun c => { c with req := 2 ^ 65, bus := bus }
    reachesMem byPair = true ∧ (s none).up 5 = true ∧ (s none).pwr.mode ≠ .entering ∧
      (∀ j : Fin 66, (if m.hi then 36 ≤ j.val ∧ m.bits.getLsbD (j.val - 36) = true else j.val < 36 ∧ m.bits.getLsbD j.val = true) ↔ j = 65) ∧
      (s none).can 7 ≠ { (s none).can 7 with req := 0 } ∧ ((s none).can 7).req.getLsbD 65 = true ∧ ((s (some 65)).can 7).bus = some 65 := by decide +kernel
theorem test_meets_CanChannels_attempt :
    let s := can7 1 1 fun c => { c with req := 1 }
    s.canLive 7 = true ∧ s.canMode 7 = 1 ∧ (s.can 7).bus = none ∧ (s.can 7).zbus = false ∧ (s.can 7).req.getLsbD 0 = true ∧ s.bufTx 7 0 = true ∧
      s.zopDue 7 = none ∧ (∀ j : Fin 66, j ≠ 0 → (s.can 7).req.getLsbD j.val = false) := by decide +kernel
theorem test_meets_CanChannels_message :
    let s := (withObj (canIdx 0) [(1, [1]), (0x0E, [0x800000123])]).onCan 0 fun c => { c with ready := true, zopq := [[1]] }
    (s.zopDue 0).isSome = true ∧ (s.can 0).req = 0 ∧ s.canLive 0 = true := by decide +kernel
theorem test_meets_CanChannels_ends :
    let s (n : Nat) (a : Bool) := can7 1 1 fun c => { c with bus := some 0, abort := a, att := bset c.att 0 n }
    ((s 0 false).can 7).bus = some 0 ∧ (s 0 false).srv.commits = [] ∧ bget ((s 0 false).can 7).att 0 ≤ fld ((s 0 false).bufcfg 7 0) 30 26 ∧
      fld ((s 1 false).bufcfg 7 0) 30 26 < bget ((s 1 false).can 7).att 0 ∧ fld ((s 1 false).bufcfg 7 0) 30 26 ≠ 16 ∧ ((s 1 true).can 7).abort = true ∧
      ((can7 1 1 fun c => { c with zbus := true }).can 7).bus = none := by decide +kernel
theorem test_meets_CanChannels_errors :
    let s (n : Nat) := can7 1 1 fun c => { c with tecnt := n, abort := true, bus := some 0 }
    (s 247).canLive 7 = true ∧ (s 247).abdRuns 7 = false ∧ ((s 247).can 7).tecnt + 8 < 256 ∧ 256 ≤ ((s 248).can 7).tecnt + 8 ∧ ((s 248).can 7).bus = some 0 := by
  decide +kernel
theorem test_meets_CanChannels_off :
    let s (r : Bool) := can7 1 1 fun c => { c with busoff := true, recov := r }
    (s false).Takes byPair (canIdx 7) 0x0C [1] ∧ ((s false).can 7).busoff = true ∧ ((s false).can 7).recov = false ∧ (s true).up 5 = true ∧
      ((s true).can 7).recov = true ∧ (s true).canMode 7 ≠ 0 := by
  refine ⟨takes_of ?_, rfl, rfl, rfl, rfl, ?_⟩ <;> decide +kernel
theorem test_meets_CanChannels_detect :
    let s := (withObj (canIdx 7) [(1, [3]), (0x13, [8, 0] ++ List.replicate 12 0 ++ [8, 0])]).onCan 7 fun c => { c with cand := 7, candAt := 8000 }
    s.up 5 = true ∧ s.abdRuns 7 = true ∧ (s.can 7).cand < 8 ∧ ((s.obj (canIdx 7) 0x13).getD 0 0).getLsbD 3 = true ∧
      s.now ≤ 8000 + msT (s.cfg (canIdx 7) 0x15) := by decide +kernel

/-- LIN channel 7 runs table 0: entries 0 and 63 send identifier 5, a subscribed one; entry 63 is followed by entry 0. -/
def lin7 (f : LinCh → LinCh) : State :=
  (withObj (linIdx 7) [(1, [1]), (3, [0x80A014000] ++ List.replicate 62 0 ++ [0x80A014000]), (4, List.replicate 5 0 ++ [0x800000000 + 2 ^ 29])]).onLin 7 fun c =>
    f { c with table := some 0, entry := some 63, slotEnd := some 9000 }

theorem test_meets_LinChannels :
    let s := lin7 id
    s.Ahead 9000 ∧ s.up 5 = true ∧ (s.pwr.mode ≠ .entering ∧ s.sup.shed.getLsbD 1 = false ∧ s.libRuns 13 = true ∧ s.cfg (linIdx 7) 1 = 1) ∧
      (s.lin 7).slotEnd = some 9000 ∧ (s.lin 7).next = none ∧ (s.lin 7).due = none ∧ (s.lin 7).cres = none ∧ (s.lin 7).table = some 0 ∧
      (s.lin 7).entry = some 63 ∧ schedIn (s.sched 7 0) 0 = true ∧ (∀ k : Fin 64, 63 < k → schedIn (s.sched 7 k.val) 0 = false) ∧
      (s.linFrame 7 5).getLsbD 35 = true := by unfold State.Ahead; decide +kernel
theorem test_meets_LinChannels_collision :
    let s := lin7 fun c => { c with due := some 0 }
    let u := lin7 fun c => { c with cres := some 1, back := 63 }
    (s.lin 7).due = some 0 ∧ schedIn (s.sched 7 0) 0 = true ∧ (u.lin 7).cres = some 1 ∧ (∀ k : Fin 64, 63 < k → schedIn (u.sched 7 k.val) 1 = false) ∧
      (u.lin 7).back ≤ 63 ∧ schedIn (u.sched 7 63) 0 = true ∧ (∀ k : Fin 64, 63 ≤ k.val → k < 63 → schedIn (u.sched 7 k.val) 0 = false) := by decide +kernel
theorem test_meets_LinChannels_stop : ((lin7 fun c => { c with next := some 0xFF }).lin 7).next = some 0xFF := by decide +kernel
theorem test_meets_LinChannels_response :
    let w (x : Bool) : LinSlot := { fid := 5, etrig := x, start := 8000 }
    let s (x : Bool) := lin7 fun c => { c with wait := some (w x) }
    ((s false).lin 7).wait = some (w false) ∧ (s false).linPub 7 5 = false ∧ (s false).flowOf (linBlk 7 * 256 + 5) = none ∧ ([1] : List Byte).length = (s false).linLen 7 5 ∧
      (s false).now ≤ 8000 + linTicks ((s false).cfg (linIdx 7) 2) ((s false).linLen 7 5) ∧ ((s true).lin 7).entry = some 63 ∧
      ((s false).setObj (linIdx 7) 4 (List.replicate 5 0 ++ [0xC00000000])).linPub 7 5 = true := by decide +kernel
theorem test_meets_LinChannels_object :
    (lin7 id).Takes byPair (linIdx 7) 5 [wd 0xFF] ∧ ((lin7 fun c => { c with slotEnd := none }).lin 7).slotEnd = none ∧ ((lin7 id).lin 7).slotEnd.isSome = true :=
  ⟨takes_of (by decide +kernel), rfl, rfl⟩

/-- Port 4, a T1S segment, is on; VLAN 1, untagged frames and all, has every port. -/
def eth4 (f : EthPort → EthPort) : State := (withObj ethIdx [(2, [4])]).onPort 4 f

/-- A frame of 60 octets, 64 with its FCS, to address 0x0A0A. -/
def octets60 (ok : Bool) (type : BitVec 16) (n : Nat) : EthFrame :=
  { dst := 0x0A0A, src := 0x0B0B, tagged := false, pcp := 0, vid := 0, etype := type, octets := List.replicate n 0, fcsOk := ok }

theorem test_meets_EthernetSwitch :
    let s := eth4 id
    let f := octets60 true 0x800 60
    let m := ((vlanOf s.obj (ethVlan f)).map Prod.fst).getD 0
    s.portUp 4 = true ∧ (s.eport 4).occ = none ∧ ((eth4 fun u => { u with occ := some 8000 }).eport 4).occ.isSome = true ∧ f.octets.length + 4 = 64 ∧
      (octets60 true 0x800 1518).octets.length + 4 = 1522 ∧ (octets60 true 0x800 59).octets.length + 4 < 64 ∧ (vlanOf s.obj (ethVlan f)).map Prod.fst = some m ∧
      m.getLsbD 4 = true ∧ s.rxStream 4 f = none := by decide +kernel
theorem test_meets_EthernetSwitch_host :
    let s := (eth4 id).setObj ethIdx 7 ([0x840000000 + 2 ^ 18, 0x0A0A] ++ List.replicate 254 0)
    let f := octets60 true 0x800 60
    s.ethRoute f.dst (ethVlan f) (((vlanOf s.obj (ethVlan f)).map Prod.fst).getD 0) 4 = 1 ∧ rxPlace s.eth.hrxw s.eth.hrxr 17 = some (0, false) ∧ rxPlace 5 6 17 = none := by
  decide +kernel
theorem test_meets_EthernetSwitch_store :
    let s := ((eth4 id).setObj ethIdx 2 [5]).setObj ethIdx 7 ([0x800000000 + 8 * 2 ^ 30 + 2 ^ 18, 0x0A0A] ++ List.replicate 254 0)
    let f := octets60 true 0x800 60
    let out := s.ethRoute f.dst (ethVlan f) (((vlanOf s.obj (ethVlan f)).map Prod.fst).getD 0) 4
    out.getLsbD 0 = false ∧ (8 : BitVec 5) ≠ 0 ∧ (∀ q : Fin 5, (8 : BitVec 5).getLsbD q.val = true ↔ q ≠ 0 ∧ out.getLsbD q.val = true ∧ s.portUp q = true) ∧
      storeUsed s.eth.store + 15 ≤ 24576 := by decide +kernel
theorem test_meets_EthernetSwitch_full :
    let x : EthHeld := { frame := octets60 true 0x800 1518, ingress := 4, ports := 8, cls := 0 }
    let y : EthHeld := { x with cls := 7 }
    let l := List.replicate 63 y
    24576 < storeUsed (x :: l) + 380 ∧ storeUsed l + 380 ≤ 24576 ∧ (∀ z ∈ List.replicate 64 x, z.cls.val < 4) ∧ 4 ≤ y.cls.val := by decide +kernel
theorem test_meets_EthernetSwitch_send :
    let h : EthHeld := { frame := octets60 true 0x800 60, ingress := 0, ports := 16, cls := 7 }
    let s := (eth4 id).onEth fun e => { e with store := [h] }
    s.portUp 4 = true ∧ s.Ahead (Nat.max s.now (s.eport 4).busy) ∧ s.ethWaits 4 7 = true ∧ (∀ j : Fin 8, 7 < j → s.ethWaits 4 j = false) ∧
      h.ports.getLsbD 4 = true ∧ (∀ k, (eth4 id).ethWaits 4 k = false) := by unfold State.Ahead; decide +kernel
/-- The words of a frame of 60 octets, all 0. -/
def body60 : List Word := packFrame (List.replicate 60 0)

theorem test_meets_EthernetSwitch_kick :
    reachesMem byPair = true ∧ 8160 < 8176 ∧ fld (wd (2 ^ 35 + 60)) 10 0 = 60 ∧ body60.length = 15 ∧ body60.all flagsOk = true ∧
      8160 + 1 + 15 = 8176 ∧ fld (wd (2 ^ 35 + 60)) 35 31 = 16 := by decide +kernel
theorem test_meets_EthernetSwitch_kick_frame : ethSizeOk (ethParse ((plainOcts body60).take 60)) = true := by decide +kernel
theorem test_meets_EthernetSwitch_kick_memory :
    let s := (eth4 id).onMem fun m => memWriteN (memWrite m 0x867FE0 (wd (2 ^ 35 + 60))) 0x867FE1 body60
    memRead s.mem 0x867FE0 = wd (2 ^ 35 + 60) ∧ memReadN s.mem 0x867FE1 15 = body60 := by decide +kernel
theorem test_meets_EthernetSwitch_rest :
    let s := ((withObj ethIdx [(1, [5]), (2, [5]), (4, [0x200820000])]).onPort 4 fun u => { u with plca := true }).onEth fun e => { e with learnt := [{ mac := 5, vid := 1, port := 4, last := 8000 }], rates := [{ contract := 255, port := 1, speed := 3, missing := false }] }
    s.Ahead (8000 + secT 300) ∧ xgPort 1 = 2 ∧ portMode s.obj 2 ≠ 0 ∧ t1sPort 1 = 4 ∧ s.portRuns 4 = 1 ∧ (s.eport 4).plca = true ∧ fld (plcaWord s.obj 1) 35 28 ≠ 0 ∧
      (s.eport 4).jab = false ∧ ((s.onCt 255 fun c => { c with inForce := true }).ct 255).inForce = true := by unfold State.Ahead; decide +kernel

/-- XG port 1 runs with its link up; TSRC and PTPCFG are t and c. -/
def ptp (t c : Word) (f : EthPort → EthPort) : State :=
  (withObj ethIdx [(1, [5]), (0x0C, [t]), (0x0D, [c])]).onPort 2 fun u => f { u with link := true, speed := 3 }

theorem test_meets_TimeSynchronisation :
    let s := ptp 1 0x1A id
    s.up 5 = true ∧ ptpSlave s.obj = 2 ∧ s.portUp 2 = true ∧ s.tsrc = 1 ∧ (ptp 0 0x1A id).tsrc ≠ 1 ∧ s.time.src ≠ 3 ∧ s.isActive = false ∧
      7 ≤ (s.onEth fun e => { e with good := 7 }).eth.good := by decide +kernel
theorem test_meets_TimeSynchronisation_send :
    let s := ptp 1 0x18 fun u => { u with synced := some 8000, pdAt := some 8000 }
    s.portUp 2 = true ∧ ptpSlave s.obj = 0 ∧ (s.eport 2).synced = some 8000 ∧ s.Ahead (8000 + 100000000 / 2 ^ (s.cfg ethIdx 0x0D / 8 % 8)) ∧
      (s.eport 2).pdAt = some 8000 ∧ s.Ahead (8000 + secT 1) ∧ ((ptp 1 0x18 id).eport 2).synced = none ∧ ((ptp 1 0x18 id).eport 2).pdAt = none := by
  unfold State.Ahead; decide +kernel
theorem test_meets_TimeSynchronisation_relay :
    (((ptp 1 0x1D id).cfg ethIdx 0x0D).testBit 2) = true ∧ ptpSlave (ptp 1 0x1D id).obj ≠ (1 : Fin 2).val + 1 := by decide +kernel
theorem test_meets_TimeSynchronisation_timeout :
    let s := (ptp 1 0x1A id).onEth fun e => { e with syncAt := some 8000 }
    s.eth.syncAt = some 8000 ∧ s.Ahead (8000 + 3 * (100000000 / 2 ^ (s.cfg ethIdx 0x0D / 8 % 8))) := by unfold State.Ahead; decide +kernel

/-- The node is node 7 of the ring. -/
def ring7 (f : Ring → Ring) : State :=
  ((withObj ringIdx [(1, [1]), (5, List.replicate 15 0 ++ [0x880000000])]).onRing fun r => f { r with byp := false }).onDuo fun d => { d with casc := 7 }

theorem test_meets_RewellRing_timer :
    let s := ring7 fun r => { r with timer := true, lastCyc := 0 }
    let u := ring7 fun r => { r with timer := true, opened := some 8000, back := some 8100 }
    s.onTheRing = true ∧ s.ring.timer = true ∧ 10000 % 10000 = 0 ∧ s.ring.lastCyc < 10000 ∧ s.Ahead 10000 ∧ u.ring.join = false ∧ u.ring.opened = some 8000 ∧
      u.ring.back = some 8100 ∧ u.now - 8100 ≤ 4 * u.ring.train + 60 ∧ u.Ahead (8000 + 10000) := by unfold State.Ahead; decide +kernel
theorem test_meets_RewellRing_back :
    let u (b : Nat) := ring7 fun r => { r with timer := true, opened := some 8000, back := some b }
    (u 8160).now - 8160 ≤ 4 * (u 8160).ring.train ∧ 4 * (u 8159).ring.train < (u 8159).now - 8159 := by decide +kernel
theorem test_meets_RewellRing_join :
    let s (n : Nat) (d : Bool) := (ring7 fun r => { r with byp := true, join := true, heard := n }).onDuo fun x => { x with dup := d }
    (s 16 false).up 5 = true ∧ (s 16 false).ringOn = true ∧ (s 16 false).ring.join = true ∧ 16 ≤ (s 16 false).ring.heard ∧ (s 15 false).ring.heard < 16 ∧
      (s 16 true).duo.dup = true ∧ (128 : Byte).getLsbD 7 = true := by decide +kernel
theorem test_meets_RewellRing_follow :
    let s := (ring7 fun r => { r with missed := 0, lastCyc := 8000, viol := some 8000 }).setObj ethIdx 0x0C [2]
    s.onTheRing = true ∧ s.ring.timer = false ∧ s.ring.join = false ∧ s.tsrc = 2 ∧ (ring7 id).tsrc ≠ 2 ∧ s.Ahead (8000 + 400) ∧ s.Ahead (8000 + 30000) ∧
      (ring7 fun r => { r with missed := 3, lastCyc := 8000 }).ring.missed ≠ 0 := by unfold State.Ahead; decide +kernel
theorem test_meets_RewellRing_frame :
    let s := ring7 id
    let w := chanWord s.obj 15
    s.duo.casc = 7 ∧ (0 : Fin 8) ≠ s.duo.casc ∧ w.getLsbD 35 = true ∧ w.getLsbD 34 = false ∧ fld w 33 31 = 1 ∧ s.flowOf (0x5D00 + 15) = none := by decide +kernel
theorem test_meets_RewellRing_response :
    let h : ZopHdr := { asks 0x1000 1 with node := 3 }
    let x : FwdReq := { by_ := openOf h, hdr := h, svc := 1 }
    let s := (ring7 id).onSrv fun v => { v with fwd := [x] }
    let ws := packFrame (zopHead 1 0x80 3 7 0x1000 1 2 ++ [0x96, 0x48])
    let o (i : Nat) : Byte := (unpackFrame ws).1.getD i 0
    s.up 2 = true ∧ (o 0).toNat / 64 = 1 ∧ (o 1).msb = true ∧ (o 1).getLsbD 6 = false ∧ x ∈ s.srv.fwd ∧ x.hdr.node.toNat = 3 ∧ x.svc = (o 0).toNat % 64 ∧
      x.hdr.rqid = o 3 ∧ x.hdr.index = o 4 ++ o 5 ∧ x.hdr.sub = o 6 := by decide +kernel
theorem test_meets_RewellRing_take :
    let s := (ring7 fun r => { r with lastCyc := 0 }).setObj 0x1600 7 [1]
    s.ring.timer = false ∧ s.duo.dup = false ∧ s.ring.byp = false ∧ s.cfgB 0x1600 7 = true ∧ s.Ahead (s.ring.lastCyc + (3 + 4 * 7) * 10000) ∧
      (s.ring.lastCyc + (3 + 4 * 7) * 10000) % 10000 = 0 := by unfold State.Ahead; decide +kernel


/-! Power and access (R424 to R461) -/

/-- The device runs, or is in mode m, with both pairs in WAIT; p says the rest. -/
def mode (m : PowerMode) (l : List (Nat × Val)) (f : Power → Power) : State :=
  ({ withObj pwrIdx l with cores := Vector.ofFn fun q => { Core.reset q with run := .waiting, since := 8320 } } : State).onPwr fun p => f { p with mode := m }

theorem test_meets_PowerStates :
    let s := mode .run [(3, [1])] id
    State.reset.Takes byPair pwrIdx 1 [0] ∧ State.reset.Takes byPair pwrIdx 1 [1] ∧ State.reset.Takes byPair pwrIdx 1 [2] ∧ s.up 6 = true ∧
      s.cfgB pwrIdx 3 = true ∧ (∀ q : Fin 2, (bget s.cores q).run = .waiting) ∧ (mode .run [(3, [0])] id).cfgB pwrIdx 3 = false :=
  ⟨takes_of (by decide +kernel), takes_of (by decide +kernel), takes_of (by decide +kernel), by decide +kernel⟩
theorem test_meets_PowerStates_start :
    let s := mode .run [(5, [0])] fun p => { p with req := 1 }
    s.sup.crank = false ∧ s.cfgB pwrIdx 0x10 = false ∧ s.pwr.req ≠ 0 ∧ s.Ahead 100000 ∧ 100000 % 100000 = 0 ∧ 100000 < s.now + 100000 ∧
      s.cfgB pwrIdx 5 = false ∧ s.loadInWay = none ∧ s.dbgAttached = false := by unfold State.Ahead; decide +kernel
theorem test_meets_PowerStates_start_refused :
    let s := mode .run [(5, [0])] fun p => { p with req := 1 }
    let net := mode .run [(0x10, [1])] fun p => { p with due := true }
    (s.onDbg fun d => { d with level := 2 }).dbgAttached = true ∧ (s.onHs 0 fun h => { h with act := .on, out := true }).loadInWay = some 0x30 ∧
      net.cfgB pwrIdx 0x10 = true ∧ net.pwr.due = true ∧ ((s.onCt 255 fun c => { c with inForce := true }).ct 255).inForce = true := by decide +kernel
theorem test_meets_PowerStates_start_forced :
    let s := mode .run [(5, [1])] fun p => { p with req := 1 }
    s.cfgB pwrIdx 5 = true ∧ (mode .idle [] id).pwr.req = 0 ∧ ∀ b, (bget s.vb b).queue = [] := by decide +kernel
/-- An entry whose drain is over. -/
def entering : State := (mode .entering [] id).onTime fun t => { t with time := 100100 }

theorem undrained_onPwr (s : State) (f : Power → Power) : (s.onPwr f).undrained = s.undrained := rfl
theorem test_meets_PowerStates_drained : entering.undrained = none := by decide +kernel
theorem test_meets_PowerStates_complete :
    let w : Wake := { src := 7, num := 1, stamp := 100100, replay := false, multi := false }
    (entering.onPwr fun p => { p with latched := some w }).undrained = none ∧ entering.loadInWay = none ∧ entering.srv.storing = false ∧
      entering.srv.dirty = none ∧ entering.dbgAttached = false ∧ entering.pwr.latched = none ∧ entering.pwr.mode = .entering := by
  exact ⟨(undrained_onPwr _ _).trans test_meets_PowerStates_drained, by decide +kernel, rfl, rfl, rfl, rfl, rfl⟩
theorem test_meets_PowerStates_dirty :
    let s := entering.onSrv fun v => { v with dirty := some 8000 }
    s.undrained = entering.undrained ∧ s.srv.dirty.isSome = true ∧ (entering.onDbg fun d => { d with level := 2 }).undrained = entering.undrained ∧
      (entering.onDbg fun d => { d with level := 2 }).dbgAttached = true := ⟨rfl, rfl, rfl, rfl⟩
theorem test_meets_PowerStates_drain :
    let s := entering.onPwr fun p => { p with start := 100000 }
    let busy := s.onSrv fun v => { v with queue := ldoWaits.srv.queue }
    s.Ahead (100000 + msT (s.cfg pwrIdx 4)) ∧ s.undrained = entering.undrained ∧ (s.onSrv fun v => { v with storing := true }).srv.storing = true ∧
      busy.undrained = some 9 ∧ s.loadInWay = none :=
  ⟨⟨by decide +kernel, by decide +kernel⟩, rfl, rfl, by decide +kernel, by decide +kernel⟩
theorem test_meets_PowerStates_wakes :
    let w (m : PowerMode) (idx sub : Nat) (v : Val) := (mode m [] fun p => { p with deep := m == .deep }).setObj idx sub v
    let o : Wake := { src := 7, num := 1, stamp := 8320, replay := false, multi := false }
    let s := (w .entering 0x233F 8 [2]).onPwr fun p => { p with latched := some o }
    let u := (w .returning 0x233F 8 [2]).onPwr fun p => { p with wake := some o }
    (w .deep 0x233F 8 [2]).cfg (0x2300 + 63) 8 % 4 = 2 ∧ (w .deep 0x3007 0x10 [2]).cfg (0x3000 + 7) 0x10 % 4 = 2 ∧ (w .deep 0x3007 0x10 [2]).pwr.deep = true ∧
      (w .park 0x3007 0x10 [5]).cfg (0x3000 + 7) 0x10 % 4 ≠ 0 ∧ ((w .park 0x3007 0x10 [5]).cfg (0x3000 + 7) 0x10).testBit 2 = true ∧
      ((w .park 0x3107 6 [1]).cfg (0x3100 + 7) 6).testBit 0 = true ∧ ((w .park pwrIdx 0x0C [2]).cfg pwrIdx 0x0C).testBit 1 = true ∧
      (w .park 0x3300 6 [1]).cfgB 0x3300 6 = true ∧ ((w .park 0x2900 2 [2]).cfg 0x2900 2).testBit 1 = true ∧ (w .park 0x2900 2 [2]).acs.lockEnd = none ∧
      ((w .park 1 1 [0]).onPwr fun p => { p with wtimer := 1 }).pwr.wtimer ≠ 0 ∧ State.reset.pwr.mode = .run ∧ s.pwr.latched = some o ∧
      o.stamp = s.stamp ∧ (1 : Byte) < o.src ∧ u.pwr.wake = some o := by decide +kernel
theorem test_meets_PowerStates_timer :
    let s := mode .park [] fun p => { p with start := 8000, wtimer := 1 }
    s.pwr.wtimer ≠ 0 ∧ s.Ahead (s.pwr.start + secT s.pwr.wtimer) := by unfold State.Ahead; decide +kernel
theorem test_meets_PowerStates_poll :
    let s (agree : Nat) := ((mode .park [] fun p => { p with deep := false }).setObj 0x233F 8 [1 + 0x40]).onIn 63 fun u => { u with entry := .open_, poll := some .active, agree := agree }
    let c := (s 1).inClass 63 0
    (s 1).pwr.deep = ((s 1).pwr.mode == .deep) ∧ (s 1).cfg (0x2300 + 63) 8 % 4 = 1 ∧ 63000 % 5000000 = 63 * 1000 ∧ (s 1).Ahead 63000 ∧ 63000 < (s 1).now + 5000000 ∧
      c = .active ∧ c ≠ (bget (s 1).inputs 63).entry ∧ (s 1).cfg (0x2300 + 63) 9 ≤ 1 + 1 ∧ ((s 1).cfg (0x2300 + 63) 8).testBit 6 = true := by
  unfold State.Ahead; decide +kernel
theorem test_meets_PowerStates_wuf :
    let s (n : Nat) := ((((mode .park [] fun p => { p with deep := false }).setObj 0x3007 0x10 [5]).setObj 0x3007 0x11 [0x800000123, 0x7FF])).onCan 7 fun c =>
      { c with decode := some 8000, wufErr := n }
    let w := (s 30).cfg (0x3000 + 7) 0x10
    let id := ((s 30).obj (0x3000 + 7) 0x11).getD 0 0
    let mask := fld (((s 30).obj (0x3000 + 7) 0x11).getD 1 0) 28 0
    let data := (((s 30).obj (0x3000 + 7) 0x12).getD 0 0).toNat * 2 ^ 36 + (((s 30).obj (0x3000 + 7) 0x12).getD 1 0).toNat
    (s 30).pwr.deep = ((s 30).pwr.mode == .deep) ∧ (s 30).cfg (0x3000 + 7) 2 = 0 ∧ w % 4 ≠ 0 ∧ w.testBit 2 = true ∧ ((s 30).can 7).wufErr < 31 ∧ 31 ≤ ((s 31).can 7).wufErr ∧
      (frame123 false).ide = id.getLsbD 32 ∧ (frame123 false).id.toNat &&& mask = fld id 28 0 &&& mask ∧ (frame123 false).dlc.toNat = data / 2 ^ 68 ∧ data % 2 ^ 64 = 0 ∧
      ¬({ frame123 false with id := 0x124 }.id.toNat &&& mask = fld id 28 0 &&& mask) ∧ (s 30).Ahead (8000 + secT 1) := by unfold State.Ahead; decide +kernel

/-- Node 1 of two, the sleep master; node 7 is on Ethernet, and privileged or not. -/
def sleeps (privileged : Bool) (master : Word) (m : PowerMode) (f : Power → Power) : State :=
  mode m [(0x10, [1]), (0x12, [master]), (0x13, [0x808000000, wd (2 ^ 35 + 7 * 2 ^ 27 + 2 ^ 25 + if privileged then 2 ^ 21 else 0)] ++ List.replicate 22 0)] f

/-- The other node of the list. -/
def node7 : Node := { num := 7, med := 1, ch := 0, priv := false }

theorem test_meets_NetworkSleep :
    let s := sleeps false 1 .run fun p => { p with req := 2 }
    s.cfgB pwrIdx 0x12 = true ∧ s.cfgB pwrIdx 0x10 = true ∧ s.sup.crank = false ∧ s.pwr.req ≠ 0 ∧ s.pwr.round = none ∧ s.pwr.commit = none ∧ s.pwr.due = false ∧
      nodeList s.obj = [] ++ { num := 1, med := 0, ch := 0, priv := false } :: [node7] ∧ s.cfg pwrIdx 0x11 = 1 ∧ s.cfgB pwrIdx 5 = false ∧
      (∀ b, b < 0x13 → s.energised (0x30 + b) = false) ∧ s.pwr.quietAt = none ∧ s.pwr.failAt = none := by decide +kernel
theorem test_meets_NetworkSleep_votes :
    let lit := (sleeps false 1 .run id).onHs 71 fun h => { h with act := .on }
    let heard := sleeps false 1 .run fun p => { p with quietAt := some 8000 }
    loadBlocks.find? lit.energised = some 0x38 ∧ heard.pwr.quietAt = some 8000 ∧ heard.now < 8000 + secT (heard.cfg pwrIdx 0x16) ∧
      heard.Ahead (8000 + secT (heard.cfg pwrIdx 0x16)) ∧ (sleeps false 1 .run fun p => { p with failAt := some 8000 }).Ahead (8000 + secT (heard.cfg pwrIdx 0x19)) := by
  unfold State.Ahead; decide +kernel
theorem test_meets_NetworkSleep_round :
    let rd (o : Bool) : Round := { gen := 1, opened := 8000, ovr := o }
    let s (o : Bool) (q : Option Nat) := sleeps false 1 .run fun p => { p with round := some (rd o), req := 1, quietAt := q }
    let m (e : List (Byte × Byte)) : DaisyMsg := { gen := 1, orig := 1, nxt := 1, ovr := false, excl := [], entries := e }
    (s false none).up 5 = true ∧ (m []).nxt.toNat = (s false none).cfg pwrIdx 0x11 ∧ (m []).orig.toNat = (s false none).cfg pwrIdx 0x11 ∧ (m []).gen = (rd false).gen ∧
      (m [(1, 0xFF), (7, 0xFF)]).entries.filter (·.2 != 0xFF) = [] ∧ (m [(1, 0xFF), (7, 0x80)]).entries.filter (·.2 != 0xFF) = [(7, 0x80)] ∧
      (s true (some 8000)).pwr.quietAt = some 8000 ∧ (rd true).opened ≤ 8000 ∧ (s true (some 7999)).pwr.quietAt = some 7999 ∧ ¬((rd true).opened ≤ 7999) ∧
      (s false none).Ahead (8000 + msT ((s false none).cfg pwrIdx 0x18)) := by unfold State.Ahead; decide +kernel
theorem test_meets_NetworkSleep_relay :
    let s := sleeps false 0 .idle fun p => { p with req := 0 }
    let m : DaisyMsg := { gen := 1, orig := 3, nxt := 1, ovr := false, excl := [], entries := [(3, 0xFF)] }
    m.nxt.toNat = s.cfg pwrIdx 0x11 ∧ m.orig.toNat ≠ s.cfg pwrIdx 0x11 ∧ ([node7] ++ []).find? (fun x => !x.priv && !m.excl.contains (BitVec.ofNat 8 x.num)) = some node7 := by
  decide +kernel
theorem test_meets_NetworkSleep_commit :
    let s (n : Nat) := sleeps false 1 .run fun p => { p with commit := some { gen := 1, ovr := false, sent := n, last := 8000 } }
    let u (r : Byte) := sleeps false 0 .run fun p => { p with req := r, gen := 255 }
    (s 1).Ahead (8000 + msT 10) ∧ (s 2).pwr.commit.map (·.sent) = some 2 ∧ ((254 : Byte) - (u 0).pwr.gen).toNat = 255 ∧ ((0 : Byte) - (u 0).pwr.gen).toNat = 1 ∧
      ((126 : Byte) - (u 1).pwr.gen).toNat = 127 ∧ ((127 : Byte) - (u 1).pwr.gen).toNat = 128 ∧ (u 0).pwr.req = 0 ∧ (u 1).pwr.req ≠ 0 ∧
      ((u 0).onPwr fun p => { p with replay := some 8000 }).pwr.replay = some 8000 := by unfold State.Ahead; decide +kernel
theorem test_meets_NetworkSleep_maxawake :
    let s := sleeps false 1 .run fun p => { p with awakeAt := some 8000 }
    s.pwr.awakeAt = some 8000 ∧ s.Ahead (8000 + secT (60 * s.cfg pwrIdx 0x17)) ∧
      (s.pwr.refused.filter fun b => (nodeList s.obj).any fun x => x.num = b.toNat && !x.priv && x.num != 1).take 15 = [] ∧
      ([node7] ++ []).find? (fun x => !x.priv && !([] : List Byte).contains (BitVec.ofNat 8 x.num)) = some node7 := by unfold State.Ahead; decide +kernel
theorem test_meets_KeepAlives :
    let s (privileged : Bool) := (sleeps privileged 0 .run fun p => { p with keep := true, keepAt := 8000 }).setObj pwrIdx 0x11 [7]
    (s true).up 5 = true ∧ (nodeList (s true).obj).find? (fun y => y.num = (s true).cfg pwrIdx 0x11) = some { node7 with priv := true } ∧
      (s true).Ahead (8000 + msT ((s true).cfg pwrIdx 0x1B)) ∧ (s true).pwr.keep = true ∧
      (nodeList (s false).obj).find? (fun y => y.num = (s false).cfg pwrIdx 0x11) = some node7 ∧
      (∃ x ∈ nodeList (s true).obj, x.num = (7 : Byte).toNat ∧ x.priv = true) ∧ ∀ x ∈ nodeList (s false).obj, x.num = (7 : Byte).toNat → x.priv = false := by
  unfold State.Ahead; decide +kernel

/-- Access is enabled; token 7 answers in slot 7 as 0x0A0A, with key 31. -/
def polls (m : PowerMode) (f : AccessState → AccessState) : State :=
  ((((withObj acsIdx [(1, [1]), (2, [3]), (9, List.replicate 14 0 ++ [0xF00000A0A, 0x1F0000000]), (0x0A, [0xF0A0A1000])]).onPwr fun p => { p with mode := m }).onUpd fun u =>
    { u with keys := bset u.keys 31 (some 5) })).onAcs f

/-- A poll in progress. -/
def poll (ph : PollPhase) (f : Poll → Poll) : Poll :=
  f { phase := ph, start := 8000, round := 0, chal := 7, frame := [], hit := false, clash := false, valid := 0, invalid := 0, coll := 0, tids := Vector.replicate 8 0, tokens := 0 }

theorem test_meets_AccessAndSearch :
    let s := polls .run id
    let locked := polls .run fun a => { a with lockEnd := some 8321 }
    s.Takes byPair acsIdx 0x0B [1] ∧ s.acs.lockEnd = none ∧ (s.iop = true ∧ s.cfgB acsIdx 1 = true ∧ s.acs.latched = false ∧ s.isShed 0xAA = false ∧ s.safeOff 0xAA = false) ∧
      s.acs.poll = none ∧ locked.Takes byPair acsIdx 0x0B [1] ∧ locked.acs.lockEnd = some 8321 ∧ locked.now < 8321 ∧ State.reset.Takes byPair acsIdx 0x0B [1] ∧
      State.reset.cfgB acsIdx 1 = false ∧ (polls .run fun a => { a with poll := some (poll .powering id) }).Takes byPair acsIdx 0x0B [1] :=
  ⟨takes_of (by decide +kernel), rfl, by decide +kernel, rfl, takes_of (by decide +kernel), rfl, by decide +kernel, takes_of (by decide +kernel), by decide +kernel,
    takes_of (by decide +kernel)⟩
theorem test_meets_AccessAndSearch_touch :
    let s := polls .run fun a => { a with caps := bmod a.caps 3 (fun c => { c with touched := true }), wakePoll := true }
    (bget s.acs.caps 3).touched = true ∧ (s.cfg acsIdx 2).testBit 0 = true ∧ s.acs.wakePoll = true := by decide +kernel
theorem test_meets_AccessAndSearch_powering :
    let s := polls .run fun a => { a with poll := some (poll .powering id) }
    (poll .powering id).phase = .powering ∧ s.Ahead (8000 + msT (s.cfg acsIdx 4)) ∧ s.srv.commits = [] ∧ 1500 < 1501 ∧ 5 * 0 < s.cfg acsIdx 3 ∧
      10 * 350 ≤ 7 * s.cfg acsIdx 3 ∧ ¬(5 * 350 < s.cfg acsIdx 3) := by unfold State.Ahead; decide +kernel
theorem test_meets_AccessAndSearch_slot :
    let s := (polls .run fun a => { a with poll := some (poll (.slot 7) id) }).setObj acsIdx 5 [8]
    let w (i : Nat) := (s.obj acsIdx 9).getD (2 * 7 + i) 0
    let p := poll (.slot 7) id
    s.Ahead (8000 + 1500000) ∧ s.cfg acsIdx 5 ≤ (7 : Fin 8).val + 1 ∧ ¬((polls .run id).cfg acsIdx 5 ≤ (2 : Fin 8).val + 1) ∧
      (w 0).getLsbD 35 = true ∧ fld (w 0) 34 32 = 7 ∧ fld (w 0) 31 0 = 0x0A0A ∧ fld (w 1) 35 28 = 31 ∧ bget s.upd.keys (Fin.ofNat 32 31) = some 5 ∧
      p.round < s.cfg acsIdx 6 ∧ (poll (.slot 7) fun p => { p with tokens := 0x80 }).tokens.getLsbD 7 = true ∧
      (poll (.slot 7) fun p => { p with invalid := 1 }).invalid ≠ 0 ∧ (poll (.slot 7) fun p => { p with coll := 1 }).coll ≠ 0 ∧ p.coll = 0 := by
  unfold State.Ahead; decide +kernel
theorem test_meets_AccessAndSearch_answer : ∃ resp : BitVec 64, (aes 5 (poll (.slot 7) id).chal).toNat / 2 ^ 64 = resp.toNat :=
  ⟨((aes 5 (poll (.slot 7) id).chal).extractLsb' 64 64), by simp only [BitVec.extractLsb'_toNat, Nat.shiftRight_eq_div_pow]; have := (aes 5 (poll (.slot 7) id).chal).isLt; omega⟩
theorem test_meets_AccessAndSearch_clear :
    let s := polls .run fun a => { a with lockEnd := some 8321, latched := true }
    s.Takes byPair acsIdx 0x0C [1] ∧ s.Takes .debug acsIdx 0x0D [1] ∧ s.Ahead (max s.now 8321) ∧ s.up 2 = true ∧ s.iop = true ∧ s.srvFree byPair = true ∧
      (s.access byPair acsIdx 0x0E false).isLeft = true :=
  ⟨takes_of (by decide +kernel), takes_of (by decide +kernel), ⟨by decide +kernel, by decide +kernel⟩, by decide +kernel, by decide +kernel, by decide +kernel, by decide +kernel⟩
theorem test_meets_AccessAndSearch_handle :
    let s (m : PowerMode) (c : CapSense) := polls m fun a => { a with caps := bset a.caps 3 c }
    let c : CapSense := { base := some 6400, highs := 0, since := 0, ignored := false, touched := false, last := 8000 }
    let cfg := (s .run c).cfg acsIdx 0x0A
    let hth : Nat := cfg / 2 ^ 24 % 256
    cfg.testBit (32 + 3) = true ∧ (s .run c).Ahead (8000 + msT (cfg / 2 ^ 16 % 256)) ∧ cfg / 2 ^ 12 % 16 = c.highs + 1 ∧ c.base = some 6400 ∧
      (6400 : Int) + 64 * hth ≤ 64 * (110 : Int) ∧ ¬((6400 : Int) + 64 * hth ≤ 64 * (109 : Int)) ∧
      secT 30 ≤ secT 30 + 8000 - 8000 ∧ (s .park c).pwr.mode = .park ∧ (s .park c).acs.lockEnd = none ∧ ((s .park c).pwr.deep = false) := by
  unfold State.Ahead; decide +kernel
theorem test_meets_AccessAndSearch_search :
    let s (n : Nat) := polls .park fun a => { a with acks := n, searchAt := 8000, lastGrant := 8000 }
    let old := polls .park fun a => { a with lastGrant := 0, searchAt := 0 }
    (s 0).pwr.deep = false ∧ (s 0).cfgB acsIdx 1 = true ∧ ((s 0).cfg acsIdx 2).testBit 1 = true ∧ (s 0).acs.sstop = false ∧ (s 0).isShed 0xAA = false ∧
      (s 0).now < 8000 + secT 604800 * (s 0).cfg acsIdx 8 ∧ (s 0).Ahead (8000 + msT ((s 0).cfg acsIdx 7)) ∧ (s 1).acs.acks ≠ 0 ∧ (s 1).Ahead (8000 + msT 20) ∧
      (s 0).Ahead (8000 + secT 604800 * (s 0).cfg acsIdx 8) ∧
      (old.onTime fun t => { t with time := BitVec.ofNat 72 (secT 604800 * old.cfg acsIdx 8) }).acs.lastGrant + secT 604800 * old.cfg acsIdx 8 ≤
        (old.onTime fun t => { t with time := BitVec.ofNat 72 (secT 604800 * old.cfg acsIdx 8) }).now := by unfold State.Ahead; decide +kernel


/-! Supply, faults, resets (R462 to R538) -/

/-- The supply is at 5 V, or as f says; HS3 is commanded ON. -/
def supply (f : Machine.Supply → Machine.Supply) : State := (State.reset.onSup fun u => f { u with vbat := 5000 }).onHs 3 fun h => { h with cmd := .on }

theorem test_meets_SupplyEvents :
    let s := supply id
    let th := (s.obj shedIdx (if s.cfg 0x1010 1 = 12 then 2 else 3)).getD 7 0
    s.up 1 = true ∧ s.sup.vbat < fld th 31 16 ∧ s.sup.shed.getLsbD 7 = false ∧ (∀ j : Fin 8, 7 < j → s.sup.shed.getLsbD j.val = true) ∧
      fld ((s.obj shedIdx 3).getD 1 0) 31 16 ≠ 0 := by decide +kernel
theorem test_meets_SupplyEvents_restore :
    let s (x : Option Nat) := supply fun u => { u with vbat := 23000, shed := 0xC0, lastRest := 8000, exitAt := x }
    let th := ((s none).obj shedIdx (if (s none).cfg 0x1010 1 = 12 then 2 else 3)).getD 6 0
    fld th 31 16 + fld th 15 0 ≤ (s none).sup.vbat ∧ (s none).sup.shed.getLsbD 6 = true ∧ (s none).sup.crank = false ∧
      (∀ j : Fin 8, j < 6 → (s none).sup.shed.getLsbD j.val = false) ∧ (s none).Ahead (max (s none).now (8000 + msT 10)) ∧
      (s none).Ahead (max (max (s none).now (8000 + msT ((s none).cfg shedIdx 5))) (8000 + msT 10)) ∧ (s (some 8000)).sup.exitAt = some 8000 := by
  unfold State.Ahead; decide +kernel
theorem test_meets_SupplyEvents_first :
    let s := supply fun u => { u with vbat := 23000, shed := 0xFE }
    (1 : Fin 8) ≠ 0 ∧ s.sup.shed.getLsbD 1 = true ∧ (∀ j : Fin 8, j < 1 → s.sup.shed.getLsbD j.val = false) ∧ s.Ahead s.now ∧
      fld ((s.obj shedIdx 3).getD 1 0) 31 16 + fld ((s.obj shedIdx 3).getD 1 0) 15 0 ≤ 23000 := by unfold State.Ahead; decide +kernel
theorem test_meets_SupplyEvents_batch :
    let s := supply fun u => { u with restoreQ := [3], restoreAt := 8400 }
    let h := bget s.hs 3
    s.Ahead (max s.now 8400) ∧ s.sup.restoreQ = [(3 : Fin 72).val] ∧ s.Unruled 3 ∧ bget s.adm.edge (tgtFin 3) = none ∧ h.policy = .none ∧ h.cmd = .on ∧ h.lcause = 0 ∧
      h.act = .off ∧ h.next = none ∧ h.out = false ∧ s.Fits (s.hsCharge 3 .on) ∧ (bget s.th (grpTh (hsGroup 3))).hot = false := by
  unfold State.Ahead State.Unruled State.Fits; decide +kernel
theorem test_meets_SupplyEvents_sink :
    let s := (supply fun u => { u with ov := true, vbat := 12000 }).onSink 23 fun q => { q with last := 65535 }
    let q := bget s.sinks 23
    let l := s.sinkL 23 q.last
    let t : State := { s with sinks := Vector.ofFn fun i => if i = 23 then q else { Sink.reset with lcause := 1 } }
    t.sup.ov = true ∧ q.lcause = 0 ∧ t.isShed (sinkCode 23) = false ∧ t.heldOff = false ∧ t.safeOff (sinkCode 23) = false ∧ t.isDeferred (sinkCode 23) = false ∧
      (∀ i : Fin 24, i ≠ 23 → (bget t.sinks i).lcause ≠ 0) ∧ t.sinkDuty 23 < l ∧ t.Fits (t.sinkCharge 23 l) := by unfold State.Fits; decide +kernel
theorem test_meets_SupplyEvents_rest :
    let s := (supply fun u => { u with crank := true, gloss := true }).onHs 71 fun h => { h with lcause := 1 }
    s.sup.crank = true ∧ s.sup.gloss = true ∧ (bget s.hs 71).lcause ≠ 0 ∧ (bget s.hs 0).lcause = 0 ∧ s.hsWant 0 = .off ∧ State.reset.sup.ov = false ∧
      State.reset.sup.gloss = false ∧ State.reset.sup.caseFail = false ∧ State.reset.sup.crank = false ∧ ∀ b, (bget s.vb b).queue = [] := by decide +kernel

/-- A report waits; the severities are the defaults. -/
def reported (x : Report) (f : FaultState → FaultState) : State := State.reset.onFlt fun y => f { y with inflight := [x] }

/-- A report of HS71's over-current, of severity 1, and one of severity 3. -/
def mild : Report := { src := 0x38 * 32 + 7, stamp := 8300, wrapped := none }
def grave : Report := { src := 0x063, stamp := 8300, wrapped := none }

theorem test_meets_FaultReports :
    let s := reported mild id
    let sev := fld ((s.obj faultIdx 1).getD (mild.src / 9) 0) (34 - 4 * (mild.src % 9)) (32 - 4 * (mild.src % 9))
    s.up 1 = true ∧ mild.src < 4096 ∧ mild.stamp ≤ s.stamp ∧ s.flt.inflight = [mild] ∧ s.flt.shadows = [] ∧ sev < 3 ∧ s.flt.q.items.length < 256 ∧
      s.flt.sevBad = [] ∧ (0x707 : BitVec 12).toNat % 32 < (blockSevs ((0x707 : BitVec 12).toNat / 32)).length := by decide +kernel
theorem test_meets_FaultReports_full :
    let s := reported mild fun f => { f with q := { f.q with items := List.replicate 256 { marker := false, words := [0, 0] } } }
    ¬(s.flt.q.items.length < 256) ∧ mild.src ≠ 0xA0 := by decide +kernel
theorem test_meets_FaultReports_grave :
    let s := reported grave id
    s.cfg faultIdx 7 = 0 ∧ (s.setObj faultIdx 7 [1]).cfg faultIdx 7 ≠ 0 ∧ s.flt.frzValid = false ∧ s.flt.freezing = none ∧ grave.stamp ≤ s.stamp ∧
      (reported grave fun f => { f with frzValid := true }).flt.frzValid = true ∧ s.cfg faultIdx 6 % 4 = 0 := by decide +kernel
theorem test_meets_FaultReports_reset :
    let s := (reported mild id).setObj faultIdx 1 (List.replicate 456 0x444444444)
    fld ((s.obj faultIdx 1).getD (mild.src / 9) 0) (34 - 4 * (mild.src % 9)) (32 - 4 * (mild.src % 9)) = 4 ∧ mild.src / 32 ≠ 0x0B ∧ mild.src / 32 ≠ 0x0C := by
  decide +kernel
theorem test_meets_FaultReports_shadow :
    let z : Shadow := { blk := 0x38, ref := 0x025, ends := some 9000 }
    let s := reported mild fun f => { f with shadows := [z] }
    s.flt.shadows = [] ++ z :: [] ∧ z.blk = mild.src / 32 ∧ mild.src ≠ z.ref.toNat ∧ s.Ahead 9000 := by unfold State.Ahead; decide +kernel
theorem test_meets_FaultReports_wrapped :
    let x : Report := { mild with stamp := 0xFFFFFFFFF }
    let m : QItem := { marker := true, words := [3, 4] }
    let s := reported x fun f => { f with q := { f.q with items := [{ marker := false, words := [1, 2] }, m] } }
    s.stamp < x.stamp ∧ s.flt.q.items = [{ marker := false, words := [1, 2] }] ++ { marker := true, words := [3, 4] } :: [] := by decide +kernel
theorem test_meets_FaultReports_two :
    let y : Report := { mild with src := 0x30 * 32 }
    let s := (State.reset.onFlt fun f => { f with inflight := [mild, y] }).setObj faultIdx 2 [0]
    s.flt.inflight = mild :: y :: [] ∧ mild.src / 32 ≠ y.src / 32 ∧ s.cfg faultIdx 2 = 0 ∧ s.flt.valid = false ∧ y.src < mild.src := by decide +kernel
theorem test_meets_FaultReports_writes :
    let s := State.reset
    s.Takes byPair faultIdx 0x0D [1] ∧ s.Takes byPair faultIdx 0x0A [1] ∧ s.Takes byPair faultIdx 0x0C [wd 0xFFFF] ∧ s.Takes byPair faultIdx 0x12 [wd 0xFF] ∧
      s.Takes byPair faultIdx 0x0F [1] ∧ s.flt.pulse = none ∧ (s.onFlt fun f => { f with pulse := some 8320 }).Takes byPair faultIdx 0x0D [1] ∧ s.Ahead 8320 :=
  ⟨takes_of (by decide +kernel), takes_of (by decide +kernel), takes_of (by decide +kernel), takes_of (by decide +kernel), takes_of (by decide +kernel), rfl,
    takes_of (by decide +kernel), ⟨by decide +kernel, by decide +kernel⟩⟩
theorem test_meets_FaultReports_release :
    let s := (State.reset.onHs 71 fun h => { h with cmd := .on }).onFlt fun f => { f with safe := 1#192 <<< 71 }
    let u : State := { s with flt := { s.flt with safe := 0 } }
    let h := bget s.hs 71
    u.Unruled 71 ∧ s.flt.safe = 1#192 <<< (71 : Fin 72).val ∧ bget s.adm.edge (tgtFin 71) = none ∧ h.base = none ∧ h.policy = .none ∧ h.cmd = .on ∧ h.lcause = 0 ∧
      h.act = .off ∧ h.next = none ∧ h.out = false ∧ u.Fits (u.hsCharge 71 .on) ∧ (bget s.th (grpTh (hsGroup 71))).hot = false := by
  unfold State.Unruled State.Fits; decide +kernel

theorem test_meets_FreezeAndDump :
    let z : Freezing := { src := 0x185, sev := 4, stamp := 8000, ends := 9000, reset := true }
    let s := State.reset.onFlt fun f => { f with freezing := some z, image := List.replicate 512 7, dstat := 1 }
    s.Ahead z.ends ∧ s.flt.freezing = some z ∧ s.up 1 = true ∧ s.cfg faultIdx 6 % 4 = 0 ∧ z.src.toNat / 32 = 0x0B + (1 : Fin 2).val ∧ 2 ≤ z.src.toNat % 32 ∧ s.up 6 = true ∧
      s.rst.blocks.any (·.blk == 0x0C) = false ∧ (0x607 : BitVec 12).toNat / 32 ≠ 0x0B ∧ (0x161 : BitVec 12).toNat / 32 = 0x0B ∧ (0x161 : BitVec 12).toNat % 32 ≤ 1 ∧
      (bget s.fab.tags 63).tx = none ∧ s.flt.image.length = 512 ∧ s.up 2 = true ∧ Memory.wf s.mem = true := by unfold State.Ahead; decide +kernel
theorem test_meets_FreezeAndDump_dump :
    let s := State.reset.setObj dumpIdx 3 [0, 0, 0, wd (2 ^ 31)]
    State.reset.Takes byPair dumpIdx 1 [1] ∧ State.reset.flt.dstat ≠ 1 ∧ State.reset.flt.dstat ≠ 2 ∧ ((s.obj dumpIdx 3).getD (127 / 32) 0).getLsbD (127 % 32) = true ∧
      ∀ c, c < 127 → ((s.obj dumpIdx 3).getD (c / 32) 0).getLsbD (c % 32) = false :=
  ⟨takes_of (by decide +kernel), by decide +kernel, by decide +kernel, by decide +kernel, by decide +kernel⟩

/-- The duo is on; the partner is node 1 on the ring; HS71 mirrors its HS3. -/
def duo (loops : List Word) (f : Duo → Duo) : State :=
  ((withObj duoIdx [(1, [1]), (3, [1]), (4, [wd (2 ^ 35 + 71 * 2 ^ 27 + 3 * 2 ^ 19)] ++ List.replicate 31 0), (5, loops ++ List.replicate (8 - loops.length) 0)]).setObj ringIdx 1
    [1]).onRing (fun r => { r with byp := false }) |>.onDuo f

/-- A valid copy of node 1's STATE at the state after reset: it is ACTIVE or not, with GEN 0; it has one load, HS3, whose word names HS71, and the loops l. -/
def copyOf (active : Bool) (l : List Word) : DuoFrame :=
  { src := 1, ok := true, words := [wd ((if active then 2 ^ 35 else 0) + 2 ^ 20 + (l.length / 17) * 2 ^ 16), 0, 7, 9, wd (3 * 2 ^ 28 + 71 * 2 ^ 20 + 2 ^ 16), 0] ++ l }

theorem test_meets_DuoPair :
    let s := duo [] fun d => { d with role := .syncing, good := 15, due := some 0, copy := (copyOf true []).words }
    let fr := copyOf true []
    let ws := fr.words
    let pairs := (s.obj duoIdx 4).filter (·.getLsbD 35)
    let w := wd (2 ^ 35 + 71 * 2 ^ 27 + 3 * 2 ^ 19)
    s.onTheRing = true ∧ fr.src.val = s.cfg duoIdx 3 ∧ ws.getD 1 0 = BitVec.ofNat 36 (s.now / 100000) ∧ (ws.getD 0 0).getLsbD 35 = true ∧ pairs = [w] ∧
      fld (ws.getD 0 0) 25 20 = 1 ∧ fld (ws.getD 0 0) 19 16 = 0 ∧ fld (ws.getD 4 0) 35 28 = fld w 26 19 ∧ fld (ws.getD 4 0) 27 20 = fld w 34 27 ∧
      s.duo.due = some 0 ∧ s.Ahead 50000 ∧ (s.obj duoIdx 5).filter (·.getLsbD 35) = [] ∧ fld (ws.getD 4 0) 19 16 = 1 ∧ s.duo.copy ≠ [] := by unfold State.Ahead; decide +kernel
theorem test_meets_DuoPair_on :
    let s := (duo [] fun d => { d with role := .ready, copy := (copyOf true []).words }).onAdm fun a => { a with resv := [{ code := 71, na := 1, nw := 0, derat := false }] }
    let h := bget s.hs 71
    h.lcause = 0 ∧ s.isShed 71 = false ∧ s.heldOff = false ∧ s.safeOf 71 = none ∧ s.adm.inh.getLsbD 71 = false ∧ s.isReserved 71 = true ∧ h.act = .off ∧ h.next = none ∧
      h.out = false ∧ (bget s.th (grpTh (hsGroup 71))).hot = false ∧ fld (wd (2 ^ 35 + 71 * 2 ^ 27 + 3 * 2 ^ 19)) 34 27 = 71 ∧
      (0 : Byte).toNat ≠ s.cfg duoIdx 3 ∧ (1 : Byte).toNat = s.cfg duoIdx 3 := by decide +kernel
theorem test_meets_DuoPair_loops :
    let lw := wd (2 ^ 35 + 359 * 2 ^ 26 + 5 * 2 ^ 17)
    let s := duo [lw] fun d => { d with role := .ready, match_ := true, shBad := 2 }
    let ws := (copyOf true (wd (5 * 2 ^ 27 + 359 * 2 ^ 18) :: List.replicate 16 0)).words
    (s.obj duoIdx 5).filter (·.getLsbD 35) = [lw] ∧ fld (ws.getD 0 0) 19 16 = 1 ∧ fld (ws.getD (4 + 2 * 1) 0) 26 18 = (359 : Fin 360).val ∧ fld (ws.getD 6 0) 35 27 = fld lw 25 17 ∧
      fld (ws.getD 6 0) 26 18 = fld lw 34 26 ∧ s.duo.match_ = true ∧ 2 ≤ s.duo.shBad := by decide +kernel
theorem test_meets_DuoPair_roles :
    (duo [] fun d => { d with role := .unresolved }).duo.role = .unresolved ∧ (copyOf false []).words.getD 1 0 = 0 ∧
      (duo [] fun d => { d with role := .active, gen := 129 }).duo.role = .active ∧ (((0 : Byte) - 129).toNat) = 127 ∧ State.reset.duo.role = .off ∧
      ((duo [] fun d => { d with role := .active, casc := 2 }).cfg duoIdx 3 ≤ (2 : Fin 8).val) := by decide +kernel
theorem test_meets_DuoCopies :
    let s := duo [] fun d => { d with role := .ready, due := some 0 }
    s.onTheRing = true ∧ s.duo.role ≠ .off ∧ s.duo.due = some 0 ∧ s.Ahead 50000 ∧ (duo [] id).duo.due = none ∧ { copyOf true [] with ok := false }.ok = false := by
  unfold State.Ahead; decide +kernel

theorem test_meets_ResetSources :
    let s := State.reset
    s.Powered ∧ s.Ahead s.now ∧ s.rst.rstn = false ∧ s.asserted 3 = false ∧ s.asserted 4 = false ∧ s.cfg rstIdx 1 = 0 ∧ (s.setObj rstIdx 1 [1]).cfg rstIdx 1 ≠ 0 ∧
      s.Takes byPair rstIdx 9 [wd 0x7C] ∧ s.Takes byPair rstIdx 9 [wd 0x7D] ∧ s.Takes byPair rstIdx 9 [0] ∧ (0x7C : Byte) &&& 0x83 = 0 ∧ (0x7D : Byte) &&& 0x83 ≠ 0 ∧ s.Takes byPair rstIdx 0x0A [wd 0x30] ∧ s.closed 0x30 = false ∧
      s.cfg (hsIdx 0) 0x13 = 0 ∧ bget s.adm.level (tgtFin 0) = none ∧ s.Takes byPair rstIdx 8 [1] ∧ s.Takes byPair rstIdx 0x0A [wd 0xFF] :=
  ⟨⟨rfl, by decide +kernel⟩, ⟨by decide +kernel, by decide +kernel⟩, rfl, rfl, rfl, by decide +kernel, by decide +kernel, takes_of (by decide +kernel), takes_of (by decide +kernel), takes_of (by decide +kernel), by decide, by decide,
    takes_of (by decide +kernel), by decide +kernel, by decide +kernel, by decide +kernel, takes_of (by decide +kernel), takes_of (by decide +kernel)⟩
theorem test_meets_ResetSources_debug :
    let s := (State.reset.setObj rstIdx 0x0B [0x3C]).onDbg fun d => { d with level := 2 }
    s.asserted 8 = false ∧ s.cfg rstIdx 0x0B % 4 = 0 ∧ s.dbg.level = 2 ∧ ((State.reset.onUpd fun u => { u with field := true }).upd.field = true) ∧ State.reset.dbg.level ≠ 2 := by
  decide +kernel
theorem test_meets_ResetSources_clock :
    let s : State := { State.reset with dom := bset State.reset.dom 6 { powered := true, held := true }, rst := { State.reset.rst with relAt := some 8000, firstUp := false } }
    (∀ i : Fin 12, i.val < 10 → s.asserted i = false) ∧ s.inReset 6 = true ∧ (∀ q : Fin 7, q < 6 → s.inReset q = false) ∧ s.Ahead (8000 + usT 100) ∧
      State.reset.rst.lossAt = none ∧ State.reset.asserted 9 = false ∧ State.reset.Ahead (8000 + msT 10) ∧ State.reset.rst.good.getLsbD 1 = true := by
  unfold State.Ahead; decide +kernel
theorem test_meets_ResetSources_watchdog :
    let s (t : Word) (a : Bool) := ((State.reset.setObj rstIdx 3 [10]).setObj rstIdx 5 [t]).onRst fun r =>
      { r with wdRun := some (if a then 0 else 8320), wdPairs := bset r.wdPairs 1 { served := true, next := 0x5A } }
    (s 3 false).Takes (.pair 0) rstIdx 6 [wd 0x5A] ∧ ((s 3 false).cfg rstIdx 5).testBit 0 = true ∧ ((s 2 false).cfg rstIdx 5).testBit 0 = false ∧
      (bget (s 3 false).rst.wdPairs 0).next = 0x5A ∧ (bget (s 3 false).rst.wdPairs 1).served = true ∧ (bget (s 3 false).rst.wdPairs 0).served = false ∧
      (s 3 false).now < 8320 + (s 3 false).cfg rstIdx 3 * 50 * 1000 ∧ ¬((s 3 true).now < 0 + (s 3 true).cfg rstIdx 3 * 0 * 1000) ∧
      (s 3 false).Ahead (8320 + (s 3 false).cfg rstIdx 3 * 100000) ∧ (s 3 false).Ahead (8320 + (s 3 false).cfg rstIdx 3 * 75000) :=
  ⟨takes_of (by decide +kernel), by decide +kernel, by decide +kernel, by decide, by decide, by decide, by decide +kernel, by decide +kernel, ⟨by decide +kernel, by decide +kernel⟩,
    ⟨by decide +kernel, by decide +kernel⟩⟩

/-- Source n holds domain 6 since TIME a. -/
def holds (n : Fin 12) (a : Nat) : State :=
  { State.reset with
    dom := bset State.reset.dom 6 { powered := true, held := true }
    rst := { State.reset.rst with firstUp := false, srcs := bmod State.reset.rst.srcs n fun x => { x with since := some a, reach := 0x40, clear := true } } }

theorem test_meets_ReleaseSequence :
    ((holds 1 1320).srcOf 1).since = some 1320 ∧ 1320 + 7000 ≤ (holds 1 1320).now ∧ (holds 1 1321).now < 1321 + 7000 ∧ (holds 1 0).pwr.mode ≠ .off ∧
      4500 ≤ (holds 2 0).sup.vbat ∧ ((holds 2 0).onSup fun u => { u with vbat := 4499 }).sup.vbat < 4500 ∧ (holds 3 1320).asserted 4 = false ∧
      ((holds 3 1320).onRst fun r => { r with rstn := true }).rst.rstn = true ∧ ((holds 9 0).onRst fun r => { r with lossAt := some 0 }).rst.lossAt.isSome = true ∧
      (holds 6 8000).Ahead (8000 + 7000) ∧ ((holds 6 8000).srcOf 6).clear = true := by unfold State.Ahead; decide +kernel
theorem test_meets_ReleaseSequence_aon :
    let s := (holds 0 0).onTime fun t => { t with time := 100000 }
    let u : State := { s with dom := bset s.dom 1 { powered := true, held := true } }
    (s.srcOf 0).since = some 0 ∧ 0 + 100000 ≤ s.now ∧ u.heldMask ≠ 0 ∧ u.rst.relAt = none ∧ (∀ j : Fin 12, j.val < 10 → j ≠ 0 → u.asserted j = false) ∧
      (bget u.dom 1).held = true ∧ (bget u.dom 1).powered = true ∧ u.pwr.mode = .run := by decide +kernel
theorem test_meets_ReleaseSequence_block :
    let y : BlockReset := { blk := 0x0C, since := 8000, lock := true }
    let s := (holds 10 8000).onRst fun r => { r with blocks := [y] }
    let u : State := { s with dom := State.reset.dom }
    s.rst.blocks = [y] ∧ s.Ahead (8000 + 7000) ∧ s.up 2 = true ∧ s.srv.heldAcc = [] ∧ s.srv.commits = [] ∧ y.blk = 0x0B + (1 : Fin 2).val ∧ u.up 6 = true := by
  unfold State.Ahead; decide +kernel
theorem test_meets_ReleaseSequence_release :
    let s : State := { State.reset with dom := bset State.reset.dom 6 { powered := true, held := true }, rst := { State.reset.rst with relAt := some 8000, firstUp := false } }
    s.rst.relAt = some 8000 ∧ (∀ j : Fin 12, j.val < 10 → s.asserted j = false) ∧ s.inReset 6 = true ∧ (∀ q : Fin 7, q < 6 → s.inReset q = false) ∧ s.Ahead (8000 + 1024) ∧
      s.rst.lossAt = none ∧ s.pwr.mode = .run ∧ s.srv.heldAcc = [] ∧ s.srv.commits = [] := by unfold State.Ahead; decide +kernel
theorem test_meets_ReleaseSequence_return :
    let s := State.reset.onPwr fun p => { p with mode := .returning, next := 6, start := 8000 }
    s.pwr.next = (6 : Fin 7).val ∧ s.Ahead (8000 + 400000) ∧ s.rst.lossAt = none ∧ (State.cold 0).pwr.mode = .run ∧
      (State.reset.onPwr fun p => { p with mode := .off }).pwr.mode = .off := by unfold State.Ahead; decide +kernel

/-! Update, event log, debug (R551 to R597) -/

/-- SHA-256 of 864 octets, all 0: an image's 192 words. -/
def digest0 : List Word := [0x0ED9E26C, 0x3F1435E4, 0x98BEB236, 0x9BDF5A04, 0xA7FE4F0E, 0x302068EF, 0x2C308E1F, 0xF872B5F7]

/-- Bank 1 holds an image of 0x100 words, all 0 but its header; its SECVER is sv. -/
def imaged (sv : Nat) (f : Update → Update) : State :=
  let table : Word := wd (0x40 * 2 ^ 18)
  let head : List Word := [0x964810000, 0x100, wd (sv * 2 ^ 28), 9, 0x800010, 0x800020, table, table, table, 0] ++ List.replicate 6 0
  (State.reset.onMem fun m => memWriteN m 0x200000 (head ++ digest0)).onUpd f

theorem test_meets_UpdateAndLog_image :
    let s := imaged 5 fun u => { u with busy := .verifying, ukHave := 1 }
    let w (o : Nat) : Word := memRead s.mem (0x200000 + o)
    Memory.wf s.mem = true ∧ w 0 = 0x964810000 ∧ 0x100 ≤ (w 1).toNat ∧ (w 1).toNat ≤ 0x100000 ∧ (w 1).toNat % 2 = 0 ∧ fld (w 6) 35 18 + 2 * fld (w 6) 17 0 ≤ (w 1).toNat ∧
      fld (w 7) 35 18 + 16 ≤ (w 1).toNat ∧ s.upd.ukHave.getLsbD (fld (w 9) 35 34) = true ∧ s.upd.ukRev.getLsbD (fld (w 9) 35 34) = false ∧ fld (w 2) 35 28 = 5 := by
  decide +kernel
theorem test_meets_UpdateAndLog_digest :
    memReadN (imaged 5 id).mem 0x200010 8 = digest0 ∧ memReadN (imaged 5 id).mem 0x200040 0xC0 = List.replicate 0xC0 0 ∧
      octetImage (List.replicate 0xC0 0) = List.replicate 864 0 := by decide +kernel
theorem test_sha256_image : digestWords (sha256 (List.replicate 864 0)) = digest0 := by decide +kernel
theorem test_meets_UpdateAndLog_fails :
    memRead State.reset.mem 0x200000 ≠ 0x964810000 ∧ (imaged 5 fun u => { u with ukHave := 0 }).upd.ukHave.getLsbD 0 = false ∧
      (imaged 5 fun u => { u with sv := 6 }).upd.sv = 6 := by decide +kernel
theorem test_meets_UpdateAndLog_boot :
    let s := State.reset.onUpd fun u => { u with rom := true }
    s.Powered ∧ s.upd.recov = false ∧ s.up 6 = true ∧ (bget s.cores 0).run ≠ .reset ∧ (bget s.cores 1).run ≠ .reset ∧ s.log.queue.length < 32 :=
  ⟨⟨rfl, by decide +kernel⟩, rfl, by decide +kernel, by decide, by decide, by decide⟩
theorem test_meets_UpdateAndLog_confirm :
    let s (b : BankState) := State.reset.onUpd fun u => { u with banks := bset u.banks u.mapped b, rolled := some 1 }
    (s .trial).Takes byPair updIdx 4 [1] ∧ bget (s .trial).upd.banks (s .trial).upd.mapped = .trial ∧ (s .trial).upd.svpend = false ∧ (s .confirmed).Takes byPair updIdx 5 [1] ∧
      (s .trial).Ahead (8320 + msT ((s .trial).cfg updIdx 0x12)) ∧ State.reset.upd.coreAt = some 8320 :=
  ⟨takes_of (by decide +kernel), by decide +kernel, rfl, takes_of (by decide +kernel), ⟨by decide +kernel, by decide +kernel⟩, rfl⟩

/-- The words of a KEYLOAD into a slot. -/
def keyWords (slot : Byte) (key : BitVec 128) : List Word :=
  BitVec.ofNat 36 (slot.toNat * 2 ^ 28) :: (List.range 4).map fun i => (key.extractLsb' (96 - 32 * i) 32).zeroExtend 36

theorem test_meets_UpdateAndLog_keys :
    let s := State.reset
    s.Takes .debug updIdx 0x0A (keyWords 0 5) ∧ s.Takes .debug updIdx 0x0A (keyWords 31 5) ∧ s.Takes .debug updIdx 0x0A (keyWords 32 5) ∧ s.Takes .debug updIdx 0x0C [31] ∧
      s.Takes .debug updIdx 0x0D [3] ∧ (s.srvFree .debug = true ∧ s.served .debug .update = true ∧ (s.access .debug updIdx 0x0C true).isLeft = true ∧
        (s.access .debug updIdx 0x0D true).isLeft = true) ∧ s.log.queue.length < 32 ∧
      ∀ b, bget State.reset.upd.banks b ≠ .confirmed ∨ fld (memRead s.mem (0x100000 * (1 + b.val) + 9)) 35 34 ≠ 3 :=
  ⟨takes_of (by decide +kernel), takes_of (by decide +kernel), takes_of (by decide +kernel), takes_of (by decide +kernel), takes_of (by decide +kernel),
    by decide +kernel, by decide +kernel, by decide +kernel⟩
theorem test_meets_UpdateAndLog_session :
    let s := keyed true
    s.Takes (.session 7) updIdx 0x0A (keyWords 0 5) ∧ ∀ x, bget s.srv.sess 7 = some x → x.slot ≠ 0 := by
  refine ⟨takes_of (by decide +kernel), ?_⟩
  intro x hx
  have h : ((bget (keyed true).srv.sess 7).map fun x => decide (x.slot ≠ 0)) = some true := by decide +kernel
  rw [hx] at h
  simpa using h
theorem test_meets_UpdateAndLog_append :
    let q : LogRec := { cls := 2, time := 8000, drop := 0, payload := [1, 2] }
    let s (n f : Nat) := State.reset.onLog fun l => { l with queue := [q], slot := n, filled := f }
    (s 1023 1000).up 2 = true ∧ (s 1023 1000).log.queue = q :: [] ∧ (s 1023 1000).log.slot < 1024 ∧ ¬((1023 + 1) % 32 = 31 ∧ 991 ≤ 1000) ∧
      ((1022 + 1) % 32 = 31 ∧ 991 ≤ (s 1022 991).log.filled) := by decide +kernel
theorem test_meets_Activation :
    let s := State.reset.onUpd fun u => { u with banks := bset u.banks 1 .valid }
    s.Takes .debug updIdx 3 [1] ∧ s.log.queue.length < 32 ∧ bget s.upd.banks 1 = .valid ∧ (∀ o : Fin 2, o ≠ 1 → bget s.upd.banks o ≠ .valid) ∧
      (∀ o, bget State.reset.upd.banks o ≠ .valid) ∧ State.reset.Takes .debug updIdx 3 [1] :=
  ⟨takes_of (by decide +kernel), by decide +kernel, by decide +kernel, by decide +kernel, by decide +kernel, takes_of (by decide +kernel)⟩

/-- The debug port at level l, in FIELD. -/
def debugs (l : Fin 4) (f : Debug → Debug) : State := (State.reset.onUpd fun u => { u with field := true, keys := bset u.keys 2 (some 5) }).onDbg fun d => f { d with level := l }

theorem test_meets_DebugPort :
    let s := (debugs 0 fun d => { d with chal := some 7, wrong := 2 }).setObj updIdx 0x10 [2]
    s.pwr.mode ≠ .off ∧ s.up 2 = true ∧ s.dbg.level ≠ 3 ∧ s.dbg.chal = some 7 ∧ bget s.upd.keys (Fin.ofNat 32 (s.cfg updIdx 0x10)) = some 5 ∧ s.log.queue.length < 31 ∧
      2 ≤ s.dbg.wrong ∧ ¬(s.dbg.level = 1 ∨ s.dbg.level = 2 ∨ s.upd.field = false) ∧ (debugs 2 id).dbg.level = 2 ∧ (debugs 3 id).dbg.level = 3 ∧ State.reset.upd.field = false := by
  decide +kernel
theorem test_meets_DebugPort_accesses :
    let s := debugs 2 id
    let off : State := { s with dom := bset s.dom 2 { powered := true, held := true } }
    off.up 2 = false ∧ famOf 0x2000 = some (.hs, 0) ∧ famDomain .hs ≠ 0 ∧ s.closed 0x08 = false ∧ 0x800000 ≤ (0x85FFFF : Addr).toNat ∧ (0x85FFFF : Addr).toNat < 0x860000 ∧
      (∀ b : Nat, b < 1 → blockDom (((0xFFFFFF : Addr).toNat - 0xC00000) / 512) ≠ blockDom 0x0B) ∧ (bget s.cores 1).run = .running ∧ (bget s.cores 1).run ≠ .halted ∧
      (s.access .debug 0x1000 1 false).isLeft = true ∧ famOf 0x1000 = some (.ident, 0) ∧ s.reaches .ident 0 = true ∧ State.reset.upd.field = false := by decide +kernel
theorem test_meets_DebugPort_halt :
    let s := ((debugs 2 id).onCore 1 fun c => { c with run := .halted }).onRst fun r => { r with wdRun := none }
    (bget s.cores 1).run = .halted ∧ s.up 6 = true ∧ s.rst.wdRun = none ∧ (s.setObj rstIdx 2 [1]).cfg rstIdx 2 ≠ 0 ∧ (∀ q, q ≠ (1 : Fin 2) → (bget s.cores q).run ≠ .halted) ∧
      ((s.setObj rstIdx 5 [3]).cfg rstIdx 5).testBit 1 = true := by decide +kernel

theorem test_meets_SoundKept : State.reset.Sound := by
  refine ⟨by decide, ?_⟩
  decide +kernel
theorem test_meets_HighSideProtection :
    let s := hs71 fun h => { h with out := true }
    s.iop = true ∧ 6 ≤ fld (0x600000000 : Word) 35 32 ∧ fld (0x010000 : Word) 23 16 ≠ 0 ∧ (bget s.hs 71).out = true ∧ (bget s.hs 71).win = none ∧ (bget s.hs 71).lcause = 0 := by
  decide +kernel

/-! WellFormed: an ill-formed command for each check -/

theorem test_ill_fabricTransaction : WellFormed (.fabricTransaction { read8 with data := [0] }) = false := by decide
theorem test_ill_fabricTransaction_write : WellFormed (.fabricTransaction { read8 with write := true, data := [0] }) = false := by decide
theorem test_ill_zopWrite : WellFormed (.zopWrite (asks 0 0) (List.replicate 256 0)) = false := by decide +kernel
theorem test_ill_blockSeg : WellFormed (.blockSeg (asks 0 0) 0 (List.replicate 57 0)) = false := by decide
theorem test_ill_zopMalformed : WellFormed (.zopMalformed (.udp 0) 0 (List.replicate 1501 0)) = false := by decide +kernel
theorem test_ill_matrixFrameStart : WellFormed (.matrixFrameStart [127, 128]) = false := by decide
theorem test_ill_loopStreamArrival : WellFormed (.loopStreamArrival 0 []) = false ∧ WellFormed (.loopStreamArrival 0 (List.replicate 9 0)) = false := by decide
theorem test_ill_address_field (p : Fin 2) :
    WellFormed (.lea p 9 8 0) = false ∧ WellFormed (.addar p 9 0 0) = false ∧ WellFormed (.addar p 0 9 0) = false ∧ WellFormed (.mova p 9 0) = false ∧
      WellFormed (.movd p 0 9) = false ∧ WellFormed (.cmpa p 9 0) = false ∧ WellFormed (.cmpa p 0 9) = false ∧ WellFormed (.lda p 9 8 0 .good) = false ∧
      WellFormed (.sta p 9 8 0 .good) = false := by decide +revert
theorem test_ill_bit_field (p : Fin 2) :
    WellFormed (.bfi p 0 1 2 0) = false ∧ WellFormed (.bfi p 0 1 1 36) = false ∧ WellFormed (.bfx p 0 1 2 0 true) = false ∧ WellFormed (.bfx p 0 1 36 1 true) = false := by
  decide +revert
theorem test_ill_canFrame (ch : Fin 8) :
    WellFormed (.canFrameReceive ch { frame123 false with id := 0x48C0000, dlc := 1 }) = false ∧ WellFormed (.canFrameReceive ch (frame123 false)) = false ∧
      WellFormed (.canWufDetect ch { frame123 false with id := 0, rtr := true, fdf := true } false) = false := by decide +revert
theorem test_ill_linResponse (ch : Fin 8) : WellFormed (.linResponseComplete ch (List.replicate 10 0) .good) = false := by decide +revert
theorem test_ill_ethFrame (port : Fin 5) : WellFormed (.ethFrameReceive port (octets60 true 0x800 13)) = false := by decide +revert
theorem test_ill_ringFrame :
    WellFormed (.ringFrameReceive { cls := 0, src := 0, bc := false, dst := 0, chan := 0, lap := false, seq := 0, stamp := 0, words := List.replicate 257 0, crcOk := true, eer := false }) = false := by
  decide +kernel
theorem test_ill_verdict : WellFormed (.imageVerifyDone 7) = false ∧ WellFormed (.romBootVerifyDone 7) = false := by decide


end Sys2Proof.Tests
end

section
/-!
High-side protection: a malformed command word (R123) and a trip's latch (R127, R129, R131, R134).
-/
namespace Sys2Proof.Machine

/-! A bank of which every entry is changed -/

theorem bget_foldl_bmod {α : Type} {n : Nat} (f : Fin n → α → α) (i : Fin n) {l : List (Fin n)} (hl : l.Nodup) (v : Bank α n) :
    bget (l.foldl (fun w j => bmod w j (f j)) v) i = if i ∈ l then f i (bget v i) else bget v i := by
  induction l generalizing v with
  | nil => simp
  | cons j r ih =>
    obtain ⟨hj, hr⟩ := List.nodup_cons.mp hl
    rw [List.foldl_cons, ih hr]
    by_cases hij : i = j
    · subst hij
      simp [hj]
    · simp [hij]

@[simp] theorem bget_ball {α : Type} {n : Nat} (v : Bank α n) (f : Fin n → α → α) (i : Fin n) : bget (ball v f) i = f i (bget v i) := by
  simp [ball, allFin, bget_foldl_bmod f i (List.nodup_finRange n)]

/-! Malformed words -/

theorem hsWordOk_eq_false_iff (w : Word) :
    hsWordOk w = false ↔ 6 ≤ fld w 35 32 ∨ fld w 23 16 ≠ 0 ∨ fld w 35 32 ≠ 4 ∧ fld w 15 0 ≠ 0 := by
  simp only [hsWordOk, Bool.and_eq_false_iff, Bool.or_eq_false_iff, decide_eq_false_iff_not, or_assoc]
  omega

/-- A malformed word does nothing but raise kind 28 of its group (R123). -/
theorem hsWord_malformed {s : State} {w : Word} (g : Fin 9) (hs : s.iop = true) (hw : hsWordOk w = false) :
    hsWord g w s = s.raise (0x30 + g.val) 28 := by
  simp [hsWord, hs, hw]

theorem exec_hsMalformedWord {s : State} {w : Word} (g : Fin 9) (hs : s.iop = true) (hw : hsWordOk w = false) :
    exec (.hsMalformedWord g w) s = .next (s.raise (0x30 + g.val) 28) := by
  rw [show exec (.hsMalformedWord g w) s = execHsMalformedWord g w s from rfl, execHsMalformedWord, hw, hsWord_malformed g hs hw]
  rfl

/-! A trip's latch -/

/-- A channel as a latch at `now` leaves it (R131, R132). -/
def HsChannel.latched (now : Nat) (cause : BitVec 3) (c : HsChannel) : HsChannel :=
  { hsDark now c with act := .off, next := none, win := none, offEnds := none, lowAt := none, lcause := if c.lcause = 0 then cause else c.lcause }

/-- A channel with its window's timers frozen from `now` on (R134). -/
def HsChannel.freezeWin (now : Nat) (c : HsChannel) : HsChannel :=
  { c with win := c.win.map fun w => if w.frozen.isNone then { w with frozen := some now } else w }

section
variable (s : State) (ch : Fin 72) (cause : BitVec 3)

@[simp] theorem State.hsLatch_hs : (s.hsLatch ch cause).hs = bmod s.hs ch (HsChannel.latched s.now cause) := by
  simp only [State.hsLatch, State.uncharge, State.undefer, State.onHs_hs]
  rfl

theorem State.hsLatch_frame : ∃ hs adm, s.hsLatch ch cause = { s with hs := hs, adm := adm } := ⟨_, _, rfl⟩

theorem State.freezeTimers_frame (g : Nat) : ∃ q, s.freezeTimers g = { s with seqs := q } := ⟨_, rfl⟩

/-- A quiet window's opening changes channels, thermal states and sequencers' timers alone. -/
theorem State.openQuiet_frame : ∃ hs th seqs, s.openQuiet ch = { s with hs := hs, th := th, seqs := seqs } := by
  obtain ⟨q, e⟩ := s.freezeTimers_frame (hsGroup ch).val
  simp only [State.openQuiet, e]
  generalize ball _ _ = hs
  exact ⟨hs, _, q, rfl⟩

/-- A quiet window freezes the windows of the group's other channels and touches no other channel. -/
theorem State.openQuiet_channel (k : Fin 72) :
    bget (s.openQuiet ch).hs k = if hsGroup k = hsGroup ch ∧ k ≠ ch then (bget s.hs k).freezeWin s.now else bget s.hs k := by
  obtain ⟨_, e⟩ := s.freezeTimers_frame (hsGroup ch).val
  rw [State.openQuiet, e]
  simp only [bget_ball, State.onTh_hs]
  rfl

/-- A trip's latch changes channels, the ledger, thermal states, sequencers' timers and fault reports alone. -/
theorem State.hsTripLatch_frame :
    ∃ hs adm th seqs flt, s.hsTripLatch ch cause = { s with hs := hs, adm := adm, th := th, seqs := seqs, flt := flt } := by
  obtain ⟨_, adm, hlatch⟩ := s.hsLatch_frame ch cause
  rw [State.hsTripLatch, hlatch]
  obtain ⟨hs, th, seqs, hquiet⟩ := State.openQuiet_frame _ ch
  rw [hquiet]
  exact ⟨hs, adm, th, seqs, _, rfl⟩

theorem State.hsTripLatch_channel_same :
    bget (s.hsTripLatch ch cause).hs ch = (bget s.hs ch).latched s.now cause := by
  simp [State.hsTripLatch, State.openQuiet_channel, State.raiseHs]

theorem State.hsTripLatch_channel_ne {k : Fin 72} (hk : k ≠ ch) :
    bget (s.hsTripLatch ch cause).hs k = if hsGroup k = hsGroup ch then (bget s.hs k).freezeWin s.now else bget s.hs k := by
  simp only [State.hsTripLatch, State.openQuiet_channel, State.raiseHs, State.raise_hs, State.hsLatch_hs, bget_bmod_ne _ _ hk, hk,
    ne_eq, not_false_eq_true, and_true]
  rfl

theorem State.hsTripLatch_charges : (s.hsTripLatch ch cause).adm.charges = s.adm.charges.filter (·.code != ch.val) := rfl

theorem State.hsTripLatch_apart : Apart s (s.hsTripLatch ch cause) := by
  obtain ⟨_, _, _, _, _, e⟩ := s.hsTripLatch_frame ch cause
  rw [e]
  exact ⟨rfl, rfl, rfl, rfl, rfl⟩

theorem State.hsTripLatch_now : (s.hsTripLatch ch cause).now = s.now := by
  obtain ⟨_, _, _, _, _, e⟩ := s.hsTripLatch_frame ch cause
  rw [e]
  rfl

theorem State.hsTripLatch_reports :
    Reports s (s.hsTripLatch ch cause) (0x30 + ch.val / 8) ((if cause = 1 then 0 else 8) + ch.val % 8) := rfl

/-! A trip outside an inrush window -/

/-- A trip counts at its channel (R131). -/
def State.hsCountTrip : State := s.onHs ch fun h => { h with trips := satInc h.trips }

/-- A trip of an output that is on and has no window open latches its channel with cause 1 (R131). -/
theorem exec_hsOvercurrentTrip (hout : (bget s.hs ch).out = true) (hwin : (bget s.hs ch).win = none) :
    exec (.hsOvercurrentTrip ch) s = .next ((s.hsCountTrip ch).hsTripLatch ch 1) := by
  rw [show exec (.hsOvercurrentTrip ch) s = execHsOvercurrentTrip ch s from rfl]
  simp [execHsOvercurrentTrip, hout, hwin, State.hsCountTrip]

@[simp] theorem State.hsCountTrip_channel_same :
    bget (s.hsCountTrip ch).hs ch = { bget s.hs ch with trips := satInc (bget s.hs ch).trips } := bget_bmod_same ..

@[simp] theorem State.hsCountTrip_channel_ne {k : Fin 72} (hk : k ≠ ch) : bget (s.hsCountTrip ch).hs k = bget s.hs k := bget_bmod_ne _ _ hk

/-- What a trip outside a window leaves of its channel (R131). -/
theorem hsTrip_channel (hout : (bget s.hs ch).out = true) (hl : (bget s.hs ch).lcause = 0) :
    let h := bget s.hs ch
    let h' := bget ((s.hsCountTrip ch).hsTripLatch ch 1).hs ch
    h'.out = false ∧ h'.act = .off ∧ h'.lcause = 1 ∧ h'.trips = satInc h.trips ∧ h'.offAt = some s.now ∧ h'.cmd = h.cmd := by
  rw [State.hsTripLatch_channel_same, State.hsCountTrip_channel_same]
  simp [HsChannel.latched, hsDark, hout, hl, State.hsCountTrip, State.now]

/-- A trip outside a window leaves the channels of the other groups, and output and latch of every other channel. -/
theorem hsTrip_other_channels {k : Fin 72} (hk : k ≠ ch) :
    let c := bget s.hs k
    let c' := bget ((s.hsCountTrip ch).hsTripLatch ch 1).hs k
    (hsGroup k ≠ hsGroup ch → c' = c) ∧ c'.out = c.out ∧ c'.lcause = c.lcause := by
  rw [State.hsTripLatch_channel_ne _ _ _ hk, State.hsCountTrip_channel_ne _ _ hk]
  by_cases hg : hsGroup k = hsGroup ch
  · simp [hg, HsChannel.freezeWin]
  · simp [hg]

end

/-- Settles O57: a malformed word raises its group's kind 28 alone; a trip counts, latches its channel and freezes the windows of its
group. -/
theorem highSideProtection : Obligations.HighSideProtection := by
  intro g w ch s h
  refine ⟨fun hiop hbad => ?_, fun hout hwin hl => ?_⟩
  · exact ⟨_, exec_hsMalformedWord g hiop ((hsWordOk_eq_false_iff w).mpr hbad), rfl, rfl⟩
  · obtain ⟨hout', hact, hcause, htrips, hoff, hcmd⟩ := hsTrip_channel s ch hout hl
    have hrep := State.hsTripLatch_reports (s.hsCountTrip ch) ch 1
    rw [if_pos rfl, Nat.zero_add] at hrep
    have huncharged : ∀ x ∈ ((s.hsCountTrip ch).hsTripLatch ch 1).adm.charges, x.code ≠ ch.val := by
      simp [State.hsTripLatch_charges]
    exact ⟨_, exec_hsOvercurrentTrip s ch hout hwin, hout', hact, hcause, htrips, hoff, hcmd, huncharged, hrep,
      State.hsTripLatch_apart (s.hsCountTrip ch) ch 1, State.hsTripLatch_now (s.hsCountTrip ch) ch 1,
      fun k hk => (hsTrip_other_channels s ch hk).1, fun k hk => (hsTrip_other_channels s ch hk).2⟩

end Sys2Proof.Machine
end

section
/-!
Network sleep: daisy messages that leave (R413, R440), and keep-alives sent and received (R444).
-/
namespace Sys2Proof.Machine

section
variable {s : State}

/-! A daisy message leaves -/

/-- A daisy message changes what was sent, and the ring's queue where the ring is one of its media (R413, R440). -/
theorem State.daisySend_eq (s : State) (type : Byte) (m : DaisyMsg) (media : List DaisyMed) :
    s.daisySend type m media =
      { s with
        pwr := { s.pwr with sent := media.map fun d => (type, d, m) }
        ring := if .ring ∈ media ∧ s.up 5 = true then
            { s.ring with txq := s.ring.txq ++ [{ cls := 3, bc := true, dst := 0, words := packFrame (daisyOctets type m) }] }
          else s.ring } := by
  simp only [State.daisySend, List.contains_iff_mem, Bool.and_eq_true]
  split <;> rfl

theorem State.daisySend_now (s : State) (type : Byte) (m : DaisyMsg) (media : List DaisyMed) : (s.daisySend type m media).now = s.now := by
  rw [State.daisySend_eq]
  rfl

theorem State.daisySend_sends (s : State) (type : Byte) (m : DaisyMsg) (media : List DaisyMed) :
    Sends s (s.daisySend type m media) type m media := by
  rw [State.daisySend_eq]
  exact ⟨rfl, rfl⟩

/-- A message sent by a state with the same ring and domains is sent from s as well. -/
theorem Sends.of_frame {u t : State} {type : Byte} {m : DaisyMsg} {media : List DaisyMed} (h : Sends u t type m media)
    (hring : u.ring = s.ring) (hdom : u.dom = s.dom) : Sends s t type m media := by
  unfold Sends State.up at h ⊢
  rwa [hring, hdom] at h

/-! A KEEP is received -/

/-- A KEEP counts when the list holds a privileged entry of its origin (R444). -/
def State.keepsPrivileged (s : State) (m : DaisyMsg) : Prop := ∃ x ∈ nodeList s.obj, x.num = m.orig.toNat ∧ x.priv = true

theorem State.keepsPrivileged_iff (s : State) (m : DaisyMsg) :
    s.keepsPrivileged m ↔ ((nodeList s.obj).any fun n => n.num = m.orig.toNat && n.priv) = true := by
  simp [State.keepsPrivileged]

/-- A KEEP taken restarts the quiet time and names its origin (R441, R444). -/
theorem exec_daisyKeepReceive_of_privileged {m : DaisyMsg} (med : DaisyMed) (hup : s.up 5 = true) (h : s.keepsPrivileged m) :
    exec (.daisyKeepReceive m med) s = .next (s.onPwr fun p =>
      { p with quietAt := some s.now, lastka := m.orig, dstate := if p.dstate = 2 then 4 else p.dstate }) := by
  rw [show exec (.daisyKeepReceive m med) s = execDaisyKeepReceive m med s from rfl]
  simp [execDaisyKeepReceive, hup, (s.keepsPrivileged_iff m).mp h]

theorem exec_daisyKeepReceive_of_not_privileged {m : DaisyMsg} (med : DaisyMed) (hup : s.up 5 = true) (h : ¬ s.keepsPrivileged m) :
    exec (.daisyKeepReceive m med) s = .next (s.raise 0x02 4) := by
  rw [show exec (.daisyKeepReceive m med) s = execDaisyKeepReceive m med s from rfl]
  rw [s.keepsPrivileged_iff m, Bool.not_eq_true] at h
  simp [execDaisyKeepReceive, hup, h]

/-! A KEEP is sent -/

/-- The instant of the next KEEP: KAINT after the one before (R444). -/
def State.keepDue (s : State) : Nat := s.pwr.keepAt + msT (s.cfg pwrIdx 0x1B)

/-- A node's KEEP names the node alone (R440). -/
def State.keepMsg (s : State) : DaisyMsg :=
  { gen := 0, orig := BitVec.ofNat 8 s.myNode, nxt := 0, ovr := false, excl := [], entries := [] }

/-- A KEEP leaves, and the next is timed from it (R444). -/
def State.keepSent (s : State) : State :=
  ((s.at s.keepDue).onPwr fun p => { p with keepAt := (s.at s.keepDue).now }).daisySend 3 s.keepMsg s.media

theorem exec_daisyKeepSend_of_privileged {x : Node} (hup : s.up 5 = true) (hkeep : s.pwr.keep = true) (hown : s.ownEntry = some x)
    (hx : x.priv = true) : exec .daisyKeepSend s = .next s.keepSent := by
  rw [show exec .daisyKeepSend s = execDaisyKeepSend s from rfl]
  simp [execDaisyKeepSend, hup, hkeep, hown, hx, State.keepSent, State.keepDue, State.keepMsg]

/-- Without KEEP, or without privilege, no KEEP leaves (R444). -/
theorem exec_daisyKeepSend_idle {x : Node} (hown : s.ownEntry = some x) (h : s.pwr.keep = false ∨ x.priv = false) :
    exec .daisyKeepSend s = .next s := by
  rw [show exec .daisyKeepSend s = execDaisyKeepSend s from rfl]
  obtain hkeep | hx := h
  · simp [execDaisyKeepSend, hkeep]
  · simp [execDaisyKeepSend, hown, hx]

theorem State.keepSent_now (h : s.Ahead s.keepDue) : s.keepSent.now = s.keepDue := by
  obtain ⟨hle, hlt⟩ := h
  calc s.keepSent.now = (s.at s.keepDue).now := State.daisySend_now ..
    _ = max s.now s.keepDue := State.at_now s _ hlt
    _ = s.keepDue := max_eq_right hle

theorem State.keepSent_apart (s : State) :
    s.keepSent.mem = s.mem ∧ s.keepSent.cores = s.cores ∧ s.keepSent.dom = s.dom ∧ s.keepSent.srv = s.srv ∧ s.keepSent.hs = s.hs ∧
      s.keepSent.fab = s.fab := by
  simp [State.keepSent, State.daisySend_eq]

theorem State.keepSent_sends (s : State) : Sends s s.keepSent 3 s.keepMsg s.media :=
  (State.daisySend_sends _ _ _ _).of_frame (by simp) (by simp)

theorem State.keepSent_pwr (h : s.Ahead s.keepDue) :
    s.keepSent.pwr = { s.pwr with keepAt := s.keepDue, sent := s.keepSent.pwr.sent } := by
  obtain ⟨hle, hlt⟩ := h
  simp [State.keepSent, State.daisySend_eq, State.at_now s _ hlt, hle]

end

/-- Settles O59: a KEEP received is taken by the privilege of its origin's entries; a KEEP due is sent by this node's KEEP and privilege. -/
theorem keepAlives : Obligations.KeepAlives := by
  intro m med e s hahead hup
  refine ⟨fun hpriv => ?_, fun hnone => ?_, fun x hown he => ⟨fun hkeep hx => ?_, fun hidle => ?_⟩⟩
  · exact ⟨_, exec_daisyKeepReceive_of_privileged med hup hpriv, rfl⟩
  · have hnot : ¬ s.keepsPrivileged m := by
      rintro ⟨x, hmem, hnum, hx⟩
      simp [hnone x hmem hnum] at hx
    exact ⟨_, exec_daisyKeepReceive_of_not_privileged med hup hnot, rfl, rfl⟩
  · obtain rfl : e = s.keepDue := he
    exact ⟨_, exec_daisyKeepSend_of_privileged hup hkeep hown hx, State.keepSent_now hahead, s.keepSent_apart, s.keepSent_sends,
      State.keepSent_pwr hahead⟩
  · exact ⟨_, exec_daisyKeepSend_idle hown hidle, rfl, rfl⟩

end Sys2Proof.Machine
end

section
/-!
Duo: valid copies and missed ones (R542).
-/
namespace Sys2Proof.Machine

/-! What follows a copy or a miss -/

/-- What R542 counts, and what a takeover needs of the copies: MISSC, MISSED, the deadline ahead, the last copy and GEN. -/
def Duo.copies (d : Duo) : Nat × Word × Option Nat × List Word × Byte := (d.missc, d.missed, d.due, d.copy, d.gen)

theorem Duo.copies_eq_iff {d e : Duo} :
    e.copies = d.copies ↔ e.missc = d.missc ∧ e.missed = d.missed ∧ e.due = d.due ∧ e.copy = d.copy ∧ e.gen = d.gen := by
  simp [Duo.copies]

/-- What the duo logic does once a copy is counted or missed: roles, flags, reservations, loops and reports change (R536, R537, R545); the counts of
R542 and all else stay, and no report is lost. -/
structure KeepsCopies (s t : State) : Prop where
  frame : ∃ duo adm flt eng, t = { s with duo := duo, adm := adm, flt := flt, eng := eng }
  copies : t.duo.copies = s.duo.copies
  inflight : s.flt.inflight ⊆ t.flt.inflight

theorem KeepsCopies.refl (s : State) : KeepsCopies s s := ⟨⟨_, _, _, _, rfl⟩, rfl, List.Subset.refl _⟩

theorem KeepsCopies.trans {s t u : State} (hst : KeepsCopies s t) (htu : KeepsCopies t u) : KeepsCopies s u where
  frame := by
    obtain ⟨_, _, _, _, rfl⟩ := hst.frame
    obtain ⟨_, _, _, _, rfl⟩ := htu.frame
    exact ⟨_, _, _, _, rfl⟩
  copies := htu.copies.trans hst.copies
  inflight := List.Subset.trans hst.inflight htu.inflight

/-- Memory, cores, domains, objects, loads and the ring: what copies and misses leave alone. -/
def DuoApart (s t : State) : Prop :=
  t.mem = s.mem ∧ t.cores = s.cores ∧ t.dom = s.dom ∧ t.srv = s.srv ∧ t.hs = s.hs ∧ t.vd = s.vd ∧ t.ring = s.ring

theorem State.onDuo_apart (s : State) (f : Duo → Duo) : DuoApart s (s.onDuo f) := ⟨rfl, rfl, rfl, rfl, rfl, rfl, rfl⟩

theorem KeepsCopies.apart {s t u : State} (htu : KeepsCopies t u) (hst : DuoApart s t) : DuoApart s u := by
  obtain ⟨_, _, _, _, rfl⟩ := htu.frame
  exact hst

theorem KeepsCopies.time {s t : State} (h : KeepsCopies s t) : t.time = s.time := by
  obtain ⟨_, _, _, _, rfl⟩ := h.frame
  rfl

theorem KeepsCopies.raised {s t : State} {blk kind : Nat} (h : KeepsCopies s t) (hs : Raised s blk kind) : Raised t blk kind := by
  rw [Raised, State.stamp, h.time]
  exact h.inflight hs

theorem KeepsCopies.foldl {α : Type} {f : State → α → State} (hf : ∀ s x, KeepsCopies s (f s x)) (l : List α) (s : State) :
    KeepsCopies s (l.foldl f s) := by
  induction l generalizing s with
  | nil => exact .refl s
  | cons x xs ih => exact (hf s x).trans (ih (f s x))

section
variable (s : State)

theorem State.onDuo_keepsCopies {f : Duo → Duo} (hf : (f s.duo).copies = s.duo.copies) : KeepsCopies s (s.onDuo f) :=
  ⟨⟨_, _, _, _, rfl⟩, hf, List.Subset.refl _⟩

theorem State.onAdm_keepsCopies (f : Admission → Admission) : KeepsCopies s (s.onAdm f) :=
  ⟨⟨_, _, _, _, rfl⟩, rfl, List.Subset.refl _⟩

theorem State.onLoop_keepsCopies (m : Fin 360) (f : Loop → Loop) : KeepsCopies s (s.onLoop m f) :=
  ⟨⟨_, _, _, _, rfl⟩, rfl, List.Subset.refl _⟩

theorem State.raise_keepsCopies (b k : Nat) : KeepsCopies s (s.raise b k) :=
  ⟨⟨_, _, _, _, rfl⟩, rfl, List.subset_append_left _ _⟩

theorem State.raiseIf_keepsCopies (c : Bool) (b k : Nat) : KeepsCopies s (s.raiseIf c b k) := by
  unfold State.raiseIf
  split
  · exact s.raise_keepsCopies b k
  · exact .refl s

/-- A role change that makes no acting device wait turns no output off (R536, R543). -/
theorem State.duoRole_keepsCopies {r : DuoRole} (h : r.waits = true → s.duo.role.waits = true) : KeepsCopies s (s.duoRole r) := by
  have hstays : ¬ (r.waits && !s.duo.role.waits) = true := by simpa using h
  simp only [State.duoRole, if_neg hstays]
  split
  · exact .refl s
  · exact ((s.onDuo_keepsCopies rfl).trans (State.raiseIf_keepsCopies ..)).trans (State.onAdm_keepsCopies ..)

theorem State.setMatch_keepsCopies (m : Bool) : KeepsCopies s (s.setMatch m) :=
  (s.onDuo_keepsCopies rfl).trans (State.raiseIf_keepsCopies ..)

theorem State.shadow_keepsCopies (ws : List Word) : KeepsCopies s (s.shadow ws) :=
  ((KeepsCopies.foldl (fun t _ => t.onLoop_keepsCopies _ _) _ s).trans (State.onDuo_keepsCopies _ rfl)).trans (State.raiseIf_keepsCopies ..)

/-- SYNC changes between the two roles of a standby alone (R536). -/
theorem State.duoSync_keepsCopies : KeepsCopies s s.duoSync := by
  simp only [State.duoSync, Bool.and_eq_true, beq_iff_eq]
  split
  next h =>
    obtain ⟨⟨⟨hrole, -⟩, -⟩, -⟩ := h
    exact s.duoRole_keepsCopies fun _ => by rw [hrole]; rfl
  next =>
    split
    next h =>
      exact s.duoRole_keepsCopies fun _ => by rw [h.1]; rfl
    next => exact .refl s

/-! A copy is received -/

/-- What a valid copy leaves in the duo logic before its role answers it (R536, R542). -/
def Duo.noteCopy (ws : List Word) (d : Duo) : Duo :=
  let w0 := ws.getD 0 0
  { d with
    copy := if w0.getLsbD 35 then ws else d.copy, copyAt := (ws.getD 1 0).toNat, frame := ws, here := true, due := none, missc := 0
    good := d.good + 1, pri := w0.getLsbD 15, pgen := BitVec.ofNat 8 (fld w0 33 26), pact := w0.getLsbD 35, heardP := true, misscyc := 0
    phealth := ws.getD 2 0 }

theorem State.setMatch_role (m : Bool) : (s.setMatch m).duo.role = s.duo.role := by
  unfold State.setMatch State.raiseIf
  split <;> rfl

/-- A valid copy is noted; what its role does on it keeps the counts (R536, R545). -/
theorem State.duoCopy_keepsCopies (ws : List Word) : KeepsCopies (s.onDuo (Duo.noteCopy ws)) (s.duoCopy ws) := by
  unfold State.duoCopy
  extract_lets w0 act note s1 g
  have hnoted : KeepsCopies (s.onDuo (Duo.noteCopy ws)) s1 := State.setMatch_keepsCopies ..
  have hrole : s1.duo.role = s.duo.role := State.setMatch_role ..
  have hstandby : KeepsCopies s1 (if act then s1.shadow ws else s1).duoSync := by
    refine KeepsCopies.trans ?_ (State.duoSync_keepsCopies _)
    split
    · exact s1.shadow_keepsCopies ws
    · exact .refl s1
  refine hnoted.trans ?_
  split
  next hunresolved =>
    split
    · refine (s1.duoRole_keepsCopies fun _ => ?_).trans (State.onDuo_keepsCopies _ rfl)
      rw [hrole, hunresolved]
      rfl
    · exact .refl s1
  next => exact hstandby
  next => exact hstandby
  next =>
    split
    · exact s1.onDuo_keepsCopies rfl
    · exact .refl s1
  next => exact .refl s1

/-- A frame that R542 takes as a valid copy. -/
def State.validCopy (f : DuoFrame) : Prop :=
  f.ok = true ∧ f.src.val = s.cfg duoIdx 3 ∧ f.words.getD 1 0 = wd (s.now / 100000)

end

section
variable {s : State}

theorem exec_duoStateReceive_of_valid {f : DuoFrame} (hring : s.onTheRing = true) (hrole : s.duo.role ≠ .off) (h : s.validCopy f) :
    exec (.duoStateReceive f) s = .next (s.duoCopy f.words) := by
  rw [show exec (.duoStateReceive f) s = execDuoStateReceive f s from rfl, execDuoStateReceive]
  obtain ⟨hok, hsrc, hcycle⟩ := h
  simp only [hring, hok, hsrc, hcycle, bne_iff_ne.mpr hrole, decide_true, Bool.and_self, if_true]

theorem exec_duoStateReceive_of_not_valid {f : DuoFrame} (h : ¬ s.validCopy f) : exec (.duoStateReceive f) s = .next s := by
  rw [show exec (.duoStateReceive f) s = execDuoStateReceive f s from rfl, execDuoStateReceive]
  refine congrArg _ (if_neg fun htaken => h ?_)
  simp only [Bool.and_eq_true, decide_eq_true_eq] at htaken
  obtain ⟨⟨⟨-, hok⟩, hsrc⟩, hcycle⟩ := htaken
  exact ⟨hok, hsrc, hcycle⟩

/-! A copy is missed -/

/-- A miss as the duo logic counts it (R542). -/
def Duo.noteMiss (d : Duo) : Duo := { d with due := none, good := 0, missc := d.missc + 1, missed := satInc d.missed }

/-- A miss is counted at its deadline and raises kind 1 (R542). -/
def State.missCopy (s : State) (strobe : Nat) : State := ((s.at (strobe + usT 500)).onDuo Duo.noteMiss).raise 0 1

theorem exec_duoCopyDeadline_of_due {strobe : Nat} (h : s.duo.due = some strobe) :
    exec .duoCopyDeadline s = .next (s.missCopy strobe).duoSync := by
  rw [show exec .duoCopyDeadline s = execDuoCopyDeadline s from rfl, execDuoCopyDeadline]
  simp only [h]
  rfl

theorem exec_duoCopyDeadline_of_not_due (h : s.duo.due = none) : exec .duoCopyDeadline s = .next s := by
  rw [show exec .duoCopyDeadline s = execDuoCopyDeadline s from rfl, execDuoCopyDeadline]
  simp only [h]

theorem State.missCopy_now {strobe : Nat} (h : s.Ahead (strobe + usT 500)) : (s.missCopy strobe).now = strobe + usT 500 := by
  obtain ⟨hle, hlt⟩ := h
  calc (s.missCopy strobe).now = (s.at (strobe + usT 500)).now := rfl
    _ = max s.now (strobe + usT 500) := State.at_now s _ hlt
    _ = strobe + usT 500 := max_eq_right hle

theorem State.missCopy_duo (s : State) (strobe : Nat) : (s.missCopy strobe).duo = s.duo.noteMiss := by simp [State.missCopy]

theorem State.missCopy_apart (s : State) (strobe : Nat) : DuoApart s (s.missCopy strobe) := by
  simp [DuoApart, State.missCopy]

theorem State.missCopy_raised (s : State) (strobe : Nat) : Raised (s.missCopy strobe) 0 1 :=
  List.mem_append_right _ (List.mem_singleton.mpr rfl)

end

/-- Settles O58: a valid copy is noted and a miss is counted, after which the duo logic keeps the counts and leaves loads, cores and media alone. -/
theorem duoCopies : Obligations.DuoCopies := by
  intro f e s hahead hring
  refine ⟨fun hrole hvalid => ?_, fun hinvalid => ?_, fun strobe hdue he => ?_, fun hnone => ?_⟩
  · have h := s.duoCopy_keepsCopies f.words
    obtain ⟨hmissc, hmissed, hdue, -, -⟩ := Duo.copies_eq_iff.mp h.copies
    exact ⟨_, exec_duoStateReceive_of_valid hring hrole hvalid, h.apart (s.onDuo_apart _), hmissc, hdue, hmissed⟩
  · exact ⟨_, exec_duoStateReceive_of_not_valid hinvalid, rfl⟩
  · obtain rfl : e = strobe + usT 500 := he
    have h := (s.missCopy strobe).duoSync_keepsCopies
    have hnow : (s.missCopy strobe).duoSync.now = strobe + usT 500 := by
      rw [State.now, h.time]
      exact State.missCopy_now hahead
    obtain ⟨hmissc, hmissed, hdone, hcopy, hgen⟩ := Duo.copies_eq_iff.mp (h.copies.trans (congrArg Duo.copies (s.missCopy_duo strobe)))
    exact ⟨_, exec_duoCopyDeadline_of_due hdue, hnow, h.apart (s.missCopy_apart strobe), hmissc, hmissed, hdone, hcopy, hgen,
      h.raised (s.missCopy_raised strobe)⟩
  · exact ⟨_, exec_duoCopyDeadline_of_not_due hnone, rfl⟩

end Sys2Proof.Machine
end

section
/-!
Firmware update: write commands served as object accesses (R55, R59, R69), and ACTIVATE (R564).
-/
namespace Sys2Proof.Machine

/-! A write command is served -/

section
variable (s : State) (r : Requester)

/-- What an access discards stands in the object server alone (R69). -/
theorem State.noteAccess_frame : ∃ srv, s.noteAccess r = s.onSrv fun _ => srv := by
  unfold State.noteAccess
  split
  · exact ⟨_, rfl⟩
  · exact ⟨s.srv, rfl⟩

/-- The checks of a write read nothing of the object server. -/
theorem State.writeCheck_noteAccess (q : Requester) (idx sub : Nat) (v : Val) :
    (s.noteAccess r).writeCheck q idx sub v = s.writeCheck q idx sub v := by
  obtain ⟨_, e⟩ := s.noteAccess_frame r
  rw [e]
  rfl

theorem State.reaches_noteAccess (f : Fam) (n : Nat) : (s.noteAccess r).reaches f n = s.reaches f n := by
  obtain ⟨_, e⟩ := s.noteAccess_frame r
  rw [e]
  rfl

@[simp] theorem State.noteAccess_log : (s.noteAccess r).log = s.log := by
  obtain ⟨_, e⟩ := s.noteAccess_frame r
  rw [e, State.onSrv_log]

/-- An answer changes the object server alone. -/
theorem State.tell_frame (c : Code) (data : List Word) : s.tell r c data = { s with srv := (s.tell r c data).srv } := by
  unfold State.tell
  split
  · split <;> rfl
  · rfl

/-- An answer goes to its requester, with its code. -/
theorem State.tell_answer (c : Code) (data : List Word) : ∃ y, (s.tell r c data).srv.answer = some y ∧ y.dest = r ∧ y.code = c.1 := by
  unfold State.tell
  split
  · split <;> exact ⟨_, rfl, rfl, rfl⟩
  · exact ⟨_, rfl, rfl, rfl⟩

end

section
variable {s : State}

/-- A request that finds the server free is served at once (R55). -/
theorem State.accept_of_free {q : SrvReq} (h : s.srvFree q.by_ = true) (busy serve : State → State) : s.accept q busy serve = serve s := by
  have hidle := h
  simp only [State.srvFree, Bool.and_eq_true, Bool.not_eq_true'] at hidle
  obtain ⟨⟨hbusy, -⟩, -⟩ := hidle
  simp [State.accept, hbusy, h]

/-- A write command that its block takes is carried out and answered with its code. -/
theorem State.objCmd_of_takes {r : Requester} {idx sub : Nat} {v : Val} (h : s.Takes r idx sub v) (f : State → Code × State) :
    s.objCmd r idx sub v f = (f (s.noteAccess r)).2.tell r (f (s.noteAccess r)).1 [] := by
  obtain ⟨hfree, fam, n, row, hcheck, hfam, hserved, hreach, hroom⟩ := h
  have hlog : (row.prot && decide (32 ≤ s.log.queue.length)) = false := by simpa using hroom
  simp only [State.objCmd, hfam, hserved, Bool.not_true, Bool.false_eq_true, if_false]
  rw [State.accept_of_free hfree]
  simp only [State.writeCheck_noteAccess, hcheck, State.noteAccess_log, hlog, State.reaches_noteAccess, hreach, Bool.false_eq_true, if_false,
    if_true]

/-! A BOOT record is queued -/

/-- A BOOT record of a bank (R569, class 0x02). -/
def State.bootRecord (s : State) (code : Nat) (b : Fin 2) : LogRec :=
  { cls := 2, time := s.time.time, drop := s.log.drop, payload := [wd (code * 2 ^ 32 + b.val * 2 ^ 31 + s.upd.sv * 2 ^ 23), s.imgWord b 3] }

/-- A queue with room takes the record (R570). -/
theorem State.logBoot_of_room (code : Nat) (b : Fin 2) (h : s.log.queue.length < 32) :
    s.logBoot code b = s.onLog fun l => { l with queue := l.queue ++ [s.bootRecord code b], drop := 0 } :=
  if_pos h

theorem bankBase_eq (b : Fin 2) : bankBase b = 0x100000 * (1 + b.val) := by
  decide +revert

/-! ACTIVATE -/

/-- The one bank in a state is the one that is found in it. -/
theorem State.bankIn_of_unique {x : BankState} {b : Fin 2} (hb : bget s.upd.banks b = x) (hother : ∀ o, o ≠ b → bget s.upd.banks o ≠ x) :
    s.bankIn x = some b := by
  cases hfound : s.bankIn x with
  | none => exact absurd (decide_eq_true hb) (List.find?_eq_none.mp hfound b (List.mem_finRange b))
  | some o =>
    have ho : s.bankState o = x := by simpa using List.find?_some (show (allFin 2).find? _ = some o from hfound)
    rw [not_ne_iff.mp fun hne => hother o hne ho]

theorem State.bankIn_eq_none {x : BankState} (h : ∀ o, bget s.upd.banks o ≠ x) : s.bankIn x = none :=
  List.find?_eq_none.mpr fun o _ hx => h o (of_decide_eq_true hx)

theorem State.bankIn_noteAccess (r : Requester) (x : BankState) : (s.noteAccess r).bankIn x = s.bankIn x := by
  obtain ⟨_, e⟩ := s.noteAccess_frame r
  rw [e]
  rfl

/-- A bank on trial, with no try counted (R564). -/
def Update.onTrial (b : Fin 2) (u : Update) : Update := { u with banks := bset u.banks b .trial, tries := 0 }

/-- What ACTIVATE leaves when it puts bank b on trial (R564). -/
def State.activated (s : State) (b : Fin 2) : State :=
  (s.onUpd (Update.onTrial b)).onLog fun l => { l with queue := l.queue ++ [s.bootRecord 0 b], drop := 0 }

theorem State.activateBank_of_valid {b : Fin 2} (h : s.bankIn .valid = some b) (hroom : s.log.queue.length < 32) :
    s.activateBank = (okc, s.activated b) := by
  simp only [State.activateBank, h]
  exact congrArg (Prod.mk okc) (State.logBoot_of_room (s := s.onUpd (Update.onTrial b)) 0 b hroom)

theorem State.activateBank_of_no_valid (h : s.bankIn .valid = none) : s.activateBank = ((0x07, 0), s) := by
  simp only [State.activateBank, h]

theorem exec_activate_of_takes {r : Requester} (h : s.Takes r updIdx 3 [1]) :
    exec (.activate r) s = .next ((s.noteAccess r).activateBank.2.tell r (s.noteAccess r).activateBank.1 []) :=
  congrArg _ (State.objCmd_of_takes h _)

theorem exec_activate_of_valid {r : Requester} {b : Fin 2} (h : s.Takes r updIdx 3 [1]) (hvalid : s.bankIn .valid = some b)
    (hroom : s.log.queue.length < 32) : exec (.activate r) s = .next (((s.noteAccess r).activated b).tell r okc []) := by
  rw [exec_activate_of_takes h, State.activateBank_of_valid (by rwa [State.bankIn_noteAccess]) (by rwa [State.noteAccess_log])]

theorem exec_activate_of_no_valid {r : Requester} (h : s.Takes r updIdx 3 [1]) (hnone : s.bankIn .valid = none) :
    exec (.activate r) s = .next ((s.noteAccess r).tell r (0x07, 0) []) := by
  rw [exec_activate_of_takes h, State.activateBank_of_no_valid (by rwa [State.bankIn_noteAccess])]

end

/-- Settles O60: the one VALID bank goes on trial with a BOOT record queued; without one the command is refused with 0x07. -/
theorem activation : Obligations.Activation := by
  intro r b s htakes hroom
  obtain ⟨srv, hnote⟩ := s.noteAccess_frame r
  refine ⟨fun hvalid hother => ?_, fun hnone => ?_⟩
  · refine ⟨_, exec_activate_of_valid htakes (State.bankIn_of_unique hvalid hother) hroom, State.tell_answer .., ?_⟩
    rw [State.tell_frame, hnote]
    refine ⟨bget_bset_same .., rfl, fun o ho => bget_bset_ne _ _ ho, ?_, rfl⟩
    simp [State.activated, State.bootRecord, State.imgWord, bankBase_eq, wd]
  · refine ⟨_, exec_activate_of_no_valid htakes (State.bankIn_eq_none hnone), State.tell_answer .., ?_⟩
    rw [State.tell_frame, hnote]
    rfl

end Sys2Proof.Machine
end
